-- ==== Sys2Proof/Word.lean ====
section
/-!
DEFINITION. The word types of the register maps and memories (R5).
-/
namespace Sys2Proof

/-- A byte of memory. -/
abbrev Byte := BitVec 8

/-- A 32-bit register word, also an F32 bit pattern. -/
abbrev Word := BitVec 32

/-- A 64-bit counter or T-tick count. -/
abbrev DWord := BitVec 64

end Sys2Proof
end

