-- ==== Sys2Proof/Syntax.lean ====
section
/-!
DEFINITION. The commands of the LMZ40-A block: one constructor per row of opcode_table.json,
with the operands that the row's rule names. A command that an engine of the device runs by
itself (a power sample, a sweep block) is a row too; what the outside supplies to it (a reading,
a received flit) is its operand.
-/
namespace Sys2Proof

/-- R443: the two worlds, Ivory (non-secure) and Sable (secure). -/
inductive World where
  | ivory
  | sable
  deriving DecidableEq, Repr

/-- R9, R445: who issues a register write: an agent of one world, or the firmware itself. -/
inductive Agent where
  | world (w : World)
  | firmware
  deriving DecidableEq, Repr

/-- R364: what the device's requests to host memory meet while a command runs: the bytes that the
read of the referenced payload (or host slot) returns, or none when it fails; and whether writes
to host memory succeed. -/
structure HostDma where
  read : Option (List Byte)
  write : Bool
  deriving DecidableEq, Repr

/-- R242, R262: the source of a shuttle descriptor: a pod shuttle's core 0-15, LP0 (16) or
LP1 (17), or a bulk channel of an edge die. Pod index is 12*d + p. -/
inductive ShuSrc where
  | pod (p : Nat) (s : Nat)
  | bulk (e : Nat) (ch : Nat)
  deriving DecidableEq, Repr

/-- R242: a completion queue: PCQq of a pod, or ECQq of an edge die. -/
inductive CqId where
  | pod (p : Nat) (q : Nat)
  | edge (e : Nat) (q : Nat)
  deriving DecidableEq, Repr

/-- R241: the row of a sector. The map from address to row is not published (R239). -/
structure RowId where
  stack : Nat
  pc : Nat
  bank : Nat
  row : Nat
  deriving DecidableEq, Repr

/-- R239, R241: one entry of a retirement list. -/
structure RetEntry where
  row : RowId
  kind : Nat
  origin : Nat
  frame : Nat
  deriving DecidableEq, Repr

/-- R422, R466: what self-test measures: failing core slots (pod, slot), failing pod units, the
first failing unit that forces the safe state (its code of R545), the rows that it retires, and
each pod's baseline drop in mV (pod, bin, drop). -/
structure SelfTest where
  badSlots : List (Nat × Nat)
  badPods : List Nat
  failed : Option Nat
  rows : List RetEntry
  baseline : List (Nat × Nat × Nat)
  deriving DecidableEq, Repr

/-- R280, R282, R283: a received flit: its 256 bytes, byte 0 in bits 7..0; the codewords that the FEC decoder has
corrected and could not correct since the flit before; whether a start block ended it early. -/
structure Flit where
  bits : BitVec 2048
  corr : Nat := 0
  uncorr : Nat := 0
  short : Bool := false
  deriving DecidableEq, Repr

/-- R280, R319: a received Ethernet frame: its bytes from the destination address to the FCS, and its codeword counts. -/
structure EthFrame where
  bytes : List Byte
  corr : Nat := 0
  uncorr : Nat := 0
  deriving DecidableEq, Repr

/-- R236, R238: what the scrubber meets in a sector besides the errors that the state holds: nothing, a symbol that it
can correct, or an error that it cannot. -/
inductive SectorMet where
  | sound
  | corrected
  | lost
  deriving DecidableEq, Repr

/-- The commands: one constructor per row of opcode_table.json. -/
inductive Instr where
  /-- HELLO (R399). -/
  | hello (m : Nat) (h : HostDma)
  /-- ECHO (R399). -/
  | echo (m : Nat) (h : HostDma)
  /-- SL_LOAD (R400). -/
  | slLoad (m : Nat) (h : HostDma)
  /-- SL_COMMIT (R437). -/
  | slCommit (m : Nat) (h : HostDma)
  /-- SL_DIGEST (R400). -/
  | slDigest (m : Nat) (h : HostDma)
  /-- SL_READ (R400). -/
  | slRead (m : Nat) (h : HostDma)
  /-- JOB_LOAD (R407). -/
  | jobLoad (m : Nat) (h : HostDma)
  /-- HEAT_GO (R401). -/
  | heatGo (m : Nat) (h : HostDma)
  /-- JOB_STOP (R401). -/
  | jobStop (m : Nat) (h : HostDma)
  /-- JOB_UNLOAD (R401). -/
  | jobUnload (m : Nat) (h : HostDma)
  /-- JOB_REPLACE (R401). -/
  | jobReplace (m : Nat) (h : HostDma)
  /-- HEAT_STATUS (R401). -/
  | heatStatus (m : Nat) (h : HostDma)
  /-- DRILL_INSTALL (R199). -/
  | drillInstall (m : Nat) (h : HostDma)
  /-- DRILL_CLEAR (R401). -/
  | drillClear (m : Nat) (h : HostDma)
  /-- DRILL_LIST (R401). -/
  | drillList (m : Nat) (h : HostDma)
  /-- OBJ_ALLOC (R402). -/
  | objAlloc (m : Nat) (h : HostDma)
  /-- OBJ_FREE (R402). -/
  | objFree (m : Nat) (h : HostDma)
  /-- OBJ_QUERY (R402). -/
  | objQuery (m : Nat) (h : HostDma)
  /-- REGION_READ (R402). -/
  | regionRead (m : Nat) (h : HostDma)
  /-- PWR_BUDGET (R482). -/
  | pwrBudget (m : Nat) (h : HostDma)
  /-- PWR_FLOOR (R503). -/
  | pwrFloor (m : Nat) (h : HostDma)
  /-- PWR_PARK (R502). -/
  | pwrPark (m : Nat) (h : HostDma)
  /-- PWR_RESUME (R505). -/
  | pwrResume (m : Nat) (h : HostDma)
  /-- PWR_CEILING (R484). -/
  | pwrCeiling (m : Nat) (h : HostDma)
  /-- PWR_STATUS (R403). -/
  | pwrStatus (m : Nat) (h : HostDma)
  /-- TLM_SNAPSHOT (R404). -/
  | tlmSnapshot (m : Nat) (h : HostDma)
  /-- TLM_HEAT (R408). -/
  | tlmHeat (m : Nat) (h : HostDma)
  /-- LEDGER_READ (R508). -/
  | ledgerRead (m : Nat) (h : HostDma)
  /-- LEDGER_LAPS (R404). -/
  | ledgerLaps (m : Nat) (h : HostDma)
  /-- SAFE_STATUS (R405). -/
  | safeStatus (m : Nat) (h : HostDma)
  /-- FAULT_LOG (R405). -/
  | faultLog (m : Nat) (h : HostDma)
  /-- EVT_FILTER (R405). -/
  | evtFilter (m : Nat) (h : HostDma)
  /-- COOLANT_REPORT (R520). -/
  | coolantReport (m : Nat) (h : HostDma)
  /-- TRAY_IDENT (R406). -/
  | trayIdent (m : Nat) (h : HostDma)
  /-- TWIN_STATUS (R406). -/
  | twinStatus (m : Nat) (h : HostDma)
  /-- TWIN_MAP (R556). -/
  | twinMap (m : Nat) (h : HostDma)
  /-- BATON_HOST (R560). -/
  | batonHost (m : Nat) (h : HostDma)
  /-- BATON_RESTORE (R569). -/
  | batonRestore (m : Nat) (h : HostDma)
  /-- ID_KEY (R406). -/
  | idKey (m : Nat) (h : HostDma)
  /-- ATTEST (R430). -/
  | attest (m : Nat) (h : HostDma)
  /-- CORE_MAP (R406). -/
  | coreMap (m : Nat) (h : HostDma)
  /-- SELFTEST (R424). -/
  | selftest (m : Nat) (h : HostDma)
  /-- RETIRE_READ (R406). -/
  | retireRead (m : Nat) (h : HostDma)
  /-- DEFERRED_COMMAND_RUN (R390). -/
  | deferredCommandRun (i : Nat) (h : HostDma)
  /-- HUB_MBX_DOORBELL (R379). -/
  | hubMbxDoorbell (m : Nat) (v : Word)
  /-- HUB_MBX_RSP_HEAD (R381). -/
  | hubMbxRspHead (m : Nat) (v : Word)
  /-- HUB_EVT_HEAD (R411). -/
  | hubEvtHead (ring : World) (v : Word)
  /-- HUB_TRAY_DONE_HEAD (R392). -/
  | hubTrayDoneHead (v : Word)
  /-- REGISTER_WRITE (R9). -/
  | registerWrite (ag : Agent) (a : Nat) (v : Word)
  /-- HUB_TAKEOVER (R542). -/
  | hubTakeover (pair : Nat)
  /-- STANDBY_LOST (R543). -/
  | standbyLost (pair : Nat)
  /-- SCALAR_INSTRUCTION (R111). -/
  | scalarInstruction (c : Nat)
  /-- ACFG (R122). -/
  | acfg (c : Nat)
  /-- LDS (R92). -/
  | lds (c : Nat)
  /-- STREAM (R76). -/
  | stream (c : Nat)
  /-- HEAD_RELEASE (R94). -/
  | headRelease (c : Nat) (arr : Nat) (held : Nat)
  /-- PROMOTE (R88). -/
  | promote (c : Nat)
  /-- DRAIN (R89). -/
  | drain (c : Nat)
  /-- QSTORE (R125). -/
  | qstore (c : Nat)
  /-- AWAIT (R122). -/
  | await (c : Nat)
  /-- REPEAT_TRAP (R142). -/
  | repeatTrap (c : Nat)
  /-- VADD (R128). -/
  | vadd (c : Nat)
  /-- VSUB (R128). -/
  | vsub (c : Nat)
  /-- VMUL (R128). -/
  | vmul (c : Nat)
  /-- VFMA (R128). -/
  | vfma (c : Nat)
  /-- VMAX (R128). -/
  | vmax (c : Nat)
  /-- VMIN (R128). -/
  | vmin (c : Nat)
  /-- VMOV (R128). -/
  | vmov (c : Nat)
  /-- VSEL (R128). -/
  | vsel (c : Nat)
  /-- VABS (R128). -/
  | vabs (c : Nat)
  /-- VNEG (R128). -/
  | vneg (c : Nat)
  /-- VEXP (R131). -/
  | vexp (c : Nat)
  /-- VLOG (R131). -/
  | vlog (c : Nat)
  /-- VRSQRT (R131). -/
  | vrsqrt (c : Nat)
  /-- VRCP (R131). -/
  | vrcp (c : Nat)
  /-- VCLT (R128). -/
  | vclt (c : Nat)
  /-- VCLE (R128). -/
  | vcle (c : Nat)
  /-- VCEQ (R128). -/
  | vceq (c : Nat)
  /-- MAND (R128). -/
  | mand (c : Nat)
  /-- MOR (R128). -/
  | mor (c : Nat)
  /-- MXOR (R128). -/
  | mxor (c : Nat)
  /-- MNOT (R128). -/
  | mnot (c : Nat)
  /-- MSET (R128). -/
  | mset (c : Nat)
  /-- MTRI (R128). -/
  | mtri (c : Nat)
  /-- MBOX (R128). -/
  | mbox (c : Nat)
  /-- VRSUMR (R130). -/
  | vrsumr (c : Nat)
  /-- VRMAXR (R130). -/
  | vrmaxr (c : Nat)
  /-- VRSUMC (R130). -/
  | vrsumc (c : Nat)
  /-- VRMAXC (R130). -/
  | vrmaxc (c : Nat)
  /-- VAMAX (R128). -/
  | vamax (c : Nat)
  /-- VGETR (R128). -/
  | vgetr (c : Nat)
  /-- VGETC (R128). -/
  | vgetc (c : Nat)
  /-- VPUTR (R128). -/
  | vputr (c : Nat)
  /-- VPUTC (R128). -/
  | vputc (c : Nat)
  /-- VTRN (R128). -/
  | vtrn (c : Nat)
  /-- VDROP (R132). -/
  | vdrop (c : Nat)
  /-- VRAND (R132). -/
  | vrand (c : Nat)
  /-- SHQ (R136). -/
  | shq (c : Nat)
  /-- SHWAIT (R135). -/
  | shwait (c : Nat)
  /-- SLV_TAKE (R147). -/
  | slvTake (c : Nat)
  /-- SLV_TURN (R148). -/
  | slvTurn (c : Nat)
  /-- SLV_DONE (R148). -/
  | slvDone (c : Nat)
  /-- HRD_ARRIVE (R138). -/
  | hrdArrive (c : Nat)
  /-- HRD_WAIT (R138). -/
  | hrdWait (c : Nat)
  /-- POD_HURDLE_COMPLETE (R138). -/
  | podHurdleComplete (die : Nat) (pod : Option Nat) (slot : Nat)
  /-- KSYNC (R137). -/
  | ksync (c : Nat)
  /-- SB_TEXP (R139). -/
  | sbTexp (c : Nat)
  /-- SB_ERRS (R139). -/
  | sbErrs (c : Nat)
  /-- SB_READ (R139). -/
  | sbRead (c : Nat)
  /-- SB_AMAX (R139). -/
  | sbAmax (c : Nat)
  /-- CORE_RUN (R154). -/
  | coreRun (c : Nat)
  /-- CORE_STOP (R154). -/
  | coreStop (c : Nat)
  /-- CORE_PARK (R147). -/
  | corePark (c : Nat) (park : Bool)
  /-- POD_SLV_TAIL (R146). -/
  | podSlvTail (p : Nat) (v : Word)
  /-- EDG_GATE_LAPCLOSE (R181). -/
  | edgGateLapclose (v : Word)
  /-- EDG_GATE_FWDCLOSE (R183). -/
  | edgGateFwdclose (v : Word)
  /-- EDG_PF_MARK (R232). -/
  | edgPfMark (v : Word)
  /-- PREFETCH_FILL_DONE (R233). -/
  | prefetchFillDone (i : Nat)
  /-- POOL_GRANT (R227). -/
  | poolGrant (cl : Nat) (n : Nat) (pin : Bool)
  /-- GRADIENT_PATH_HOME_READ (R184). -/
  | gradientPathHomeRead (i : Nat)
  /-- AMAX_REDUCTION (R340). -/
  | amaxReduction (g : Nat) (peers : List (Nat × Word))
  /-- SWEEP_PHASE_START (R190). -/
  | sweepPhaseStart
  /-- SWEEP_SHARD_START (R190). -/
  | sweepShardStart (u : Nat)
  /-- FACTOR_PASS (R193). -/
  | factorPass (u : Nat)
  /-- SWEEP_BLOCK (R194). -/
  | sweepBlock (u : Nat)
  /-- SCALE_BOOK_WRITE (R207). -/
  | scaleBookWrite
  /-- ATTEMPT_START (R35). -/
  | attemptStart
  /-- STASH_WALK (R173). -/
  | stashWalk
  /-- HEAT_VOID (R548). -/
  | heatVoid
  /-- ROLLBACK_DONE (R202). -/
  | rollbackDone
  /-- HEAT_COMMIT (R37). -/
  | heatCommit
  /-- BATON_STREAM (R560). -/
  | batonStream (ok : Bool)
  /-- PROGRESS_TIMEOUT (R536). -/
  | progressTimeout
  /-- COPY (R248). -/
  | copy (src : ShuSrc) (retry : Nat) (fail : Option Nat)
  /-- GATHER (R253). -/
  | gather (src : ShuSrc) (retry : Nat) (fail : Option Nat)
  /-- SCATTER (R253). -/
  | scatter (src : ShuSrc) (retry : Nat) (fail : Option Nat)
  /-- TRANSPOSE (R252). -/
  | transpose (src : ShuSrc) (retry : Nat) (fail : Option Nat)
  /-- IMM (R256). -/
  | imm (src : ShuSrc) (retry : Nat) (fail : Option Nat)
  /-- COMPLETION_RECORD_WRITE (R263). -/
  | completionRecordWrite (q : CqId)
  /-- LIST_PORT_FETCH (R269). -/
  | listPortFetch (p : Nat) (lp : Nat)
  /-- POD_SHU_LP_PUSH (R269). -/
  | podShuLpPush (p : Nat) (lp : Nat) (v : Word)
  /-- EDG_BSH_GO (R272). -/
  | edgBshGo (e : Nat) (ch : Nat) (v : Word)
  /-- SHADOW_ACTIVATE (R272). -/
  | shadowActivate (e : Nat) (ch : Nat)
  /-- EDG_BSH_STOP (R273). -/
  | edgBshStop (e : Nat) (ch : Nat)
  /-- CQ_HEAD (R275). -/
  | cqHead (q : CqId) (v : Word)
  /-- CQ_ENABLE (R275). -/
  | cqEnable (q : CqId) (v : Word)
  /-- HBM_SCRUB (R238). -/
  | hbmScrub (stack : Nat) (off : Nat) (met : SectorMet)
  /-- PORT_TRAIN_START (R302). -/
  | portTrainStart (p : Nat)
  /-- PMD_TRAIN_DONE (R302). -/
  | pmdTrainDone (p : Nat)
  /-- PCS_LOCK (R302). -/
  | pcsLock (p : Nat)
  /-- TRAIN_STATE_TIMEOUT (R302). -/
  | trainStateTimeout (p : Nat)
  /-- TRAIN_FLIT (R304). -/
  | trainFlit (p : Nat) (f : Flit)
  /-- DATA_FLIT (R289). -/
  | dataFlit (p : Nat) (f : Flit)
  /-- NULL_FLIT (R287). -/
  | nullFlit (p : Nat) (f : Flit)
  /-- KEEPALIVE (R297). -/
  | keepalive (p : Nat) (f : Flit)
  /-- KEEPALIVE_SEND (R297). -/
  | keepaliveSend (p : Nat)
  /-- CREDIT_FLIT_SEND (R286). -/
  | creditFlitSend (p : Nat)
  /-- REPLAY_TIMEOUT (R290). -/
  | replayTimeout (p : Nat)
  /-- SILENCE (R298). -/
  | silence (p : Nat)
  /-- ETH_FRAME (R320). -/
  | ethFrame (p : Nat) (f : EthFrame)
  /-- LNK_RETRAIN (R323). -/
  | lnkRetrain (p : Nat)
  /-- LNK_HOLD_DOWN (R323). -/
  | lnkHoldDown (p : Nat) (hold : Bool)
  /-- MESSAGE_FORWARD (R312). -/
  | messageForward (p : Nat) (vc : Nat)
  /-- WRITE (R309). -/
  | write (p : Nat)
  /-- READ_REQ (R309). -/
  | readReq (p : Nat)
  /-- READ_RESP (R309). -/
  | readResp (p : Nat)
  /-- ATOMIC_ADD (R318). -/
  | atomicAdd (p : Nat)
  /-- ATOMIC_RESP (R309). -/
  | atomicResp (p : Nat)
  /-- WRITE_ACK (R309). -/
  | writeAck (p : Nat)
  /-- COLL_FRAG (R336). -/
  | collFrag (p : Nat)
  /-- HURDLE (R350). -/
  | hurdle (p : Nat)
  /-- MAIL (R296). -/
  | mail (p : Nat)
  /-- MIRROR (R558). -/
  | mirror (p : Nat)
  /-- COLLECTIVE_TRIGGER (R330). -/
  | collectiveTrigger (i : Nat)
  /-- COLLECTIVE_END (R333). -/
  | collectiveEnd (i : Nat)
  /-- EDG_RLY_KICK (R330). -/
  | edgRlyKick (e : Nat) (v : Word)
  /-- EDG_RLY_RELEASE (R345). -/
  | edgRlyRelease (e : Nat) (v : Word)
  /-- TWIN_HELLO_TIMEOUT (R554). -/
  | twinHelloTimeout
  /-- JOG_DIGEST_PASS (R563). -/
  | jogDigestPass (idx : Nat) (group : Nat)
  /-- POWER_SAMPLE (R485). -/
  | powerSample (uw : Nat) (pnc : Nat) (pcore : Nat)
  /-- OP_SLEW_DONE (R457). -/
  | opSlewDone
  /-- FLOOR_LATE (R503). -/
  | floorLate
  /-- LEAVING_DONE (R505). -/
  | leavingDone
  /-- STAGGER_END (R493). -/
  | staggerEnd
  /-- LONG_SLIVER (R504). -/
  | longSliver (c : Nat)
  /-- POD_GATE_OFF (R491). -/
  | podGateOff (p : Nat)
  /-- WAKE_TOKEN_RETURN (R491). -/
  | wakeTokenReturn (die : Nat)
  /-- POD_TURN_ON (R473). -/
  | podTurnOn (p : Nat)
  /-- SOFT_START_DONE (R473). -/
  | softStartDone (p : Nat)
  /-- WAKE_HOLD_N (R577). -/
  | wakeHoldN (level : Bool)
  /-- RAIL_SETPOINT_WINDOW (R461). -/
  | railSetpointWindow (g : Nat) (mv : Nat) (sensor : Nat)
  /-- FAST_DROOP_START (R464). -/
  | fastDroopStart (g : Nat) (sensor : Nat) (mv : Nat)
  /-- FAST_DROOP_END (R464). -/
  | fastDroopEnd (skips : Nat)
  /-- DROOP_FLOOR (R534). -/
  | droopFloor (g : Nat) (sensor : Nat) (mv : Nat)
  /-- PHASE_LOST (R456). -/
  | phaseLost (g : Nat) (ph : Nat)
  /-- RAIL_OVERCURRENT (R455). -/
  | railOvercurrent (g : Nat) (da : Nat)
  /-- POD_OVERCURRENT (R531). -/
  | podOvercurrent (p : Nat) (ma : Nat)
  /-- SLICE_LOST (R470). -/
  | sliceLost (p : Nat)
  /-- POD_DARK (R471). -/
  | podDark (p : Nat)
  /-- CRACK_MEASURE (R467). -/
  | crackMeasure (p : Nat) (bin : Nat) (drop : Nat)
  /-- EDG_RAIL_MINV_RESET (R462). -/
  | edgRailMinvReset (g : Nat)
  /-- INPUT_UV_WARN (R451). -/
  | inputUvWarn (cv : Nat)
  /-- INPUT_UV_RECOVER (R451). -/
  | inputUvRecover (cv : Nat)
  /-- INPUT_TRIP (R451). -/
  | inputTrip (cv : Nat)
  /-- RAIL_BRING_UP (R454). -/
  | railBringUp (cv : Nat)
  /-- SENSOR_READING (R511). -/
  | sensorReading (hs : Nat) (ra : Nat) (rb : Nat) (fa : Bool) (fb : Bool)
  /-- THERMAL_PERIOD (R516). -/
  | thermalPeriod
  /-- COOLANT_STALE (R519). -/
  | coolantStale
  /-- FLOW_FAIL_N (R522). -/
  | flowFailN (level : Bool)
  /-- CRITICAL_TRIP (R524). -/
  | criticalTrip (hs : Nat)
  /-- CONFIG_CHECK (R537). -/
  | configCheck
  /-- PLL_UNLOCK (R27). -/
  | pllUnlock
  /-- PERST_N_ASSERT (R376). -/
  | perstNAssert
  /-- PERST_N_RELEASE (R375). -/
  | perstNRelease
  /-- PCIE_LINK_RESET (R377). -/
  | pcieLinkReset
  /-- D3HOT_ENTRY (R362). -/
  | d3hotEntry
  /-- BAR0_ACCESS (R366). -/
  | bar0Access (off : Nat) (w : Option (List Byte)) (len : Nat)
  /-- BAR2_ACCESS (R371). -/
  | bar2Access (off : Nat) (w : Option (List Byte)) (len : Nat)
  /-- HOST_DMA_FAIL (R364). -/
  | hostDmaFail (a : Nat)
  /-- MSIX_HOLDOFF_END (R374). -/
  | msixHoldoffEnd (vec : Nat)
  /-- BOOT_GO (R420). -/
  | bootGo
  /-- BOOT_ENROL (R428). -/
  | bootEnrol
  /-- SELFTEST_DONE (R423). -/
  | selftestDone (r : SelfTest)
  /-- SELFTEST_WINDOW_EXPIRY (R425). -/
  | selftestWindowExpiry
  /-- I3C_PRIVATE_WRITE (R580). -/
  | i3cPrivateWrite (off : Nat) (data : List Byte)
  /-- I3C_PRIVATE_READ (R580). -/
  | i3cPrivateRead (off : Nat) (len : Nat)
  /-- SETDASA (R579). -/
  | setdasa (addr : Nat)
  /-- ENTDAA (R579). -/
  | entdaa (addr : Nat)
  /-- RSTDAA (R579). -/
  | rstdaa
  /-- SETMWL (R579). -/
  | setmwl (n : Nat)
  /-- IBI_ENABLE (R579). -/
  | ibiEnable
  /-- IBI_DISABLE (R579). -/
  | ibiDisable
  /-- LOSS_OF_BLOCK_LOCK (R278). -/
  | lossOfBlockLock (p : Nat) (lane : Nat)
  /-- POD_SLV_CTRL (R147). -/
  | podSlvCtrl (p : Nat) (v : Word)
  /-- RETURN_TO_D0 (R362). -/
  | returnToD0
  /-- BUS_MASTER_ENABLE (R374). -/
  | busMasterEnable
  /-- BAR2_RESIZE (R371). -/
  | bar2Resize (lg : Nat)
  /-- HBM_TEMPERATURE_READOUT (R513). -/
  | hbmTemperatureReadout (stack : Nat) (t : Nat)
  /-- PREVIOUS_LIMIT_END (R533). -/
  | previousLimitEnd (p : Nat)
  /-- THERM_TRIP_N_CLEAR (R576). -/
  | thermTripNClear (cv : Nat)
  /-- SYNTHETIC_ARRAY_PASS (R495). -/
  | syntheticArrayPass (c : Nat) (arr : Nat) (products : Nat)
  deriving DecidableEq, Repr

end Sys2Proof
end

