-- ==== Sys2Proof/Decode.lean ====
section
/-!
DEFINITION. Decoding: opcode_table.json gives no row any bits (this block takes commands, not instruction
words), so no word spells a command (log 21). The kernel instruction words of R118 to R139 are
decoded in Machine/Kernel.lean, the requests, flits and descriptors by their own rows.
-/
namespace Sys2Proof

/-- The command that a word of `nbits` bits spells: none, for no row of the table has bits. -/
def decodeTableWord (_nbits _w : Nat) : Option Instr := none

end Sys2Proof
end

