-- ==== Sys2Proof/Machine/Bits.lean ====
section
/-!
DEFINITION. Bit fields, byte order, the two CRC-64 forms, CRC-32 and the generator of R67.
-/
namespace Sys2Proof.Machine

/-- R5: bits [hi:lo] of a number. -/
def bits (x hi lo : Nat) : Nat := (x >>> lo) % 2 ^ (hi + 1 - lo)

/-- Bit `i` of a number. -/
def bit (x i : Nat) : Bool := x.testBit i

/-- A truth value as a bit. -/
def b2n (b : Bool) : Nat := if b then 1 else 0

/-- `x` with bits [hi:lo] replaced by `v`. -/
def putBits (x hi lo v : Nat) : Nat :=
  x - (bits x hi lo) <<< lo + (v % 2 ^ (hi + 1 - lo)) <<< lo

/-- R5: the little-endian value of bytes. -/
def leNat : List Byte → Nat
  | [] => 0
  | b :: t => b.toNat + 256 * leNat t

/-- R5: the `n` little-endian bytes of a value. -/
def leBytes : Nat → Nat → List Byte
  | 0, _ => []
  | n + 1, x => BitVec.ofNat 8 x :: leBytes n (x / 256)

/-- The value of bytes, first byte most significant. -/
def beNat (bs : List Byte) : Nat := leNat bs.reverse

/-- `n` bytes, most significant first. -/
def beBytes (n x : Nat) : List Byte := (leBytes n x).reverse

/-- Pads with zero bytes, or cuts, to `n` bytes. -/
def fit (n : Nat) (bs : List Byte) : List Byte := (bs ++ List.replicate (n - bs.length) 0).take n

/-- `n` bytes from offset `off`, zero beyond the end. -/
def sub (bs : List Byte) (off n : Nat) : List Byte := fit n (bs.drop off)

/-- The little-endian field of `n` bytes at offset `off`. -/
def fld (bs : List Byte) (off n : Nat) : Nat := leNat (sub bs off n)

/-- Every byte is 0. -/
def allZero (bs : List Byte) : Bool := bs.all (· == 0)

/-- A signed 8-bit field. -/
def s8 (x : Nat) : Int := if x % 256 < 128 then (x % 256 : Nat) else ((x % 256 : Nat) : Int) - 256

/-- A signed 32-bit field. -/
def s32 (w : Word) : Int := w.toInt

/-- A signed value as `n` bits. -/
def ofInt (n : Nat) (x : Int) : Nat := (x % (2 ^ n : Nat)).toNat

/-- A list with position `i` replaced, extended with `d` where it is shorter. -/
def setAt {α : Type} (d : α) : List α → Nat → α → List α
  | [], 0, v => [v]
  | [], i + 1, v => d :: setAt d [] i v
  | _ :: t, 0, v => v :: t
  | a :: t, i + 1, v => a :: setAt d t i v

/-- Rounds up to a multiple. -/
def ceilDiv (a b : Nat) : Nat := (a + b - 1) / b

/-- R222, R251: the next 64-byte boundary. -/
def align64 (a : Nat) : Nat := ceilDiv a 64 * 64

/-- R205: one byte into CRC-64/ECMA-182, most significant bit first. -/
def crc64Byte (c : Nat) (b : Byte) : Nat :=
  (List.range 8).foldl
    (fun c _ => if bit c 63 then ((c <<< 1) % 2 ^ 64) ^^^ 0x42F0E1EBA9EA3693 else (c <<< 1) % 2 ^ 64)
    (c ^^^ (b.toNat <<< 56))

/-- R205: CRC-64/ECMA-182, initial value 0, no final XOR. -/
def crc64 (bs : List Byte) : Nat := bs.foldl crc64Byte 0

/-- R205: the digest continued over more bytes. -/
def crc64From (c : Nat) (bs : List Byte) : Nat := bs.foldl crc64Byte c

/-- R283, R294: the same polynomial with a given initial value and a final XOR. -/
def crc64Init (init fin : Nat) (bs : List Byte) : Nat := bs.foldl crc64Byte init ^^^ fin

/-- R319: one byte into the reflected CRC-32 of IEEE 802.3 (log 8). -/
def crc32Byte (c : Nat) (b : Byte) : Nat :=
  (List.range 8).foldl (fun c _ => if bit c 0 then (c >>> 1) ^^^ 0xEDB88320 else c >>> 1)
    (c ^^^ b.toNat)

/-- R319: CRC-32 of IEEE 802.3 (log 8). -/
def crc32 (bs : List Byte) : Nat := bs.foldl crc32Byte 0xFFFFFFFF ^^^ 0xFFFFFFFF

/-- R67: one round of Philox4x32 on counter and key words. -/
def philoxRound (c0 c1 c2 c3 k0 k1 : Nat) : Nat × Nat × Nat × Nat :=
  let p0 := 0xD2511F53 * c0
  let p1 := 0xCD9E8D57 * c2
  ((p1 >>> 32) ^^^ c1 ^^^ k0, p1 % 2 ^ 32, (p0 >>> 32) ^^^ c3 ^^^ k1, p0 % 2 ^ 32)

/-- R67: `n` further rounds. -/
def philoxRounds : Nat → Nat × Nat × Nat × Nat → Nat → Nat → Nat × Nat × Nat × Nat
  | 0, c, _, _ => c
  | n + 1, (c0, c1, c2, c3), k0, k1 =>
    philoxRounds n (philoxRound c0 c1 c2 c3 k0 k1) ((k0 + 0x9E3779B9) % 2 ^ 32)
      ((k1 + 0xBB67AE85) % 2 ^ 32)

/-- R67: Philox4x32-10. -/
def philox (c0 c1 c2 c3 k0 k1 : Nat) : Nat × Nat × Nat × Nat :=
  philoxRounds 10 (c0, c1, c2, c3) k0 k1

/-- R68, R69: the random word of element `idx` of a tensor. -/
def randomWord (seed heat tensor purpose stream lap idx : Nat) : Nat :=
  let g := idx / 4
  let r := philox (bits g 31 0) (bits g 39 32 + tensor % 2 ^ 24 * 256) (heat % 2 ^ 32)
    (purpose % 16 + stream % 256 * 16 + lap % 4096 * 4096) (bits seed 31 0) (bits seed 63 32)
  match idx % 4 with
  | 0 => r.1
  | 1 => r.2.1
  | 2 => r.2.2.1
  | _ => r.2.2.2

end Sys2Proof.Machine
end

