-- ==== Sys2Proof/Machine/F32.lean ====
section
/-!
DEFINITION. F32 arithmetic (R40 to R44): exact dyadic values, one rounding to nearest even.
-/
namespace Sys2Proof.Machine

/-- A value of a floating-point format: (−1)^neg · m · 2^e, an infinity, or NaN. -/
inductive FVal where
  | nan
  | inf (neg : Bool)
  | fin (neg : Bool) (m : Nat) (e : Int)
  deriving DecidableEq, Repr

/-- `m / 2^k` rounded to nearest, ties to even. -/
def rneShift (m k : Nat) : Nat :=
  let q := m >>> k
  let r := m - q <<< k
  if 2 * r > 1 <<< k ∨ (2 * r = 1 <<< k ∧ q % 2 = 1 ∧ k ≠ 0) then q + 1 else q

/-- The magnitude code of m · 2^e in a format of `mb` mantissa bits whose smallest subnormal is
2^qmin, rounded to nearest even, the exponent unbounded above. -/
def roundMag (mb : Nat) (qmin : Int) (m : Nat) (e : Int) : Nat :=
  if m = 0 then 0 else
  let q := max ((Nat.log2 m : Int) + e - mb) qmin
  ((q - qmin).toNat <<< mb) + (if q ≤ e then m <<< (e - q).toNat else rneShift m (q - e).toNat)

/-- R42: the canonical NaN of F32. -/
def f32NaN : Word := 0x7FC00000

/-- ±Inf in F32. -/
def f32Inf (neg : Bool) : Word := if neg then 0xFF800000 else 0x7F800000

/-- R43: an exact value rounded once to F32. -/
def FVal.toF32 : FVal → Word
  | .nan => f32NaN
  | .inf n => f32Inf n
  | .fin n m e => BitVec.ofNat 32 (b2n n * 2 ^ 31 + min (roundMag 23 (-149) m e) 0x7F800000)

/-- R40, R41: the value of an F32 pattern. -/
def f32Val (w : Word) : FVal :=
  let x := w.toNat
  let ex := bits x 30 23
  let ma := bits x 22 0
  if ex = 255 then (if ma = 0 then .inf (bit x 31) else .nan)
  else if ex = 0 then .fin (bit x 31) ma (-149)
  else .fin (bit x 31) (ma + 2 ^ 23) ((ex : Int) - 150)

/-- The value is NaN. -/
def FVal.isNaN : FVal → Bool
  | .nan => true
  | _ => false

/-- The value is finite. -/
def FVal.finite : FVal → Bool
  | .fin _ _ _ => true
  | _ => false

/-- The value times 2^k. -/
def FVal.shift (k : Int) : FVal → FVal
  | .fin n m e => .fin n m (e + k)
  | v => v

/-- The value negated. -/
def FVal.neg : FVal → FVal
  | .nan => .nan
  | .inf n => .inf !n
  | .fin n m e => .fin (!n) m e

/-- The magnitude. -/
def FVal.abs : FVal → FVal
  | .nan => .nan
  | .inf _ => .inf false
  | .fin _ m e => .fin false m e

/-- The signed integer of a finite value scaled by 2^−q, for q at most its exponent. -/
def intAt (n : Bool) (m : Nat) (e q : Int) : Int :=
  let a : Int := (m <<< (e - q).toNat : Nat)
  if n then -a else a

/-- R43, R44: the exact sum of two values; an exact zero is +0. -/
def FVal.add : FVal → FVal → FVal
  | .nan, _ => .nan
  | _, .nan => .nan
  | .inf a, .inf b => if a = b then .inf a else .nan
  | .inf a, _ => .inf a
  | _, .inf b => .inf b
  | .fin n m e, .fin n' m' e' =>
    let q := min e e'
    let t := intAt n m e q + intAt n' m' e' q
    .fin (decide (t < 0)) t.natAbs q

/-- R43: the exact product of two values. -/
def FVal.mul : FVal → FVal → FVal
  | .nan, _ => .nan
  | _, .nan => .nan
  | .inf a, .inf b => .inf (a != b)
  | .inf a, .fin b m _ => if m = 0 then .nan else .inf (a != b)
  | .fin a m _, .inf b => if m = 0 then .nan else .inf (a != b)
  | .fin a m e, .fin b m' e' => .fin (a != b) (m * m') (e + e')

/-- The order of two values; none where either is NaN. -/
def FVal.cmp : FVal → FVal → Option Ordering
  | .nan, _ => none
  | _, .nan => none
  | .inf a, .inf b => some (if a = b then .eq else if a then .lt else .gt)
  | .inf a, _ => some (if a then .lt else .gt)
  | _, .inf b => some (if b then .gt else .lt)
  | .fin n m e, .fin n' m' e' =>
    let q := min e e'
    some (compare (intAt n m e q) (intAt n' m' e' q))

/-- R43: F32 addition, rounded to nearest even. -/
def fadd (a b : Word) : Word := ((f32Val a).add (f32Val b)).toF32

/-- R43: F32 subtraction. -/
def fsub (a b : Word) : Word := ((f32Val a).add (f32Val b).neg).toF32

/-- R43: F32 multiplication. -/
def fmul (a b : Word) : Word := ((f32Val a).mul (f32Val b)).toF32

/-- R43: a · b + c rounded once. -/
def ffma (a b c : Word) : Word := (((f32Val a).mul (f32Val b)).add (f32Val c)).toF32

/-- R42: the negation; the canonical NaN for NaN. -/
def fneg (a : Word) : Word := if (f32Val a).isNaN then f32NaN else a ^^^ 0x80000000

/-- R42: the magnitude; the canonical NaN for NaN. -/
def fabs (a : Word) : Word := if (f32Val a).isNaN then f32NaN else a &&& 0x7FFFFFFF

/-- R128: a < b, false where either is NaN. -/
def flt (a b : Word) : Bool := (f32Val a).cmp (f32Val b) = some .lt

/-- R128: a = b as values. -/
def feq (a b : Word) : Bool := (f32Val a).cmp (f32Val b) = some .eq

/-- R128: a ≤ b. -/
def fle (a b : Word) : Bool := flt a b || feq a b

/-- R129: the maximum; NaN where either is NaN; +0 for the pair +0 and −0. -/
def fmax (a b : Word) : Word :=
  match (f32Val a).cmp (f32Val b) with
  | none => f32NaN
  | some .lt => b
  | some .gt => a
  | some .eq => a &&& b

/-- R129: the minimum; NaN where either is NaN; +0 for the pair +0 and −0. -/
def fmin (a b : Word) : Word :=
  match (f32Val a).cmp (f32Val b) with
  | none => f32NaN
  | some .lt => a
  | some .gt => b
  | some .eq => a &&& b

/-- R192: the sign −1, +0 or +1, NaN for NaN. -/
def fsign (a : Word) : Word :=
  match f32Val a with
  | .nan => f32NaN
  | .inf n => if n then 0xBF800000 else 0x3F800000
  | .fin n m _ => if m = 0 then 0 else if n then 0xBF800000 else 0x3F800000

/-- An integer as F32, rounded to nearest even. -/
def f32OfInt (n : Int) : Word := (FVal.fin (decide (n < 0)) n.natAbs 0).toF32

/-- 2^k as F32. -/
def f32Pow2 (k : Int) : Word := (FVal.fin false 1 k).toF32

/-- R131: scale(v, e), one rounding. -/
def fscale (v : Word) (k : Int) : Word := ((f32Val v).shift k).toF32

/-- The pattern is NaN or ±Inf. -/
def nonFinite (w : Word) : Bool := !(f32Val w).finite

/-- R131: decompose: m in [1, 2) as F32, e, for a finite nonzero magnitude. -/
def decompose (w : Word) : Word × Int :=
  match f32Val w with
  | .fin _ m e => ((FVal.fin false m (-(Nat.log2 m : Int))).toF32, e + (Nat.log2 m : Int))
  | _ => (f32NaN, 0)

/-- R130: one level of the tree: neighbours combined. -/
def treeLevel (op : Word → Word → Word) : List Word → List Word
  | a :: b :: t => op a b :: treeLevel op t
  | l => l

/-- R130: the balanced tree over 32 values. -/
def tree32 (op : Word → Word → Word) (l : List Word) : Word :=
  (treeLevel op (treeLevel op (treeLevel op (treeLevel op (treeLevel op l))))).headD 0

end Sys2Proof.Machine
end

