-- ==== Sys2Proof/Machine/State.lean ====
section
/-!
DEFINITION. The state of the LMZ40-A block: plain data, every piece of state that the spec names.
A 32-bit register lives in `State.regs` under its device address (or its BAR0 offset for the
HIF_, HUB_MBX_ and BOOT_ registers); what is not listed there reads as its reset value
(`RegMap.resetAt` in RegMap.lean). A 64-bit register is two of them, low half first.
-/
namespace Sys2Proof.Machine

/-- A table by number: sorted by key when only `Tab.set` builds it. -/
abbrev Tab (α : Type) := List (Nat × α)

/-- Bytes by address; an unlisted address reads 0 (log 2). -/
abbrev Memory := List Host.Cell

/-- Why the machine stops. -/
inductive Fault where
  /-- Raised by every meaning whose operand names a unit that the device does not have (R12 to
  R20, R242, R511): the command could not have come from the device. Safe. -/
  | noSuchUnit
  deriving DecidableEq, Repr

/-- Why a command has no meaning. -/
inductive Refusal where
  /-- A row whose meaning is not written. Safe. -/
  | notModelled (mnemonic : String)
  deriving DecidableEq, Repr

/-- R56: the four trouble indicators. -/
structure Trouble where
  addsat : Bool := false
  bsclamp : Bool := false
  tamax : Bool := false
  naninf : Bool := false
  deriving DecidableEq, Repr

/-- R73, R92: one set of stationary entries (active or on-deck): element codes in the order column,
entry, row; one scale code per column and entry; the format in which they stand (after R100), the
format that the kernel named; the TEXP read at LDS (R122); the trouble carried (R97). -/
structure StatSet where
  valid : Bool := false
  named : Nat := 0
  fmt : Nat := 0
  cols : Nat := 0
  depth : Nat := 0
  elems : List Nat := []
  scales : List Nat := []
  texp : Int := 0
  trouble : Trouble := {}
  deriving DecidableEq, Repr

/-- R76: an accumulator bank, 32 × 32 F32 values (missing entries are +0), the sum of the two
TEXP values that the last pass into it read (R89), and the operand formats in which the passes of its tile
ran (R101, R104). -/
structure Bank where
  acc : List Word := []
  texp : Int := 0
  fmts : List Nat := []
  deriving DecidableEq, Repr

/-- R116, R121, R126: an issued instruction that waits in the queue of its unit: its word, its PC, the values of
its scalar operands (x[rs1] or x[RS], and x[rs2]), its place in the core's issue order, and for a random
vector instruction the counter fields of R132 as it issued (log 136). -/
structure QIns where
  w : Nat
  pc : Word
  x1 : Word
  x2 : Word
  seq : Nat
  rng : List Nat := []
  deriving DecidableEq, Repr

/-- R95: a STREAM that waits at the array head for its first stationary set, with the ARR_CTRL that it reads. -/
structure HeldStream where
  q : QIns
  ctrl : Nat
  deriving DecidableEq, Repr

/-- R94: the token's wavefront, held at the array head: the PC of its STREAM, its bank, its moving row, the
promotion interval, and the moving block: format, scale code, element codes. -/
structure Token where
  pc : Word
  bank : Nat
  row : Nat
  promo : Nat
  fmt : Nat
  scale : Nat
  codes : List Nat
  deriving DecidableEq, Repr

/-- R72 to R97, R116: one matrix array: its sets and banks, the token's wavefront held at the head, the STREAM that
waits for its first set, the queue of issued instructions, oldest first; `ran`: a pass without HANDOFF has
used the active set; `fresh`: the on-deck set was loaded after such a pass (R95, log 11). Its registers are
in `State.regs`. -/
structure Arr where
  active : StatSet := {}
  onDeck : StatSet := {}
  bank0 : Bank := {}
  bank1 : Bank := {}
  tok : Option Token := none
  held : Option HeldStream := none
  queue : List QIns := []
  ran : Bool := false
  fresh : Bool := false
  deriving DecidableEq, Repr

/-- R98, R125, R142: a repeat trap that waits for the restart: the array, the bank (none for QSTORE), the
TROUBLE value, whether no wider format is left (R101), whether a format of the tile was N8 (R104). -/
structure Trap where
  arr : Nat
  bank : Option Nat
  trouble : Nat
  last : Bool
  n8 : Bool
  deriving DecidableEq, Repr

/-- R109 to R155: a core, apart from its registers (`State.regs`) and memories (`State.mem`).
`x` holds x0 to x31 (missing entries read 0). `arrived` holds the last arrival on each hurdle ID
and the completion count of its slot at that moment. `vq` is the vector engine's queue (R116), `seq` the place
of the next queued instruction in the core's issue order (R117). -/
structure Core where
  x : List Word := []
  pc : Word := 0
  v : List Word := []
  masks : List (BitVec 1024) := []
  a0 : Arr := {}
  a1 : Arr := {}
  vq : List QIns := []
  seq : Nat := 0
  snap : List Word := []
  snapPc : Word := 0
  inSliver : Bool := false
  bwd : Bool := false
  repeated : Bool := false
  parked : Bool := false
  trap : Option Trap := none
  retired : DWord := 0
  arrived : List (Nat × Nat) := []
  tookAt : DWord := 0
  longTold : Bool := false
  deriving DecidableEq, Repr

/-- R138: one hurdle slot of a pod or die: the cores that have arrived, the completions so far. -/
structure HSlot where
  arrived : List Nat := []
  done : Nat := 0
  deriving DecidableEq, Repr

/-- R412: one event: code, shade (0 to 3), SOURCE, tick, heat, attempt, 32 DETAIL bytes. -/
structure Event where
  code : Nat
  shade : Nat
  source : Nat
  tick : DWord
  heat : Nat
  attempt : Nat
  detail : List Byte
  deriving DecidableEq, Repr

/-- R405: a fault-log record: the event, and which rings it goes to. -/
structure LogRec where
  ev : Event
  ivory : Bool
  sable : Bool
  deriving DecidableEq, Repr

/-- R409 to R411, R405: the event machinery. Ring 0 is Ivory, ring 1 Sable. The rings' bytes are in
`State.hubMem`; HUB_EVT_TAIL, HEAD and LOST are in `State.regs`. -/
structure Evt where
  seq0 : Nat := 0
  seq1 : Nat := 0
  lost0 : Nat := 0
  lost1 : Nat := 0
  queue : List (World × Event) := []
  filter0 : Nat := 0
  filter1 : Nat := 0
  grey : Nat := 0
  ochre : Nat := 0
  crimson : Nat := 0
  lastCrimson : Nat := 0
  log : List LogRec := []
  logCount : Nat := 0
  deriving DecidableEq, Repr

/-- R530: a fault of the attempt in progress, or the JOB_STOP that voids it (R401). -/
structure VoidFault where
  tick : DWord
  source : Nat
  code : Nat
  cmd : Bool := false
  deriving DecidableEq, Repr

/-- R408: the record of one heat, and the world of its job (R398). -/
structure HeatRec where
  heat : Nat := 0
  world : World := .ivory
  attempts : Nat := 0
  wide : Nat := 0
  committed : Bool := false
  tick : DWord := 0
  fwdPlanned : Nat := 0
  fwdRepeated : Nat := 0
  bwdPlanned : Nat := 0
  bwdRepeated : Nat := 0
  fullSlots : Nat := 0
  anchorSlots : Nat := 0
  resSlots : List Nat := []
  peaks : List Nat := []
  rollbacks : Nat := 0
  restarts : Nat := 0
  causes : List Nat := []
  deriving DecidableEq, Repr

/-- R32 to R37, R103 to R105, R408, R548: heats and attempts. `levelFwd`, `levelBwd`: the wide levels of the attempt in
progress; `wideFwd`, `wideBwd`: those of the next one; `stormFwd`, `stormBwd`: a storm of the attempt. -/
structure Heat where
  num : Nat := 0
  attempt : Nat := 0
  active : Bool := false
  running : Bool := false
  rolling : Bool := false
  left : Nat := 0
  endless : Bool := false
  stopping : Bool := false
  stopNow : Bool := false
  parkAsked : Bool := false
  held : Bool := false
  voids : List VoidFault := []
  ochres : Nat := 0
  unrec : Nat := 0
  causes : List Nat := []
  startTick : DWord := 0
  fwdDone : Bool := false
  bwdDone : Bool := false
  rsDone : Bool := false
  sweepBegun : Bool := false
  sweepDone : Bool := false
  digestDone : Bool := false
  finish : Option DWord := none
  last : Option Nat := none
  lastTick : DWord := 0
  wideFwd : Nat := 0
  wideBwd : Nat := 0
  fwdPlanned : Nat := 0
  fwdRepeated : Nat := 0
  bwdPlanned : Nat := 0
  bwdRepeated : Nat := 0
  fwdN8 : Bool := false
  bwdN8 : Bool := false
  levelFwd : Nat := 0
  levelBwd : Nat := 0
  stormFwd : Bool := false
  stormBwd : Bool := false
  rollbacks : Nat := 0
  restartsAt : Nat := 0
  resSlots : List Nat := []
  peaks : List Nat := []
  recs : List HeatRec := []
  deriving DecidableEq, Repr

/-- R180 to R183: closed laps per gate, forward closes, the gradient path's progress (indices of
the home-list entries read; chunks of each shard ready). `readBegun` and GATE_FAULT are in
`State.regs`. -/
structure Gates where
  closed : Tab (List Nat) := []
  fwd : List Nat := []
  homesRead : List Nat := []
  deriving DecidableEq, Repr

/-- R390, R391: a deferred command: mailbox and position of its last request, its opcode, payload, tags, how many
requests it merges and from which mailboxes, whether its action has begun. -/
structure Deferred where
  mbx : Nat
  pos : Nat
  op : Nat
  tag : Nat
  firstTag : Nat
  merged : Nat
  boxes : List Nat
  payload : List Byte
  begun : Bool := false
  deriving DecidableEq, Repr

/-- R413: a journal record: mailbox, position, TAG, OPCODE, and the result once it is known. -/
structure JRec where
  mbx : Nat
  pos : Nat
  tag : Nat
  op : Nat
  result : Option (List Byte) := none
  deriving DecidableEq, Repr

/-- R215, R402: an object. -/
structure Obj where
  flags : Nat
  world : World
  addr : Nat
  size : Nat
  deriving DecidableEq, Repr

/-- R378 to R415: the firmware's command state. `bells` holds, per mailbox, the accepted doorbell
values with their ticks; the ring bytes are in `State.hubMem`, the page registers in `State.regs`. -/
structure Hub where
  bells : Tab (List (Nat × DWord)) := []
  deferred : List Deferred := []
  journal : List JRec := []
  objs : Tab Obj := []
  gens : Tab Nat := []
  trayTail : Nat := 0
  trayHead : Nat := 0
  trayWait : List (List Byte) := []
  deriving DecidableEq, Repr

/-- R361 to R377: the PCI Express function: BAR2 size (log2), Bus Master Enable, D3hot, link, MSI-X table
words (4 per vector), pending bits, the tick of the last message of each vector, vectors that wait
for the end of a holdoff window, the messages sent so far, the last completion of a host read
(none: it completed without data), whether an access was refused since HIF_FAULT was clear (R370). -/
structure HostIf where
  bar2lg : Nat := 30
  bme : Bool := false
  d3hot : Bool := false
  linkUp : Bool := true
  msix : Tab Word := []
  pba : List Nat := []
  lastSent : Tab DWord := []
  waiting : List Nat := []
  sent : List Nat := []
  lastRead : Option (List Byte) := none
  faultHeld : Bool := false
  deriving DecidableEq, Repr

/-- R15 to R19: a pod beside its registers: went dark after self-test; retired after a twin mismatch; ring positions at or above
POD_SLV_HEAD already taken (R147); done bits set (R148); hurdle slots 0 to 15 (R138). -/
structure Pod where
  dark : Bool := false
  retired : Bool := false
  taken : List Nat := []
  done : List Nat := []
  hurdles : Tab HSlot := []
  deriving DecidableEq, Repr

/-- R401, R407, R556: the loaded job: its world, its 256-byte descriptor, its baton map, its scale-book
copies on the dies (R139: TEXP and ERR_SCALE of the first 65,536 entries, loaded at heat start). -/
structure Job where
  loaded : Bool := false
  world : World := .ivory
  desc : List Byte := []
  batonTable : Nat := 0
  batonCount : Nat := 0
  book : Tab (Int × Word) := []
  deriving DecidableEq, Repr

/-- R443 to R445: which assignable blocks the committed start list makes Sable: pods (of 384), compute
dies, ports, bulk channels (8·e + ch), relay engines, edge dies, reservoir dies. -/
structure Worlds where
  pods : List Nat := []
  dies : List Nat := []
  ports : List Nat := []
  chans : List Nat := []
  relays : List Nat := []
  edges : List Nat := []
  rvs : List Nat := []
  deriving DecidableEq, Repr

/-- R215, R225, R228: an entry of the reservoir pool: its units (of 64 KiB), its client, its allocation flags, its age (the
tick at which its fill completed; none while it fills), and for a prefetch entry its table index and
the HBM range that it copies; `gone`: released, its units held until the fill ends. -/
structure PoolEnt where
  id : Nat
  client : Nat
  us : List Nat
  flags : Nat
  age : Option DWord
  tag : Nat := 0
  src : Nat := 0
  len : Nat := 0
  gone : Bool := false
  deriving DecidableEq, Repr

/-- R227, R228: a request that waits for the pool controller: its client, the source ID, the units asked for (for SCRATCH
the units themselves), its tick, and what it is for: the table entry, the stash slot, the collective or the tag. -/
structure PoolReq where
  client : Nat
  source : Nat
  n : Nat
  us : List Nat := []
  key : Nat := 0
  tick : DWord
  deriving DecidableEq, Repr

/-- R225 to R233: the reservoir pool and the prefetch schedule: entries, requests not yet decided, units of TIER_NEAR
objects, table entries already issued in the attempt, the highest mark of each phase, the PHASE of the latest. -/
structure Pool where
  ents : List PoolEnt := []
  reqs : List PoolReq := []
  nextId : Nat := 0
  near : List Nat := []
  issued : List Nat := []
  mark0 : Option Nat := none
  mark1 : Option Nat := none
  lastMark : Nat := 0
  deriving DecidableEq, Repr

/-- R173 to R177: a stash slot: FULL or ANCHOR, released, the units that hold it (device addresses), and
the pool entry when it lies in the reservoir. -/
structure Slot where
  full : Bool
  released : Bool := false
  units : List Nat := []
  ent : Option Nat := none
  deriving DecidableEq, Repr

/-- R171 to R179: the stash of the attempt: slots by lap · 4,096 + layer, the laps walked, the walk's
held and anchor charges (64 KiB units), the present and the peak charge, the charge in the
reservoir, the counts of R179. -/
structure Stash where
  slots : Tab Slot := []
  walked : Nat := 0
  held : Nat := 0
  anchors : Nat := 0
  charge : Nat := 0
  peak : Nat := 0
  resCharge : Nat := 0
  fullSlots : Nat := 0
  anchorSlots : Nat := 0
  resSlots : Nat := 0
  told : Bool := false
  deriving DecidableEq, Repr

/-- R190 to R204: a sweep unit: the shard it sweeps, the shards and baton entries (indices of R206) it has
finished in the attempt, the SHARD field of each undo slot it has written (0xFFFF: the scale book), its STATE before a
pause (R203). Its registers are in `State.regs`. -/
structure SwpUnit where
  cur : Option Nat := none
  finished : List Nat := []
  slots : List Nat := []
  before : Nat := 0
  deriving DecidableEq, Repr

/-- R190, R342: the sweep of the attempt: the parameter sets latched, TEXP and ERR_SCALE of the entries as
fixed, shards whose reduced gradient is present, the units, whether unit 0 has written the scale
book, groups whose amax reduction is complete and what this device gave each (R340), the digest of the block group in progress of an
index, digest records written and not yet sent (index, group). -/
structure Sweep where
  params : List Byte := []
  texps : Tab Int := []
  errs : Tab Word := []
  present : List Nat := []
  units : Tab SwpUnit := []
  bookDone : Bool := false
  amaxDone : List Nat := []
  amaxOut : List (Nat × Nat × List (Nat × Nat)) := []
  crcs : Tab Nat := []
  made : List (Nat × Nat) := []
  deriving DecidableEq, Repr

/-- R244, R262: a descriptor that a shuttle has accepted: its 64 bytes, the core whose local map it uses, its
ticket, the attempt it carries; for a bulk channel, the status of the checks that GO made (R272: 0 where they
passed). -/
structure Desc where
  bytes : List Byte
  core : Option Nat := none
  verdict : Option Nat := none
  ticket : Nat
  noheat : Bool
  heat : Nat
  attempt : Nat
  deriving DecidableEq, Repr

/-- R242, R265 to R273: a source of descriptors: SHQ descriptors not yet accepted (ticket, bytes), the
active descriptor, a list port's heads and the next descriptor of its running list, a bulk channel's
armed shadow with the status of GO's checks of it (R272), and a core's SHQ descriptors in issue order with "record written". -/
structure ShSrc where
  waiting : List (Nat × List Byte) := []
  active : Option Desc := none
  heads : List Nat := []
  cur : Option Nat := none
  armed : Option (List Byte) := none
  verdict : Nat := 0
  issued : List (Nat × Bool) := []
  deriving DecidableEq, Repr

/-- R262, R263, R266: a record of a completion queue that has not been written yet, in acceptance order:
its descriptor's fields, the outcome once it is known (status, retries, bytes), held by a full queue. -/
structure RecSlot where
  src : Nat
  source : Nat
  ticket : Nat
  tag : Nat
  barrier : Bool
  noheat : Bool
  heat : Nat
  attempt : Nat
  done : Option (Nat × Nat × Nat) := none
  held : Bool := false
  deriving DecidableEq, Repr

/-- R288 to R302: a port beside its registers: the tick of its last state change; the TRAIN exchange; the
replay buffer (SEQ, VC, message), SEQ and E, NAK, the last ACK received, the tick of its last
advance, replays without one; DATA flits since the last counts; credits returned, reported and
held, the peer's last counts; messages received and not yet executed (VC, 224 bytes), messages
waiting to be sent; the last valid keepalive: its tick, TX_STAMP, local time, payload; own RX_OK; the ACK of the NAK
that the last replay answered (R290); the last multiple of 100 T-ticks for which a keepalive has left (R297); flits that
leave with the next frame (R320); the SEQ that a stomped flit keeps open, its input port and VC (R314); by SRC_ID of a relay engine the
collective whose fragment left last (R332). -/
structure Port where
  since : DWord := 0
  train : List Byte := []
  same : Nat := 0
  peerOk : Bool := false
  seq : Nat := 0
  replay : List (Nat × Nat × List Byte) := []
  expect : Nat := 0
  nak : Bool := false
  ackGot : Nat := 4095
  lastAdv : DWord := 0
  tries : Nat := 0
  sinceCounts : Nat := 0
  ret : List Nat := [0, 0, 0, 0]
  told : List Nat := [0, 0, 0, 0]
  credit : List Nat := [0, 0, 0, 0]
  peerCnt : List Nat := [0, 0, 0, 0]
  inq : List (Nat × List Byte) := []
  outq : List (Nat × List Byte) := []
  lastKeep : DWord := 0
  echoTx : Nat := 0
  echoRx : Nat := 0
  keep : List Byte := []
  rxOk : Bool := false
  nakAt : Option Nat := none
  keepNo : Nat := 0
  tx : List (List Byte) := []
  hole : Option (Nat × Nat × Nat) := none
  turn : Tab Nat := []
  deriving DecidableEq, Repr

/-- R300, R301: the timebase's lock: locked once, stepped once, keepalives in a row within 7 X-cycles, locked; X-cycles
still to slew, the tick of the last slewed tick, the X-cycles of the present tick. -/
structure TimeLock where
  ever : Bool := false
  stepped : Bool := false
  run : Nat := 0
  locked : Bool := false
  want : Int := 0
  slewAt : DWord := 0
  len : Nat := 14
  deriving DecidableEq, Repr

/-- R350: a round received at a hurdle entry: epoch, round, LATEST tick and node. -/
structure HrdRound where
  epoch : Nat
  round : Nat
  tick : DWord
  node : Nat
  deriving DecidableEq, Repr

/-- R348 to R355: a hurdle entry: EPOCH, local arrivals in it, arrival tick, rounds sent, LATEST known, rounds
received for this epoch and the next, VOID origins seen; A, LATEST, node and tick of the last
completion. -/
structure Hrd where
  epoch : Nat := 0
  count : Nat := 0
  arrive : Option DWord := none
  sent : Nat := 0
  latest : DWord := 0
  node : Nat := 0
  got : List HrdRound := []
  origins : List Nat := []
  lastA : DWord := 0
  lastLatest : DWord := 0
  lastNode : Nat := 0
  doneTick : DWord := 0
  doneCount : Nat := 0
  lastRound : Nat := 0
  deriving DecidableEq, Repr

/-- R330 to R347: a collective of the attempt (or an IDLE one): triggered, ended; blocks landed (stage, chunk,
block or byte offset); column partials of a torus (chunk, block, scale, codes); fragments that wait
for the trigger or the pool (Sable, data area); KV steps landed and READY steps received; its pool grant
and base; PERMUTE: stage, bytes landed in staging (rank, offset, length); bytes landed. -/
structure Coll where
  opened : Bool := false
  ended : Bool := false
  got : List (Nat × Nat × Nat) := []
  column : List (Nat × Nat × Nat × List Nat) := []
  held : List (Bool × List Byte) := []
  step : Nat := 0
  sentStep : Nat := 0
  ready : List Nat := []
  ent : Option Nat := none
  base : Nat := 0
  stage : Nat := 0
  pieces : List (Nat × Nat × Nat) := []
  deriving DecidableEq, Repr

/-- R325 to R360: the relay engines beside their registers: hurdle entries, collectives by table index, the
latest entry completed and its tick (R351), the internal PERMUTE hurdle. -/
structure Relay where
  hrds : Tab Hrd := []
  colls : Tab Coll := []
  lastEntry : Nat := 0
  lastTick : DWord := 0
  deriving DecidableEq, Repr

/-- R562: a digest received from a partner: its node and the fields of the slot. -/
structure Digest where
  node : Nat
  tensor : Nat
  first : Nat
  group : Nat
  heat : Nat
  attempt : Nat
  round : Nat
  blocks : Nat
  crc : Nat
  deriving DecidableEq, Repr

/-- R562, R564: this device's own digest of a group in a round of the attempt. -/
structure DigRec where
  idx : Nat
  group : Nat
  round : Nat
  blocks : Nat
  crc : Nat
  deriving DecidableEq, Repr

/-- R549, R563, R565, R569: why a group is pulled. -/
inductive PullFor where
  | settle
  | rot
  | restore
  | lost
  deriving DecidableEq, Repr

/-- R566: a pull of this device: the group it is for, the partner, the fields of the slot, checks failed so
far, sent or not, the SEAL parts received, the CRC that the image has to match. -/
structure Pull where
  why : PullFor
  idx : Nat
  group : Nat
  node : Nat
  kind : Nat
  heat : Nat
  attempt : Nat
  tries : Nat := 0
  sent : Bool := false
  seals : List (Nat × List Byte) := []
  expect : Option Nat := none
  deriving DecidableEq, Repr

/-- R566: a pull that this device serves: the requester, its slot's payload, MTAGs not yet acknowledged, the
digest of the image. -/
structure Serve where
  node : Nat
  slot : List Byte
  tags : List Nat
  digest : List Byte
  deriving DecidableEq, Repr

/-- R569: a BATON_RESTORE in progress or done: its heat, its status once known. -/
structure Restore where
  heat : Nat
  status : Option Nat := none
  deriving DecidableEq, Repr

/-- R552 to R569: the twin: indices whose state is lost and addresses of sectors that could not be read in the attempt
(R202, R237); the TWIN TLV; FEED_TAG and TRAY_ID of TRAY_IDENT; PAIRING, the tick of a hello
that waits for its exchange; what the twin reported; digests received and own ones of the attempt, groups
recomputed, baton groups whose records are to come again (index, group, next block), groups settled by
a pull; retired units, and whether the job stops at the commit for one; pulls; MTAG and TAG of the next
message and slot; the host buffer, the stream in progress (heat, next section); indices and the book
restored at a heat; the baton's heat. -/
structure Twin where
  given : Bool := false
  node : Nat := 0
  paired : Bool := false
  ownFeed : Nat := 0
  twinFeed : Nat := 0
  twinTray : Nat := 0
  tray : Option (Nat × Nat) := none
  pairing : Nat := 0
  helloAt : Option DWord := none
  peer : Option (Nat × Nat) := none
  rx : List Digest := []
  recs : List DigRec := []
  redo : List (Nat × Nat) := []
  again : List (Nat × Nat × Nat) := []
  settled : List (Nat × Nat) := []
  retired : List Nat := []
  stopAsked : Bool := false
  pulls : List Pull := []
  serves : List Serve := []
  mtag : Nat := 0
  tag : Nat := 0
  hostBuf : Option (Nat × Nat) := none
  stream : Option (Nat × Nat) := none
  restored : List (Nat × Nat) := []
  restore : Option Restore := none
  batonHeat : Nat := 0
  lost : List Nat := []
  lostAt : List Nat := []
  deriving DecidableEq, Repr

/-- R507, R508: the energy ledger of a heat: µJ per phase of R32, of jog and suspend; of voided attempts and
of wide ones; array counters of the heat; the highest sample; samples booked. -/
structure Ledger where
  heat : Nat := 0
  world : World := .ivory
  attempts : Nat := 0
  committed : Bool := false
  wide : Nat := 0
  lines : List Nat := [0, 0, 0, 0, 0, 0]
  jog : Nat := 0
  suspend : Nat := 0
  voided : Nat := 0
  wideE : Nat := 0
  products : Nat := 0
  zeroGated : Nat := 0
  idleSlots : Nat := 0
  peak : Nat := 0
  samples : Nat := 0
  deriving DecidableEq, Repr

/-- R477 to R507: the power controller beside its registers. Energies and powers are in µJ and µW. Budget B
and ceiling C in W; a budget (W, BUDGET_ID) or ceiling that waits for its boundary, the tick at which
the last budget took effect, the budget that has not settled; the path (none: it restarts from the measured draw) and what it aims for; the samples, newest first;
whether something of R486 lowered the draw; the end of the stagger delay; the backstop demand and the
good samples behind it; samples since the last CAP_SHORT event; ROT; holds of the floor by the thermal
loop and the coolant level, the automatic level of R483 (0 run, 1 floor, 2 park); the cause and tick of
the transition in progress, FLOOR_LATE told; the OP to which the rails slew and whether upward; spent
wake tokens per die; turn-ons that wait for a token; the highest sample of the attempt; what a sample
is booked to (heat, phase line, suspend, wide), the jog level commanded for it, µJ of the attempt; the ledgers of
past heats and of the heat in progress with the counters at its start; µJ of jog passes. -/
structure Pwr where
  budget : Nat := 0
  ceiling : Nat := 0
  nextBudget : Option (Nat × Nat) := none
  budgetTick : Option DWord := none
  settling : Option Nat := none
  nextCeil : Option Nat := none
  ceilWait : Bool := false
  path : Option Nat := none
  want : Nat := 0
  samples : List Nat := []
  exempt : Bool := false
  stagger : Option DWord := none
  back : Nat := 0
  backGood : Nat := 0
  capQuiet : Nat := 16
  breach : Bool := false
  rot : Nat := 0
  thermHold : Bool := false
  coolHold : Bool := false
  auto : Nat := 0
  cause : Nat := 0
  since : DWord := 0
  late : Bool := false
  slew : Option (Nat × Bool) := none
  tokens : Tab (List DWord) := []
  tokenWait : List Nat := []
  top : Nat := 0
  bookHeat : Option Nat := none
  bookLine : Nat := 0
  bookSuspend : Bool := false
  bookWide : Bool := false
  jogW : Nat := 0
  attE : Nat := 0
  cur : Ledger := {}
  past : List Ledger := []
  startCnt : Nat × Nat × Nat := (0, 0, 0)
  jogProd : Nat := 0
  deriving DecidableEq, Repr

/-- R450 to R473, R533: rails and pods: lost phases (32·group + phase); lost slices per pod; the fast droop in
progress (its group); stamps of VCORE below-floor events; cracks counted per pod and bin; pods with a
previous limit (mA, tick); per group the lowest reading of the last window of R461 and its end. -/
structure Rails where
  lost : List Nat := []
  slices : Tab Nat := []
  droop : Option Nat := none
  floors : List DWord := []
  cracks : Tab Nat := []
  prev : Tab (Nat × DWord) := []
  wins : Tab (Nat × DWord) := []
  deriving DecidableEq, Repr

/-- R511 to R524: a hotspot's sensor pair: readings (0.1 °C) and whether there is one, failures, flag, the tick
since which the two disagree, readings in a row at or above 110.0 °C, readings with their ticks over
the last 250 µs and one before. -/
structure Hot where
  a : Nat := 0
  b : Nat := 0
  read : Bool := false
  failA : Bool := false
  failB : Bool := false
  flagged : Bool := false
  since : Option DWord := none
  tripA : Nat := 0
  tripB : Nat := 0
  hist : List (DWord × Nat × Nat) := []
  deriving DecidableEq, Repr

/-- R511 to R523: the thermal controller beside its registers: hotspots, HBM readouts, the counts of periods
in a row in the bands (warm, cool, at THROTTLE with demand OP4, cool while the floor is held), the last
report and step of the derate level, the tick from which every report lay below the level, the inlet excursion
told, FLOW_FAIL_N low since, FLOW_MIN of the SAFETY TLV, the tick of the last period. -/
structure Thm where
  hots : Tab Hot := []
  hbm : Tab Nat := []
  warm : Nat := 0
  cool : Nat := 0
  hot40 : Nat := 0
  cool200 : Nat := 0
  report : Option DWord := none
  stepTick : Option DWord := none
  below : Option DWord := none
  inletTold : Bool := false
  flowLow : Option DWord := none
  flowMin : Nat := 1500
  period : Option DWord := none
  deriving DecidableEq, Repr

/-- R574 to R577: the module: powered; PERST_N low; PWR_GOOD; THERM_TRIP_N low (the latch of R576); an
undervoltage warning; WAKE_HOLD_N low. -/
structure Pins where
  powered : Bool := true
  perst : Bool := false
  pwrGood : Bool := true
  tripped : Bool := false
  uvWarn : Bool := false
  wakeHold : Bool := false
  deriving DecidableEq, Repr

/-- R579 to R582: the I3C target: dynamic address, maximum write length, In-Band Interrupts enabled, data bytes
that are due, data bytes sent, the ticks of the last 0x01 and 0x03, the answer to the last read. -/
structure I3c where
  dyn : Option Nat := none
  mwl : Option Nat := none
  ibi : Bool := false
  due : List Nat := []
  sent : List Nat := []
  last1 : Option DWord := none
  last3 : Option DWord := none
  answer : Option (List Byte) := none
  deriving DecidableEq, Repr

/-- R238, R240: the scrubber: per stack the offset of the next sector; the sectors corrected in the pass, with their
rows. -/
structure ScrubPass where
  next : Tab Nat := []
  hits : List (RowId × Nat) := []
  deriving DecidableEq, Repr

/-- R416 to R441: what power-up leaves: SHA-512 of the running image, the identity seed, the tick at which
HIF_STATE became 3, self-test begun with its hand-back list, the staged start list, the committed image as
HA and as HB keep it. -/
structure Boot where
  fwDigest : List Byte := []
  seed : Option (List Byte) := none
  t3 : DWord := 0
  testing : Bool := false
  handback : List RetEntry := []
  staged : Option (List Byte) := none
  imageA : List Byte := []
  imageB : List Byte := []
  deriving DecidableEq, Repr

/-- The whole state of the block. -/
structure State where
  pending : List Instr := []
  now : DWord := 0
  mem : Memory := []
  soft : List Nat := []
  badEcc : List Nat := []
  hubMem : Memory := []
  hostMem : Memory := []
  regs : Tab Word := []
  latch : Tab Word := []
  free : Nat := 0
  cores : Tab Core := []
  pods : Tab Pod := []
  dieHurdles : Tab HSlot := []
  evt : Evt := {}
  heat : Heat := {}
  job : Job := {}
  gates : Gates := {}
  hub : Hub := {}
  host : HostIf := {}
  coreMap : Tab Word := []
  worlds : Worlds := {}
  regions : List Byte := []
  retired : List RetEntry := []
  pinRate : Nat := 96
  pool : Pool := {}
  stash : Stash := {}
  sweep : Sweep := {}
  drills : Tab (List Byte) := []
  shu : Tab ShSrc := []
  cqs : Tab (List RecSlot) := []
  ticket : Nat := 0
  committed : Bool := false
  ports : Tab Port := []
  wire : List (Nat × List Byte) := []
  time : TimeLock := {}
  relay : Relay := {}
  digest : List Byte := []
  twin : Twin := {}
  pwr : Pwr := {}
  rails : Rails := {}
  thm : Thm := {}
  pins : Pins := {}
  i3c : I3c := {}
  scrub : ScrubPass := {}
  boot : Boot := {}
  deriving DecidableEq, Repr

/-- The machine right after reset (R11): every register at its map's reset value, memory with nothing
listed, no command waiting. -/
def State.reset : State := {}

end Sys2Proof.Machine
end

