-- ==== Sys2Proof/Machine/Formats.lean ====
section
/-!
DEFINITION. The element formats, block scales and conversions of R38 to R57, and R65.
A format is its 4-bit code of R38.
-/
namespace Sys2Proof.Machine

/-- R38: the code names a format. -/
def fmtOk (f : Nat) : Bool := decide (1 ≤ f ∧ f ≤ 7)

/-- R38, R77: the code names a narrow format. -/
def narrow (f : Nat) : Bool := decide (2 ≤ f ∧ f ≤ 6)

/-- R38: element width in bits. -/
def fmtWidth (f : Nat) : Nat :=
  match f with
  | 1 => 16
  | 2 => 8
  | 3 => 8
  | 4 => 6
  | 5 => 6
  | 6 => 4
  | 7 => 32
  | _ => 0

/-- R41: mantissa bits. -/
def fmtM (f : Nat) : Nat :=
  match f with
  | 1 => 7
  | 2 => 3
  | 3 => 2
  | 4 => 2
  | 5 => 3
  | 6 => 1
  | 7 => 23
  | _ => 0

/-- R41: exponent bits. -/
def fmtE (f : Nat) : Nat := fmtWidth f - 1 - fmtM f

/-- R41: bias. -/
def fmtBias (f : Nat) : Int :=
  match f with
  | 1 => 127
  | 2 => 7
  | 3 => 15
  | 4 => 3
  | 5 => 1
  | 6 => 1
  | 7 => 127
  | _ => 0

/-- R85: the exponent of the smallest subnormal. -/
def fmtG (f : Nat) : Int := 1 - fmtBias f - (fmtM f : Int)

/-- R85: magnitude bits of the integer form. -/
def fmtBits (f : Nat) : Nat :=
  match f with
  | 2 => 18
  | 3 => 32
  | 4 => 9
  | 5 => 6
  | 6 => 4
  | _ => 0

/-- R41: the code of the largest finite magnitude. -/
def fmtMaxCode (f : Nat) : Nat :=
  match f with
  | 1 => 0x7F7F
  | 2 => 0x7E
  | 3 => 0x7B
  | 4 => 0x1F
  | 5 => 0x1F
  | 6 => 0x7
  | _ => 0x7F7FFFFF

/-- R42: the canonical NaN code, 0 where the format has none (R53). -/
def fmtNaN (f : Nat) : Nat :=
  match f with
  | 1 => 0x7FC0
  | 2 => 0x7F
  | 3 => 0x7F
  | 7 => 0x7FC00000
  | _ => 0

/-- R40, R41: the value of an element code. -/
def decodeElem (f c : Nat) : FVal :=
  let s := bit c (fmtWidth f - 1)
  let mag := c % 2 ^ (fmtWidth f - 1)
  let ex := mag >>> fmtM f
  let ma := mag % 2 ^ fmtM f
  if (f = 1 ∨ f = 3 ∨ f = 7) ∧ ex = 2 ^ fmtE f - 1 then (if ma = 0 then .inf s else .nan)
  else if f = 2 ∧ mag = 0x7F then .nan
  else if ex = 0 then .fin s ma (fmtG f)
  else .fin s (ma + 2 ^ fmtM f) (fmtG f + (ex : Int) - 1)

/-- R41: the largest finite value. -/
def fmtMax (f : Nat) : FVal := decodeElem f (fmtMaxCode f)

/-- R53: encode_rne for a narrow format. -/
def encodeRne (f : Nat) : FVal → Nat
  | .nan => fmtNaN f
  | .inf n => b2n n * 2 ^ (fmtWidth f - 1) + fmtMaxCode f
  | .fin n m e =>
    b2n n * 2 ^ (fmtWidth f - 1) + min (roundMag (fmtM f) (fmtG f) m e) (fmtMaxCode f)

/-- R54: F32 value to W16, rounded to nearest even; the flag is NANINF (log 14). -/
def toW16 : FVal → Nat × Bool
  | .nan => (0x7FC0, true)
  | .inf n => (b2n n * 0x8000 + 0x7F80, true)
  | .fin n m e =>
    let r := roundMag 7 (-133) m e
    (b2n n * 0x8000 + min r 0x7F80, decide (0x7F80 ≤ r))

/-- R54: W16 to F32 appends 16 zero bits. -/
def w16ToF32 (c : Nat) : Word := BitVec.ofNat 32 (c % 2 ^ 16 * 2 ^ 16)

/-- R65: stochastic rounding to W16. -/
def roundSr (v : Word) (r : Nat) : Nat :=
  match f32Val v with
  | .nan => 0x7FC0
  | .inf _ => v.toNat >>> 16
  | .fin _ _ _ => ((v.toNat + r % 2 ^ 16) >>> 16) % 2 ^ 16

/-- R51: the smallest xk with a · 2^−xk ≤ fmt.max, for a nonzero magnitude m · 2^e. -/
def scaleExp (f m : Nat) (e : Int) : Int :=
  match fmtMax f with
  | .fin _ mm me =>
    let k := ((Nat.log2 m : Int) + e) - ((Nat.log2 mm : Int) + me)
    match (FVal.fin false m (e - k)).cmp (.fin false mm me) with
    | some .gt => k + 1
    | _ => k
  | _ => 0

/-- The larger of two finite magnitudes. -/
def magMax (a b : FVal) : FVal := if a.cmp b = some .lt then b else a

/-- R51: a quantised block: its scale code, its 32 element codes, the indicators raised. -/
structure QBlock where
  scale : Nat
  codes : List Nat
  trouble : Trouble
  deriving DecidableEq, Repr

/-- The union of two sets of indicators. -/
def Trouble.or (a b : Trouble) : Trouble :=
  { addsat := a.addsat || b.addsat, bsclamp := a.bsclamp || b.bsclamp,
    tamax := a.tamax || b.tamax, naninf := a.naninf || b.naninf }

/-- R56: some indicator is raised. -/
def Trouble.any (a : Trouble) : Bool := a.addsat || a.bsclamp || a.tamax || a.naninf

/-- R56: the TROUBLE encoding. -/
def Trouble.code (a : Trouble) : Nat :=
  b2n a.addsat + 2 * b2n a.bsclamp + 4 * b2n a.tamax + 8 * b2n a.naninf

/-- R56: the indicators of a TROUBLE field. -/
def Trouble.ofCode (c : Nat) : Trouble :=
  { addsat := bit c 0, bsclamp := bit c 1, tamax := bit c 2, naninf := bit c 3 }

/-- R51: quantise_block; `headroom` none skips the TAMAX test (R191, R194). -/
def quantiseBlock (f : Nat) (texp : Int) (headroom : Option Nat) (xs : List FVal) : QBlock :=
  let tamax := match headroom with
    | none => false
    | some h => xs.any fun x => x.finite &&
        decide (x.abs.cmp (.fin false 1 (texp + (h : Int))) = some .gt)
  let a := (xs.filter FVal.finite).foldl (fun a x => magMax a x.abs) (.fin false 0 0)
  let xk : Int := match a with
    | .fin _ m e => if m = 0 then 0 else scaleExp f m (e - texp)
    | _ => 0
  let k := max (min xk 127) (-127)
  { scale := (k + 127).toNat
    codes := xs.map fun x => encodeRne f (x.shift (-(texp + k)))
    trouble := { naninf := xs.any fun x => !x.finite, tamax := tamax, bsclamp := decide (127 < xk) } }

/-- R47, R55: an element code with its block scale code and TEXP, as F32; the flag is NANINF. A W16 NaN becomes the
canonical NaN of F32: R42 ("never propagates a NaN payload or a NaN sign") before the appended bits of R54
(DEDUCED, log 137). -/
def decodeF32 (f c scale : Nat) (texp : Int) : Word × Bool :=
  if f = 1 then (if (decodeElem 1 c).isNaN then f32NaN else w16ToF32 c, !(decodeElem 1 c).finite)
  else if f = 7 then (BitVec.ofNat 32 c, nonFinite (BitVec.ofNat 32 c))
  else if scale = 0xFF then (f32NaN, true)
  else
    let w := ((decodeElem f c).shift ((scale : Int) - 127 + texp)).toF32
    (w, nonFinite w)

/-- R48: the bytes of one block of elements. -/
def packCodes (w : Nat) (codes : List Nat) : List Byte :=
  leBytes (4 * w) (codes.foldr (fun c acc => acc * 2 ^ w + c % 2 ^ w) 0)

/-- R48: the 32 codes of a block from its bytes. -/
def unpackCodes (w : Nat) (bs : List Byte) : List Nat :=
  let x := leNat bs
  (List.range 32).map fun j => (x >>> (w * j)) % 2 ^ w

/-- R48: bytes of one block of a format. -/
def blockBytes (f : Nat) : Nat := 4 * fmtWidth f

/-- R99: one step of the ladder. -/
def ladder (f : Nat) : Nat :=
  match f with
  | 6 => 5
  | 5 => 2
  | 4 => 2
  | 2 => 1
  | 3 => 1
  | f => f

/-- R99: one step of the ladder for a pair; if one reaches W16, both do. -/
def ladderPair (p : Nat × Nat) : Nat × Nat :=
  let a := ladder p.1
  let b := ladder p.2
  if a = 1 ∨ b = 1 then (1, 1) else (a, b)

/-- R104: the format that a wide level puts in place of a narrow one. -/
def wideFmt (level f : Nat) : Nat :=
  if level = 0 ∨ !narrow f then f
  else if level = 1 then (if f = 3 then 3 else 2)
  else 1

/-- R142: `n` steps above the wide level for an operand pair. -/
def effPair (level n a b : Nat) : Nat × Nat :=
  let w := (wideFmt level a, wideFmt level b)
  Nat.repeat ladderPair n (if w.1 = 1 ∨ w.2 = 1 then (1, 1) else w)

/-- R142: `n` steps above the wide level for a destination format. -/
def effFmt (level n f : Nat) : Nat := Nat.repeat ladder n (wideFmt level f)

/-- R100: a block of element codes widened to another format: decoded under R55 and quantised again under R51 at the
same TEXP, or rounded to W16 under R54. The indicators that the decoding and the conversion raise (R55, R51,
R54), the scale code and the codes of the wider format. -/
def widenBlock (f g scale : Nat) (texp : Int) (headroom : Nat) (codes : List Nat) : Trouble × Nat × List Nat :=
  if f = g then ({}, scale, codes)
  else
    let ws := codes.map fun c => decodeF32 f c scale texp
    let t : Trouble := { naninf := ws.any fun x => x.2 }
    let xs := ws.map fun x => f32Val x.1
    if g = 1 then
      let r := xs.map toW16
      (t.or { naninf := r.any fun x => x.2 }, 127, r.map fun x => x.1)
    else
      let q := quantiseBlock g texp (some headroom) xs
      (t.or q.trouble, q.scale, q.codes)

end Sys2Proof.Machine
end

