-- ==== Sys2Proof/Config.lean ====
section
/-!
DEFINITION. What one module's silicon or firmware fixes and the spec leaves open. Each constant is
opaque: no proof can see its value. The log entries are named beside each.
-/
namespace Sys2Proof

/-- R2, R399: the highest interface minor version that the loaded firmware implements (log 7). -/
opaque Config.fwMinor : BitVec 8

/-- R420 check 3: the vendor key hash in mask ROM (log 9). -/
opaque Config.vendorKeyHash : BitVec 512

/-- R427: the secret that the boot ROM's unpublished code-offset construction rebuilds from the
PUF reading of this module and the OFFSET bytes of a helper blob (log 9). -/
opaque Config.pufReconstruct : List Byte → List Byte

/-- R427, R428: the OFFSET bytes that the same construction builds for a fresh secret (log 9). -/
opaque Config.pufOffset : List Byte → List Byte

/-- R428: the n-th 32-byte secret that the hardware noise source yields (log 9). -/
opaque Config.noise : Nat → BitVec 256

/-- The n-th free value of 32 bits: a value the spec leaves open (log 7). -/
opaque Config.freeWord : Nat → Word

/-- R126, R127: whether a V-form instruction with MEN set writes element `i` of V, for its mask register (log 20). -/
opaque Config.vElem : BitVec 1024 → Nat → Bool

/-- R19: the pod that the n-th twin mismatch retires, if it retires one (log 117). -/
opaque Config.mismatchPod : Nat → Option Nat

/-- R214, R236: the n-th upset of a memory cell, if there is one: whether it is beyond correction, and the address of the
protected word or sector (log 147). -/
opaque Config.upset : Nat → Option (Bool × Nat)

/-- R239: the pseudo-channel, bank and row of a stack and stack offset; the map is not published (log 93). -/
opaque Config.rowOf : Nat → Nat → Nat × Nat × Nat

/-- R239: the frame of a row (stack, pseudo-channel, bank, row); the map is not published (log 93). -/
opaque Config.rowFrame : Nat → Nat → Nat → Nat → Nat

/-- The n-th free truth value: a choice the spec leaves open (log 7). -/
opaque Config.freeBit : Nat → Bool

end Sys2Proof
end

