-- ==== Sys2Proof/WellFormed.lean ====
section
/-!
DEFINITION. Well-formedness of a command: every operand that names a unit names one that the
spec gives the device (R12 to R20, R242, R511). An ill-formed command names a unit that does
not exist; its meaning stops with `Fault.noSuchUnit`.
-/
namespace Sys2Proof

/-- R20: a 13-bit core identity whose pod index is 0 to 11. -/
def coreOk (c : Nat) : Bool := decide (c < 8192) && decide (c / 16 % 16 < 12)

/-- R21, R23, R586: an address outside HBM, the reservoir, pod SRAM and core memories. -/
def notMemory (a : Nat) : Bool :=
  let o := a % 0x10000000
  let die := decide (0x20000000000 ≤ a ∧ a < 0x22000000000)
  !(decide (a < 0xA000000000) || decide (0x10000000000 ≤ a ∧ a < 0x10080000000)
    || (die && decide (a / 0x10000000 % 16 < 12) && (decide (o < 0x400000)
      || decide (0x1000000 ≤ o ∧ o < 0x2000000 ∧ o % 0x100000 < 0xAC000))))

/-- R242: a source of a shuttle: a core, a list port, a bulk channel. -/
def ShuSrc.wf : ShuSrc → Bool
  | .pod p s => decide (p < 384) && decide (s < 18)
  | .bulk e ch => decide (e < 4) && decide (ch < 8)

/-- R242: a completion queue of a pod (16) or of an edge die (8). -/
def CqId.wf : CqId → Bool
  | .pod p q => decide (p < 384) && decide (q < 16)
  | .edge e q => decide (e < 4) && decide (q < 8)

/-- R452: phases built in rail group `g`. -/
def railPhases (g : Nat) : Nat :=
  if g < 18 then 4 else if g < 22 then 3 else if g < 24 then 4 else 2

/-- R460: sensors or sense points of a rail group. -/
def railSensors (g : Nat) : Nat :=
  if g < 16 then 96 else if g < 18 then 4 else if g < 23 then 16 else 4

/-- R241, R466: what self-test reports names rows of the device and current bins of its pods. -/
def SelfTest.wf (r : SelfTest) : Bool :=
  r.rows.all (fun x => decide (x.row.stack < 8 ∧ x.row.pc < 32 ∧ x.row.bank < 48 ∧ x.row.row < 2 ^ 18 ∧ x.kind < 2
      ∧ x.frame < 65536)) && r.baseline.all fun b => decide (b.1 < 384 ∧ b.2.1 < 4)

/-- The command's operands name units of the device. -/
def Instr.wf : Instr → Bool
  | .hello m _ => decide (m < 11)
  | .echo m _ => decide (m < 11)
  | .slLoad m _ => decide (m < 11)
  | .slCommit m _ => decide (m < 11)
  | .slDigest m _ => decide (m < 11)
  | .slRead m _ => decide (m < 11)
  | .jobLoad m _ => decide (m < 11)
  | .heatGo m _ => decide (m < 11)
  | .jobStop m _ => decide (m < 11)
  | .jobUnload m _ => decide (m < 11)
  | .jobReplace m _ => decide (m < 11)
  | .heatStatus m _ => decide (m < 11)
  | .drillInstall m _ => decide (m < 11)
  | .drillClear m _ => decide (m < 11)
  | .drillList m _ => decide (m < 11)
  | .objAlloc m _ => decide (m < 11)
  | .objFree m _ => decide (m < 11)
  | .objQuery m _ => decide (m < 11)
  | .regionRead m _ => decide (m < 11)
  | .pwrBudget m _ => decide (m < 11)
  | .pwrFloor m _ => decide (m < 11)
  | .pwrPark m _ => decide (m < 11)
  | .pwrResume m _ => decide (m < 11)
  | .pwrCeiling m _ => decide (m < 11)
  | .pwrStatus m _ => decide (m < 11)
  | .tlmSnapshot m _ => decide (m < 11)
  | .tlmHeat m _ => decide (m < 11)
  | .ledgerRead m _ => decide (m < 11)
  | .ledgerLaps m _ => decide (m < 11)
  | .safeStatus m _ => decide (m < 11)
  | .faultLog m _ => decide (m < 11)
  | .evtFilter m _ => decide (m < 11)
  | .coolantReport m _ => decide (m < 11)
  | .trayIdent m _ => decide (m < 11)
  | .twinStatus m _ => decide (m < 11)
  | .twinMap m _ => decide (m < 11)
  | .batonHost m _ => decide (m < 11)
  | .batonRestore m _ => decide (m < 11)
  | .idKey m _ => decide (m < 11)
  | .attest m _ => decide (m < 11)
  | .coreMap m _ => decide (m < 11)
  | .selftest m _ => decide (m < 11)
  | .retireRead m _ => decide (m < 11)
  | .deferredCommandRun _ _ => true
  | .hubMbxDoorbell m _ => decide (m < 11)
  | .hubMbxRspHead m _ => decide (m < 11)
  | .hubEvtHead _ _ => true
  | .hubTrayDoneHead _ => true
  | .registerWrite _ a _ => notMemory a
  | .hubTakeover pair => decide (pair < 2)
  | .standbyLost pair => decide (pair < 2)
  | .scalarInstruction c => coreOk c
  | .acfg c => coreOk c
  | .lds c => coreOk c
  | .stream c => coreOk c
  | .headRelease c arr _ => coreOk c && decide (arr < 2)
  | .promote c => coreOk c
  | .drain c => coreOk c
  | .qstore c => coreOk c
  | .await c => coreOk c
  | .repeatTrap c => coreOk c
  | .vadd c => coreOk c
  | .vsub c => coreOk c
  | .vmul c => coreOk c
  | .vfma c => coreOk c
  | .vmax c => coreOk c
  | .vmin c => coreOk c
  | .vmov c => coreOk c
  | .vsel c => coreOk c
  | .vabs c => coreOk c
  | .vneg c => coreOk c
  | .vexp c => coreOk c
  | .vlog c => coreOk c
  | .vrsqrt c => coreOk c
  | .vrcp c => coreOk c
  | .vclt c => coreOk c
  | .vcle c => coreOk c
  | .vceq c => coreOk c
  | .mand c => coreOk c
  | .mor c => coreOk c
  | .mxor c => coreOk c
  | .mnot c => coreOk c
  | .mset c => coreOk c
  | .mtri c => coreOk c
  | .mbox c => coreOk c
  | .vrsumr c => coreOk c
  | .vrmaxr c => coreOk c
  | .vrsumc c => coreOk c
  | .vrmaxc c => coreOk c
  | .vamax c => coreOk c
  | .vgetr c => coreOk c
  | .vgetc c => coreOk c
  | .vputr c => coreOk c
  | .vputc c => coreOk c
  | .vtrn c => coreOk c
  | .vdrop c => coreOk c
  | .vrand c => coreOk c
  | .shq c => coreOk c
  | .shwait c => coreOk c
  | .slvTake c => coreOk c
  | .slvTurn c => coreOk c
  | .slvDone c => coreOk c
  | .hrdArrive c => coreOk c
  | .hrdWait c => coreOk c
  | .podHurdleComplete die pod slot => decide (die < 32) && pod.all (· < 12) && decide (slot < 16)
  | .ksync c => coreOk c
  | .sbTexp c => coreOk c
  | .sbErrs c => coreOk c
  | .sbRead c => coreOk c
  | .sbAmax c => coreOk c
  | .coreRun c => coreOk c
  | .coreStop c => coreOk c
  | .corePark c _ => coreOk c
  | .podSlvTail p _ => decide (p < 384)
  | .edgGateLapclose _ => true
  | .edgGateFwdclose _ => true
  | .edgPfMark _ => true
  | .prefetchFillDone _ => true
  | .poolGrant cl _ _ => decide (cl < 4)
  | .gradientPathHomeRead _ => true
  | .amaxReduction _ _ => true
  | .sweepPhaseStart => true
  | .sweepShardStart u => decide (u < 16)
  | .factorPass u => decide (u < 16)
  | .sweepBlock u => decide (u < 16)
  | .scaleBookWrite => true
  | .attemptStart => true
  | .stashWalk => true
  | .heatVoid => true
  | .rollbackDone => true
  | .heatCommit => true
  | .batonStream _ => true
  | .progressTimeout => true
  | .copy src _ _ => src.wf
  | .gather src _ _ => src.wf
  | .scatter src _ _ => src.wf
  | .transpose src _ _ => src.wf
  | .imm src _ _ => src.wf
  | .completionRecordWrite q => q.wf
  | .listPortFetch p lp => decide (p < 384) && decide (lp < 2)
  | .podShuLpPush p lp _ => decide (p < 384) && decide (lp < 2)
  | .edgBshGo e ch _ => decide (e < 4) && decide (ch < 8)
  | .shadowActivate e ch => decide (e < 4) && decide (ch < 8)
  | .edgBshStop e ch => decide (e < 4) && decide (ch < 8)
  | .cqHead q _ => q.wf
  | .cqEnable q _ => q.wf
  | .hbmScrub k _ _ => decide (k < 8)
  | .portTrainStart p => decide (p < 16)
  | .pmdTrainDone p => decide (p < 16)
  | .pcsLock p => decide (p < 16)
  | .trainStateTimeout p => decide (p < 16)
  | .trainFlit p _ => decide (p < 16)
  | .dataFlit p _ => decide (p < 16)
  | .nullFlit p _ => decide (p < 16)
  | .keepalive p _ => decide (p < 16)
  | .keepaliveSend p => decide (p < 16)
  | .creditFlitSend p => decide (p < 16)
  | .replayTimeout p => decide (p < 16)
  | .silence p => decide (p < 16)
  | .ethFrame p _ => decide (p < 16)
  | .lnkRetrain p => decide (p < 16)
  | .lnkHoldDown p _ => decide (p < 16)
  | .messageForward p vc => decide (p < 16) && decide (vc < 4)
  | .write p => decide (p < 16)
  | .readReq p => decide (p < 16)
  | .readResp p => decide (p < 16)
  | .atomicAdd p => decide (p < 16)
  | .atomicResp p => decide (p < 16)
  | .writeAck p => decide (p < 16)
  | .collFrag p => decide (p < 16)
  | .hurdle p => decide (p < 16)
  | .mail p => decide (p < 16)
  | .mirror p => decide (p < 16)
  | .collectiveTrigger _ => true
  | .collectiveEnd _ => true
  | .edgRlyKick e _ => decide (e < 4)
  | .edgRlyRelease e _ => decide (e < 4)
  | .twinHelloTimeout => true
  | .jogDigestPass _ _ => true
  | .powerSample _ _ _ => true
  | .opSlewDone => true
  | .floorLate => true
  | .leavingDone => true
  | .staggerEnd => true
  | .longSliver c => coreOk c
  | .podGateOff p => decide (p < 384)
  | .wakeTokenReturn die => decide (die < 32)
  | .podTurnOn p => decide (p < 384)
  | .softStartDone p => decide (p < 384)
  | .wakeHoldN _ => true
  | .railSetpointWindow g mv sensor => decide (g < 26) && decide (sensor < railSensors g) && decide (mv < 1024)
  | .fastDroopStart g sensor mv => decide (g < 16) && decide (sensor < 96) && decide (mv < 1024)
  | .fastDroopEnd skips => decide (skips ≤ 64)
  | .droopFloor g sensor mv => decide (g < 26) && decide (sensor < railSensors g) && decide (mv < 1024)
  | .phaseLost g ph => decide (g < 26) && decide (ph < railPhases g)
  | .railOvercurrent g da => decide (g < 26) && decide (da < 65536)
  | .podOvercurrent p ma => decide (p < 384) && decide (ma < 8192)
  | .sliceLost p => decide (p < 384)
  | .podDark p => decide (p < 384)
  | .crackMeasure p bin drop => decide (p < 384) && decide (bin < 4) && decide (drop < 256)
  | .edgRailMinvReset g => decide (g < 26)
  | .inputUvWarn cv => decide (cv < 65536)
  | .inputUvRecover cv => decide (cv < 65536)
  | .inputTrip cv => decide (cv < 65536)
  | .railBringUp cv => decide (cv < 65536)
  | .sensorReading hs ra rb _ _ => decide (hs < 396) && decide (ra < 4096) && decide (rb < 4096)
  | .thermalPeriod => true
  | .coolantStale => true
  | .flowFailN _ => true
  | .criticalTrip hs => decide (hs < 396)
  | .configCheck => true
  | .pllUnlock => true
  | .perstNAssert => true
  | .perstNRelease => true
  | .pcieLinkReset => true
  | .d3hotEntry => true
  | .bar0Access off _ _ => decide (off < 0x4000000)
  | .bar2Access off _ _ => decide (off < 0x10000000000)
  | .hostDmaFail _ => true
  | .msixHoldoffEnd vec => decide (vec < 64)
  | .bootGo => true
  | .bootEnrol => true
  | .selftestDone r => r.wf
  | .selftestWindowExpiry => true
  | .i3cPrivateWrite _ _ => true
  | .i3cPrivateRead _ _ => true
  | .setdasa addr => decide (addr < 128)
  | .entdaa addr => decide (addr < 128)
  | .rstdaa => true
  | .setmwl _ => true
  | .ibiEnable => true
  | .ibiDisable => true
  | .lossOfBlockLock p lane => decide (p < 16) && decide (lane < 4)
  | .podSlvCtrl p _ => decide (p < 384)
  | .returnToD0 => true
  | .busMasterEnable => true
  | .bar2Resize lg => decide (30 ≤ lg ∧ lg ≤ 40)
  | .hbmTemperatureReadout stack t => decide (stack < 8) && decide (t < 4096)
  | .previousLimitEnd p => decide (p < 384)
  | .thermTripNClear cv => decide (cv < 65536)
  | .syntheticArrayPass c arr _ => coreOk c && decide (arr < 2)

end Sys2Proof
end

