-- ==== Sys2Proof/Machine/RegMap.lean ====
section
/-!
DEFINITION. The register maps of every chapter: each family's registers with offset, access code (R9),
writable bits and reset value; where each family lies in the device address space (R23, R25) and in
BAR0 (R365). Offsets of a family that no row lists are reserved: they read 0 and ignore writes
(R6). Offsets outside every family are unmapped (log 15).
-/
namespace Sys2Proof.Machine

/-- R9: the access codes. -/
inductive Acc where
  | ro
  | rw
  | w1c
  | wo
  | lk
  | sb
  deriving DecidableEq, Repr

/-- One register of a family. -/
structure RegDef where
  off : Nat
  name : String
  acc : Acc
  mask : Nat
  reset : Nat
  deriving DecidableEq, Repr

/-- The register families. -/
inductive Fam where
  | arr
  | slv
  | core
  | vec
  | swp
  | gate
  | pool
  | shu
  | cq
  | bsh
  | lnk
  | rly
  | hif
  | mbx
  | boot
  | podPwr
  | rail
  | railIn
  | pwr
  | podThm
  | thm
  | saf
  | pf
  deriving DecidableEq, Repr

/-- Registers of the arr family: offset, name, access, writable mask, reset. -/
def mapArr : List RegDef :=
  [.mk 0x0 "ARR_CTRL" .rw 0x3FFF 0x0,
   .mk 0x4 "ARR_PASS" .rw 0x7FF 0x0,
   .mk 0x8 "ARR_STATUS" .ro 0x0 0x0,
   .mk 0xC "ARR_TROUBLE" .w1c 0xFFF 0x0,
   .mk 0x10 "ARR_TEXP" .ro 0x0 0x0,
   .mk 0x20 "ARR_CNT_PROD" .ro 0x0 0x0,
   .mk 0x24 "ARR_CNT_PROD_HI" .ro 0x0 0x0,
   .mk 0x28 "ARR_CNT_ZERO" .ro 0x0 0x0,
   .mk 0x2C "ARR_CNT_ZERO_HI" .ro 0x0 0x0,
   .mk 0x30 "ARR_CNT_IDLE" .ro 0x0 0x0,
   .mk 0x34 "ARR_CNT_IDLE_HI" .ro 0x0 0x0,
   .mk 0x38 "ARR_CNT_STALL" .ro 0x0 0x0,
   .mk 0x3C "ARR_CNT_STALL_HI" .ro 0x0 0x0,
   .mk 0x40 "ARR_CNT_TILES" .ro 0x0 0x0,
   .mk 0x44 "ARR_CNT_REPEAT" .ro 0x0 0x0]

/-- Registers of the slv family: offset, name, access, writable mask, reset. -/
def mapSlv : List RegDef :=
  [.mk 0x0 "POD_SLV_BASE" .rw 0xFFFFFFFF 0x0,
   .mk 0x4 "POD_SLV_SIZE" .rw 0xFFFFFFFF 0x0,
   .mk 0x8 "POD_SLV_HEAD" .ro 0x0 0x0,
   .mk 0xC "POD_SLV_TAIL" .rw 0xFFFFFFFF 0x0,
   .mk 0x10 "POD_SLV_CTRL" .rw 0x1 0x0,
   .mk 0x14 "POD_SLV_STATUS" .w1c 0x1 0x0,
   .mk 0x18 "POD_SLV_TAKEN" .ro 0x0 0x0]

/-- Registers of the core family: offset, name, access, writable mask, reset. -/
def mapCore : List RegDef :=
  [.mk 0x0 "CORE_ID" .ro 0x0 0x0,
   .mk 0x4 "CORE_STATE" .ro 0x0 0x0,
   .mk 0x8 "CORE_CTRL" .rw 0x3 0x0,
   .mk 0xC "CORE_START_PC" .rw 0x7FFF 0x0,
   .mk 0x10 "CORE_EXC_CAUSE" .ro 0x0 0x0,
   .mk 0x14 "CORE_EXC_PC" .ro 0x0 0x0,
   .mk 0x18 "CORE_EXC_INFO" .ro 0x0 0x0,
   .mk 0x1C "CORE_HEAT" .ro 0x0 0x0,
   .mk 0x20 "CORE_SLV_CUR" .ro 0x0 0xFFFFFFFF,
   .mk 0x24 "CORE_SLV_STEP" .ro 0x0 0x0,
   .mk 0x28 "CORE_SHU_ISSUED" .ro 0x0 0x0,
   .mk 0x2C "CORE_SHU_DONE" .ro 0x0 0x0,
   .mk 0x30 "CORE_RNG_TENSOR" .rw 0xFFFFFF 0x0,
   .mk 0x34 "CORE_RNG_LAP" .rw 0xFFFFF 0x0,
   .mk 0x38 "CORE_RNG_BASE_LO" .rw 0xFFFFFFFF 0x0,
   .mk 0x3C "CORE_RNG_BASE_HI" .rw 0x3FF 0x0,
   .mk 0x40 "CORE_RNG_PITCH" .rw 0xFFFFFFFF 0x0,
   .mk 0x44 "CORE_WIDE" .sb 0xF 0x0,
   .mk 0x48 "CORE_CNT_VLANE" .ro 0x0 0x0,
   .mk 0x4C "CORE_CNT_VLANE_HI" .ro 0x0 0x0,
   .mk 0x50 "CORE_CNT_RESTART" .ro 0x0 0x0]

/-- Registers of the vec family: offset, name, access, writable mask, reset. -/
def mapVec : List RegDef :=
  [.mk 0x0 "VEC_STATUS" .ro 0x0 0x0]

/-- Registers of the swp family: offset, name, access, writable mask, reset. -/
def mapSwp : List RegDef :=
  [.mk 0x0 "EDG_SWP_STATUS" .ro 0x0 0x0,
   .mk 0x4 "EDG_SWP_SHARD" .ro 0x0 0xFFFF,
   .mk 0x8 "EDG_SWP_CURSOR" .ro 0x0 0x0,
   .mk 0xC "EDG_SWP_LIMIT" .ro 0x0 0x0,
   .mk 0x10 "EDG_SWP_UNDO_HEAD" .ro 0x0 0x0,
   .mk 0x14 "EDG_SWP_UNDO_SLOTS" .ro 0x0 0x0,
   .mk 0x18 "EDG_SWP_TROUBLE" .w1c 0x3F 0x0,
   .mk 0x20 "EDG_SWP_CNT_BLOCKS" .ro 0x0 0x0,
   .mk 0x24 "EDG_SWP_CNT_BLOCKS_HI" .ro 0x0 0x0,
   .mk 0x28 "EDG_SWP_CNT_ROLLBACK" .ro 0x0 0x0,
   .mk 0x2C "EDG_SWP_CNT_GRAD_TAMAX" .ro 0x0 0x0,
   .mk 0x30 "EDG_SWP_DIGEST" .ro 0x0 0x0,
   .mk 0x34 "EDG_SWP_DIGEST_HI" .ro 0x0 0x0]

/-- Registers of the gate family: offset, name, access, writable mask, reset. -/
def mapGate : List RegDef :=
  [.mk 0x0 "EDG_GATE_LAPCLOSE" .wo 0x0 0x0,
   .mk 0x4 "EDG_GATE_SEL" .rw 0xFF 0x0,
   .mk 0x8 "EDG_GATE_COUNT" .ro 0x0 0x0,
   .mk 0xC "EDG_GATE_STATUS" .w1c 0x1 0x0,
   .mk 0x10 "EDG_GATE_FWDCLOSE" .wo 0x0 0x0,
   .mk 0x14 "EDG_GATE_FWDCOUNT" .ro 0x0 0x0]

/-- Registers of the pool family: offset, name, access, writable mask, reset. -/
def mapPool : List RegDef :=
  [.mk 0x0 "RES_POOL_UNITS" .ro 0x0 0x0,
   .mk 0x4 "RES_POOL_FREE" .ro 0x0 0x0,
   .mk 0x8 "RES_POOL_ECC" .ro 0x0 0x0,
   .mk 0x100 "RES_CLI_USED0" .ro 0x0 0x0,
   .mk 0x120 "RES_CLI_USED1" .ro 0x0 0x0,
   .mk 0x140 "RES_CLI_USED2" .ro 0x0 0x0,
   .mk 0x160 "RES_CLI_USED3" .ro 0x0 0x0,
   .mk 0x104 "RES_CLI_PINNED0" .ro 0x0 0x0,
   .mk 0x124 "RES_CLI_PINNED1" .ro 0x0 0x0,
   .mk 0x144 "RES_CLI_PINNED2" .ro 0x0 0x0,
   .mk 0x164 "RES_CLI_PINNED3" .ro 0x0 0x0,
   .mk 0x108 "RES_CLI_PEAK0" .w1c 0xFFFF 0x0,
   .mk 0x128 "RES_CLI_PEAK1" .w1c 0xFFFF 0x0,
   .mk 0x148 "RES_CLI_PEAK2" .w1c 0xFFFF 0x0,
   .mk 0x168 "RES_CLI_PEAK3" .w1c 0xFFFF 0x0,
   .mk 0x10C "RES_CLI_REFUSED0" .ro 0x0 0x0,
   .mk 0x12C "RES_CLI_REFUSED1" .ro 0x0 0x0,
   .mk 0x14C "RES_CLI_REFUSED2" .ro 0x0 0x0,
   .mk 0x16C "RES_CLI_REFUSED3" .ro 0x0 0x0,
   .mk 0x110 "RES_CLI_EVICTED0" .ro 0x0 0x0,
   .mk 0x130 "RES_CLI_EVICTED1" .ro 0x0 0x0,
   .mk 0x150 "RES_CLI_EVICTED2" .ro 0x0 0x0,
   .mk 0x170 "RES_CLI_EVICTED3" .ro 0x0 0x0,
   .mk 0x114 "RES_CLI_HITS0" .ro 0x0 0x0,
   .mk 0x134 "RES_CLI_HITS1" .ro 0x0 0x0,
   .mk 0x154 "RES_CLI_HITS2" .ro 0x0 0x0,
   .mk 0x174 "RES_CLI_HITS3" .ro 0x0 0x0,
   .mk 0x118 "RES_CLI_MISSES0" .ro 0x0 0x0,
   .mk 0x138 "RES_CLI_MISSES1" .ro 0x0 0x0,
   .mk 0x158 "RES_CLI_MISSES2" .ro 0x0 0x0,
   .mk 0x178 "RES_CLI_MISSES3" .ro 0x0 0x0]

/-- Registers of the shu family: offset, name, access, writable mask, reset. -/
def mapShu : List RegDef :=
  [.mk 0x0 "POD_SHU_STATUS" .ro 0x0 0x0,
   .mk 0x8 "POD_SHU_LP0_LO" .rw 0xFFFFFFC0 0x0,
   .mk 0xC "POD_SHU_LP0_HI" .rw 0xFFFF 0x0,
   .mk 0x10 "POD_SHU_LP1_LO" .rw 0xFFFFFFC0 0x0,
   .mk 0x14 "POD_SHU_LP1_HI" .rw 0xFFFF 0x0,
   .mk 0x18 "POD_SHU_LP_STATUS" .ro 0x0 0x0,
   .mk 0x1C "POD_SHU_FAULT" .w1c 0x7 0x0,
   .mk 0x20 "POD_SHU_CNT_DESC" .ro 0x0 0x0,
   .mk 0x28 "POD_SHU_CNT_BYTES" .ro 0x0 0x0,
   .mk 0x2C "POD_SHU_CNT_BYTES_HI" .ro 0x0 0x0,
   .mk 0x30 "POD_SHU_CNT_RETRY" .ro 0x0 0x0]

/-- Registers of the cq family: offset, name, access, writable mask, reset. -/
def mapCq : List RegDef :=
  [.mk 0x0 "CQ_BASE_LO" .rw 0xFFFFFFE0 0x0,
   .mk 0x4 "CQ_BASE_HI" .rw 0xFFFF 0x0,
   .mk 0x8 "CQ_SIZE" .rw 0x1F 0x0,
   .mk 0xC "CQ_TAIL" .ro 0x0 0x0,
   .mk 0x10 "CQ_HEAD" .rw 0xFFFFFFFF 0x0,
   .mk 0x14 "CQ_CTRL" .rw 0x3F03 0x0,
   .mk 0x18 "CQ_STATUS" .w1c 0x2 0x0,
   .mk 0x1C "CQ_CNT_STALL" .ro 0x0 0x0]

/-- Registers of the bsh family: offset, name, access, writable mask, reset. -/
def mapBsh : List RegDef :=
  [.mk 0x0 "EDG_BSH_SHADOW0" .rw 0xFFFFFFFF 0x0,
   .mk 0x4 "EDG_BSH_SHADOW1" .rw 0xFFFFFFFF 0x0,
   .mk 0x8 "EDG_BSH_SHADOW2" .rw 0xFFFFFFFF 0x0,
   .mk 0xC "EDG_BSH_SHADOW3" .rw 0xFFFFFFFF 0x0,
   .mk 0x10 "EDG_BSH_SHADOW4" .rw 0xFFFFFFFF 0x0,
   .mk 0x14 "EDG_BSH_SHADOW5" .rw 0xFFFFFFFF 0x0,
   .mk 0x18 "EDG_BSH_SHADOW6" .rw 0xFFFFFFFF 0x0,
   .mk 0x1C "EDG_BSH_SHADOW7" .rw 0xFFFFFFFF 0x0,
   .mk 0x20 "EDG_BSH_SHADOW8" .rw 0xFFFFFFFF 0x0,
   .mk 0x24 "EDG_BSH_SHADOW9" .rw 0xFFFFFFFF 0x0,
   .mk 0x28 "EDG_BSH_SHADOW10" .rw 0xFFFFFFFF 0x0,
   .mk 0x2C "EDG_BSH_SHADOW11" .rw 0xFFFFFFFF 0x0,
   .mk 0x30 "EDG_BSH_SHADOW12" .rw 0xFFFFFFFF 0x0,
   .mk 0x34 "EDG_BSH_SHADOW13" .rw 0xFFFFFFFF 0x0,
   .mk 0x38 "EDG_BSH_SHADOW14" .rw 0xFFFFFFFF 0x0,
   .mk 0x3C "EDG_BSH_SHADOW15" .rw 0xFFFFFFFF 0x0,
   .mk 0x40 "EDG_BSH_GO" .wo 0x0 0x0,
   .mk 0x44 "EDG_BSH_STATUS" .ro 0x0 0x0,
   .mk 0x48 "EDG_BSH_CTRL" .rw 0x1 0x0,
   .mk 0x4C "EDG_BSH_ACT_TAG" .ro 0x0 0x0,
   .mk 0x50 "EDG_BSH_ACT_BYTES" .ro 0x0 0x0,
   .mk 0x54 "EDG_BSH_ACT_BYTES_HI" .ro 0x0 0x0,
   .mk 0x58 "EDG_BSH_CNT_DESC" .ro 0x0 0x0,
   .mk 0x60 "EDG_BSH_CNT_BYTES" .ro 0x0 0x0,
   .mk 0x64 "EDG_BSH_CNT_BYTES_HI" .ro 0x0 0x0,
   .mk 0x68 "EDG_BSH_CNT_RETRY" .ro 0x0 0x0]

/-- Registers of the lnk family: offset, name, access, writable mask, reset. -/
def mapLnk : List RegDef :=
  [.mk 0x0 "LNK_CFG" .lk 0x1F 0x0,
   .mk 0x4 "LNK_NODE" .lk 0xFFFF 0x0,
   .mk 0x8 "LNK_STATE" .ro 0x0 0x0,
   .mk 0xC "LNK_PEER" .ro 0x0 0x0,
   .mk 0x10 "LNK_VERSION" .ro 0x0 0x0,
   .mk 0x14 "LNK_CTRL" .rw 0x1 0x0,
   .mk 0x18 "LNK_EVENT" .w1c 0x7F 0x0,
   .mk 0x1C "LNK_KEEPALIVE_CFG" .lk 0x3 0x0,
   .mk 0x20 "LNK_ETH_TYPE" .lk 0xFFFF 0x0,
   .mk 0x24 "LNK_ETH_VLAN" .lk 0xFFFF 0x0,
   .mk 0x28 "LNK_ETH_SRC_LO" .lk 0xFFFFFFFF 0x0,
   .mk 0x2C "LNK_ETH_SRC_HI" .lk 0xFFFF 0x0,
   .mk 0x30 "LNK_ETH_DST_LO" .lk 0xFFFFFFFF 0x0,
   .mk 0x34 "LNK_ETH_DST_HI" .lk 0xFFFF 0x0,
   .mk 0x38 "LNK_CREDIT_A" .ro 0x0 0x0,
   .mk 0x3C "LNK_CREDIT_B" .ro 0x0 0x0,
   .mk 0x40 "LNK_TIME_OFFSET" .ro 0x0 0x0,
   .mk 0x44 "LNK_REPLAY_DEPTH" .ro 0x0 0x0,
   .mk 0x48 "LNK_CNT_FLIT_TX" .ro 0x0 0x0,
   .mk 0x4C "LNK_CNT_FLIT_TX_HI" .ro 0x0 0x0,
   .mk 0x50 "LNK_CNT_FLIT_RX" .ro 0x0 0x0,
   .mk 0x54 "LNK_CNT_FLIT_RX_HI" .ro 0x0 0x0,
   .mk 0x58 "LNK_CNT_FEC_CORR" .ro 0x0 0x0,
   .mk 0x5C "LNK_CNT_FEC_CORR_HI" .ro 0x0 0x0,
   .mk 0x60 "LNK_CNT_FEC_UNCORR" .ro 0x0 0x0,
   .mk 0x64 "LNK_CNT_CRC" .ro 0x0 0x0,
   .mk 0x68 "LNK_CNT_STOMP" .ro 0x0 0x0,
   .mk 0x6C "LNK_CNT_REPLAY" .ro 0x0 0x0,
   .mk 0x70 "LNK_CNT_DROP" .ro 0x0 0x0,
   .mk 0x74 "LNK_CNT_DOWN" .ro 0x0 0x0]

/-- Registers of the rly family: offset, name, access, writable mask, reset. -/
def mapRly : List RegDef :=
  [.mk 0x0 "EDG_RLY_STATUS" .ro 0x0 0x0,
   .mk 0x4 "EDG_RLY_KICK" .wo 0x0 0x0,
   .mk 0x8 "EDG_RLY_FAULT" .w1c 0x1F 0x0,
   .mk 0xC "EDG_RLY_LAST_COLL" .ro 0x0 0xFFFF,
   .mk 0x10 "EDG_RLY_CNT_FRAG_TX" .ro 0x0 0x0,
   .mk 0x14 "EDG_RLY_CNT_FRAG_TX_HI" .ro 0x0 0x0,
   .mk 0x18 "EDG_RLY_CNT_FRAG_RX" .ro 0x0 0x0,
   .mk 0x1C "EDG_RLY_CNT_FRAG_RX_HI" .ro 0x0 0x0,
   .mk 0x20 "EDG_RLY_CNT_STALE" .ro 0x0 0x0,
   .mk 0x24 "EDG_RLY_CNT_COLL" .ro 0x0 0x0,
   .mk 0x28 "EDG_RLY_HRD_SEL" .rw 0xFFF 0x0,
   .mk 0x2C "EDG_RLY_HRD_STATE" .ro 0x0 0x0,
   .mk 0x30 "EDG_RLY_HRD_ARRIVE" .ro 0x0 0x0,
   .mk 0x34 "EDG_RLY_HRD_ARRIVE_HI" .ro 0x0 0x0,
   .mk 0x38 "EDG_RLY_HRD_LATEST" .ro 0x0 0x0,
   .mk 0x3C "EDG_RLY_HRD_LATEST_HI" .ro 0x0 0x0,
   .mk 0x40 "EDG_RLY_HRD_DONE" .ro 0x0 0x0,
   .mk 0x44 "EDG_RLY_HRD_DONE_HI" .ro 0x0 0x0,
   .mk 0x48 "EDG_RLY_HRD_NODE" .ro 0x0 0x0,
   .mk 0x4C "EDG_RLY_CNT_HRD" .ro 0x0 0x0]

/-- Registers of the hif family: offset, name, access, writable mask, reset. -/
def mapHif : List RegDef :=
  [.mk 0x0 "HIF_ID" .ro 0x0 0x11,
   .mk 0x4 "HIF_STATE" .ro 0x0 0x0,
   .mk 0x8 "HIF_LINK" .ro 0x0 0x0,
   .mk 0xC "HIF_APER0" .rw 0xFF 0x0,
   .mk 0x10 "HIF_APER1" .rw 0xFF 0x0,
   .mk 0x14 "HIF_BAR2_BASE_LO" .rw 0xFFFFFFFF 0x0,
   .mk 0x18 "HIF_BAR2_BASE_HI" .rw 0xFFFF 0x0,
   .mk 0x1C "HIF_FAULT" .w1c 0x1F 0x0,
   .mk 0x20 "HIF_FAULT_ADDR_LO" .ro 0x0 0x0,
   .mk 0x24 "HIF_FAULT_ADDR_HI" .ro 0x0 0x0,
   .mk 0x28 "HIF_IRQ_HOLDOFF" .rw 0xFFFF 0x64,
   .mk 0x2C "HIF_CNT_CA" .ro 0x0 0x0]

/-- Registers of the mbx family: offset, name, access, writable mask, reset. -/
def mapMbx : List RegDef :=
  [.mk 0x0 "HUB_MBX_DOORBELL" .wo 0x0 0x0,
   .mk 0x4 "HUB_MBX_REQ_HEAD" .ro 0x0 0x0,
   .mk 0x8 "HUB_MBX_RSP_TAIL" .ro 0x0 0x0,
   .mk 0xC "HUB_MBX_RSP_HEAD" .rw 0xFFFFFFFF 0x0,
   .mk 0x10 "HUB_MBX_STATUS" .ro 0x0 0x0,
   .mk 0x14 "HUB_MBX_FAULT" .w1c 0x3 0x0,
   .mk 0x18 "HUB_MBX_CNT_REQ" .ro 0x0 0x0,
   .mk 0x20 "HUB_MBX_SABLE_SEQ" .ro 0x0 0x0,
   .mk 0x24 "HUB_MBX_SABLE_SEQ_HI" .ro 0x0 0x0,
   .mk 0x40 "HUB_EVT_TAIL" .ro 0x0 0x0,
   .mk 0x44 "HUB_EVT_HEAD" .rw 0xFFFFFFFF 0x0,
   .mk 0x48 "HUB_EVT_LOST" .ro 0x0 0x0]

/-- Registers of the boot family: offset, name, access, writable mask, reset. -/
def mapBoot : List RegDef :=
  [.mk 0x0 "HIF_BOOT_IMG_LEN" .rw 0xFFFFFFFF 0x0,
   .mk 0x4 "HIF_BOOT_HELPER_OFF" .rw 0xFFFFFFFF 0x0,
   .mk 0x8 "HIF_BOOT_CTRL" .wo 0x0 0x0,
   .mk 0xC "HIF_BOOT_RESULT" .ro 0x0 0x0,
   .mk 0x10 "HIF_BOOT_FW_VERSION" .ro 0x0 0x0,
   .mk 0x14 "HIF_BOOT_SEC_FLOOR" .ro 0x0 0x1]

/-- Registers of the podPwr family: offset, name, access, writable mask, reset. -/
def mapPodPwr : List RegDef :=
  [.mk 0x0 "POD_PWR_STATE" .ro 0x0 0x0,
   .mk 0x4 "POD_PWR_CEIL" .ro 0x0 0x10,
   .mk 0x8 "POD_PWR_CUR" .ro 0x0 0x0,
   .mk 0xC "POD_PWR_LIMIT" .ro 0x0 0x12C0,
   .mk 0x10 "POD_PWR_SENSE0" .ro 0x0 0x0,
   .mk 0x14 "POD_PWR_SENSE1" .ro 0x0 0x0,
   .mk 0x18 "POD_PWR_SENSE2" .ro 0x0 0x0,
   .mk 0x1C "POD_PWR_SENSE3" .ro 0x0 0x0,
   .mk 0x20 "POD_PWR_DROP0" .ro 0x0 0x0,
   .mk 0x24 "POD_PWR_DROP1" .ro 0x0 0x0,
   .mk 0x28 "POD_PWR_DROP2" .ro 0x0 0x0,
   .mk 0x2C "POD_PWR_DROP3" .ro 0x0 0x0,
   .mk 0x30 "POD_PWR_FAULT" .w1c 0xF 0x0,
   .mk 0x34 "POD_PWR_CNT_ON" .ro 0x0 0x0,
   .mk 0x38 "POD_PWR_CNT_SLOW" .ro 0x0 0x0]

/-- Registers of the rail family: offset, name, access, writable mask, reset. -/
def mapRail : List RegDef :=
  [.mk 0x0 "EDG_RAIL_CFG" .ro 0x0 0x0,
   .mk 0x4 "EDG_RAIL_SETPT" .ro 0x0 0x0,
   .mk 0x8 "EDG_RAIL_TARGET" .ro 0x0 0x0,
   .mk 0xC "EDG_RAIL_MINV" .ro 0x0 0x3FF,
   .mk 0x10 "EDG_RAIL_MINV_TICK" .ro 0x0 0x0,
   .mk 0x14 "EDG_RAIL_MINV_TICK_HI" .ro 0x0 0x0,
   .mk 0x18 "EDG_RAIL_CTRL" .rw 0x0 0x0,
   .mk 0x1C "EDG_RAIL_MINV_PU" .ro 0x0 0x3FF,
   .mk 0x20 "EDG_RAIL_CUR" .ro 0x0 0x0,
   .mk 0x24 "EDG_RAIL_CNT_STRETCH" .ro 0x0 0x0,
   .mk 0x28 "EDG_RAIL_CNT_SKIP" .ro 0x0 0x0,
   .mk 0x2C "EDG_RAIL_CNT_SKIP_HI" .ro 0x0 0x0,
   .mk 0x30 "EDG_RAIL_FAULT" .w1c 0xF 0x0]

/-- Registers of the railIn family: offset, name, access, writable mask, reset. -/
def mapRailIn : List RegDef :=
  [.mk 0x0 "EDG_RAIL_INPUT" .ro 0x0 0x0,
   .mk 0x4 "EDG_RAIL_INPUT_W" .ro 0x0 0x0,
   .mk 0x8 "EDG_RAIL_INPUT_FAULT" .w1c 0x7 0x0]

/-- Registers of the pwr family: offset, name, access, writable mask, reset. -/
def mapPwr : List RegDef :=
  [.mk 0x0 "EDG_PWR_STATE" .ro 0x0 0x0,
   .mk 0x4 "EDG_PWR_PATH" .ro 0x0 0x0,
   .mk 0x8 "EDG_PWR_ALLOW" .ro 0x0 0x0,
   .mk 0xC "EDG_PWR_JOG" .ro 0x0 0x0,
   .mk 0x10 "EDG_PWR_PACER" .ro 0x0 0x0,
   .mk 0x14 "EDG_PWR_FREED" .ro 0x0 0x0,
   .mk 0x18 "EDG_PWR_RAMP" .ro 0x0 0x0,
   .mk 0x1C "EDG_PWR_FAULT" .w1c 0x1F 0x0,
   .mk 0x20 "EDG_PWR_CNT_OP" .ro 0x0 0x0,
   .mk 0x24 "EDG_PWR_CNT_BACKSTOP" .ro 0x0 0x0,
   .mk 0x28 "EDG_PWR_CNT_WAKE" .ro 0x0 0x0,
   .mk 0x30 "EDG_PWR_E_TOTAL" .ro 0x0 0x0,
   .mk 0x34 "EDG_PWR_E_TOTAL_HI" .ro 0x0 0x0,
   .mk 0x38 "EDG_PWR_E_JOG" .ro 0x0 0x0,
   .mk 0x3C "EDG_PWR_E_JOG_HI" .ro 0x0 0x0,
   .mk 0x40 "EDG_PWR_SAMPLE_TICK" .ro 0x0 0x0,
   .mk 0x44 "EDG_PWR_SAMPLE_TICK_HI" .ro 0x0 0x0]

/-- Registers of the podThm family: offset, name, access, writable mask, reset. -/
def mapPodThm : List RegDef :=
  [.mk 0x0 "POD_THM_A" .ro 0x0 0x0,
   .mk 0x4 "POD_THM_B" .ro 0x0 0x0,
   .mk 0x8 "POD_THM_STATE" .ro 0x0 0x1000]

/-- Registers of the thm family: offset, name, access, writable mask, reset. -/
def mapThm : List RegDef :=
  [.mk 0x0 "EDG_THM_STATUS" .ro 0x0 0x0,
   .mk 0x4 "EDG_THM_COOLANT" .ro 0x0 0x0,
   .mk 0x8 "EDG_THM_REQ" .ro 0x0 0x5DC,
   .mk 0xC "EDG_THM_LIMITS" .ro 0x0 0x3C3523B6,
   .mk 0x10 "EDG_THM_SEL" .rw 0x1FF 0x0,
   .mk 0x14 "EDG_THM_SEL_READ" .ro 0x0 0x0,
   .mk 0x18 "EDG_THM_FAULT" .w1c 0x3F 0x0,
   .mk 0x1C "EDG_THM_CNT_THROTTLE" .ro 0x0 0x0,
   .mk 0x20 "EDG_THM_CNT_DERATE" .ro 0x0 0x0]

/-- Registers of the saf family: offset, name, access, writable mask, reset. -/
def mapSaf : List RegDef :=
  [.mk 0x0 "HUB_SAF_ROLE" .ro 0x0 0x0,
   .mk 0x4 "HUB_SAF_LATCHED" .ro 0x0 0x0,
   .mk 0x8 "HUB_SAF_STATE" .ro 0x0 0x0,
   .mk 0x10 "HUB_SAF_CFG_TICK" .ro 0x0 0x0,
   .mk 0x14 "HUB_SAF_CFG_TICK_HI" .ro 0x0 0x0,
   .mk 0x18 "HUB_SAF_CFG_CNT" .ro 0x0 0x0,
   .mk 0x1C "HUB_SAF_FLOOR_CNT" .ro 0x0 0x0,
   .mk 0x20 "HUB_SAF_PROG_EXPIRY" .ro 0x0 0x0,
   .mk 0x24 "HUB_SAF_PROG_EXPIRY_HI" .ro 0x0 0x0,
   .mk 0x28 "HUB_SAF_CNT_LOCKSTEP" .ro 0x0 0x0]

/-- Registers of the pf family: offset, name, access, writable mask, reset. -/
def mapPf : List RegDef :=
  [.mk 0x0 "EDG_PF_MARK" .wo 0x0 0x0,
   .mk 0x4 "EDG_PF_CNT_BACKMARK" .ro 0x0 0x0]

/-- The registers of a family. -/
def Fam.defs : Fam → List RegDef
  | .arr => mapArr
  | .slv => mapSlv
  | .core => mapCore
  | .vec => mapVec
  | .swp => mapSwp
  | .gate => mapGate
  | .pool => mapPool
  | .shu => mapShu
  | .cq => mapCq
  | .bsh => mapBsh
  | .lnk => mapLnk
  | .rly => mapRly
  | .hif => mapHif
  | .mbx => mapMbx
  | .boot => mapBoot
  | .podPwr => mapPodPwr
  | .rail => mapRail
  | .railIn => mapRailIn
  | .pwr => mapPwr
  | .podThm => mapPodThm
  | .thm => mapThm
  | .saf => mapSaf
  | .pf => mapPf

/-- R108: offsets of the low halves of 64-bit registers, whose reading latches the upper half. -/
def Fam.lows : Fam → List Nat
  | .arr => [0x20, 0x28, 0x30, 0x38]
  | .slv => []
  | .core => [0x48]
  | .vec => []
  | .swp => [0x20, 0x30]
  | .gate => []
  | .pool => []
  | .shu => [0x28]
  | .cq => []
  | .bsh => [0x50, 0x60]
  | .lnk => [0x48, 0x50, 0x58]
  | .rly => [0x10, 0x18, 0x30, 0x38, 0x40]
  | .hif => []
  | .mbx => [0x20]
  | .boot => []
  | .podPwr => []
  | .rail => [0x10, 0x28]
  | .railIn => []
  | .pwr => [0x30, 0x38, 0x40]
  | .podThm => []
  | .thm => []
  | .saf => [0x10, 0x20]
  | .pf => []

/-- The definition of the register at an offset of a family. -/
def Fam.def? (f : Fam) (off : Nat) : Option RegDef := f.defs.find? (·.off == off)

/-- R21, R365: base of the compute-die window, of the register range, sizes. -/
def dieBase : Nat := 0x020000000000
/-- R21: base of the hub, edge and reservoir-die register range. -/
def blkBase : Nat := 0x030000000000

/-- R23: address of pod `p` (index 12*d + p of 384). -/
def podBase (pod : Nat) : Nat := dieBase + (pod / 12) <<< 32 + (pod % 12) <<< 28

/-- R20, R23: pod index (of 384) of a core identity. -/
def corePod (c : Nat) : Nat := c / 256 * 12 + c / 16 % 16

/-- R23: address of the window of core `c` (a 13-bit identity). -/
def coreBase (c : Nat) : Nat := podBase (corePod c) + 0x1000000 + (c % 16) <<< 20

/-- R20: identity of logical core `n` of a pod. -/
def coreOf (pod n : Nat) : Nat := pod / 12 * 256 + pod % 12 * 16 + n

/-- R25: address of register block `b`. -/
def blk (b : Nat) : Nat := blkBase + b <<< 24

/-- R25: block index of edge die `e`. -/
def edgeBlk (e : Nat) : Nat := 0x10 + e

/-- R210: address of the registers of sweep unit `u`. -/
def swpAt (u : Nat) : Nat := blk (edgeBlk (u / 4)) + 0x400000 + 0x1000 * (u % 4)

/-- R322: address of the registers of port `p`. -/
def lnkAt (p : Nat) : Nat := blk (edgeBlk (p / 4)) + 0x200000 + 0x1000 * (p % 4)

/-- R276: address of the registers of bulk channel `ch` of edge die `e`. -/
def bshAt (e ch : Nat) : Nat := blk (edgeBlk e) + 0x300000 + 0x1000 * ch

/-- R275: address of the registers of a completion queue. -/
def cqAt : CqId → Nat
  | .pod p q => podBase p + 0x400000 + 0x2000 + 0x40 * q
  | .edge e q => blk (edgeBlk e) + 0x380000 + 0x40 * q

/-- R359: address of the registers of relay engine `e`. -/
def rlyAt (e : Nat) : Nat := blk (edgeBlk e) + 0x500000

/-- R211, R232, R475, R510, R527, R230: the single blocks of ED0 and RV0. -/
def gateAt : Nat := blk 0x10 + 0x410000
/-- R232: the layer-mark registers. -/
def pfAt : Nat := blk 0x10 + 0x420000
/-- R475: the registers of rail group `g`. -/
def railAt (g : Nat) : Nat := blk 0x10 + 0x600000 + 0x40 * g
/-- R475: the input registers. -/
def railInAt : Nat := blk 0x10 + 0x600800
/-- R510: the power controller. -/
def pwrAt : Nat := blk 0x10 + 0x610000
/-- R527: the thermal controller. -/
def thmAt : Nat := blk 0x10 + 0x620000
/-- R230: the pool registers. -/
def poolAt : Nat := blk 0x20 + 0x100000
/-- R546: the safety monitor of hub `h` (0 HA, 1 HB). -/
def safAt (h : Nat) : Nat := blk h + 0x100000
/-- R382: the doorbell page of mailbox `m`; the tray mailbox's registers (R580) have the key that a page
of its own would have. -/
def mbxAt (m : Nat) : Nat := 0x100000 + 0x1000 * m
/-- R418: the boot control registers. -/
def bootAt : Nat := 0xFFF000
/-- R151, R274, R474, R526: the pod's register groups. -/
def slvAt (pod : Nat) : Nat := podBase pod + 0x400000
/-- R274: the pod shuttle's registers. -/
def shuAt (pod : Nat) : Nat := podBase pod + 0x401000
/-- R474: the pod's power registers. -/
def podPwrAt (pod : Nat) : Nat := podBase pod + 0x403000
/-- R526: the pod's thermal registers. -/
def podThmAt (pod : Nat) : Nat := podBase pod + 0x404000
/-- R153: the core control block. -/
def ctlAt (c : Nat) : Nat := coreBase c + 0xF0000
/-- R106: the registers of array `a` of a core. -/
def arrAt (c a : Nat) : Nat := coreBase c + 0xF1000 + 0x1000 * a
/-- R155: the vector block. -/
def vecAt (c : Nat) : Nat := coreBase c + 0xF3000

/-- The family and offset of an offset within the register part of a core window (R106, R153, R155). -/
def coreFam (o : Nat) : Option (Fam × Nat) :=
  match o / 0x1000 with
  | 0xF0 => some (.core, o % 0x1000)
  | 0xF1 => some (.arr, o % 0x1000)
  | 0xF2 => some (.arr, o % 0x1000)
  | 0xF3 => some (.vec, o % 0x1000)
  | _ => none

/-- The family and offset of an offset within the pod-register window. -/
def podFam (o : Nat) : Option (Fam × Nat) :=
  match o / 0x1000 with
  | 0 => some (.slv, o % 0x1000)
  | 1 => some (.shu, o % 0x1000)
  | 2 => if o % 0x1000 < 0x400 then some (.cq, o % 0x40) else none
  | 3 => some (.podPwr, o % 0x1000)
  | 4 => some (.podThm, o % 0x1000)
  | _ => none

/-- The family and offset of an offset within register block `b` (R25). -/
def blkFam (b o : Nat) : Option (Fam × Nat) :=
  if b ≤ 1 then (if o / 0x1000 = 0x100 then some (.saf, o % 0x1000) else none)
  else if b = 0x20 then (if o / 0x1000 = 0x100 then some (.pool, o % 0x1000) else none)
  else if 0x10 ≤ b ∧ b ≤ 0x13 then
    let pg := o / 0x1000
    let x := o % 0x1000
    if 0x200 ≤ pg ∧ pg < 0x204 then some (.lnk, x)
    else if 0x300 ≤ pg ∧ pg < 0x308 then some (.bsh, x)
    else if pg = 0x380 ∧ x < 0x200 then some (.cq, x % 0x40)
    else if 0x400 ≤ pg ∧ pg < 0x404 then some (.swp, x)
    else if pg = 0x500 then some (.rly, x)
    else if b = 0x10 then
      if pg = 0x410 then some (.gate, x)
      else if pg = 0x420 then some (.pf, x)
      else if pg = 0x600 ∧ x < 0x680 then some (.rail, x % 0x40)
      else if pg = 0x600 ∧ 0x800 ≤ x ∧ x < 0x840 then some (.railIn, x - 0x800)
      else if pg = 0x610 then some (.pwr, x)
      else if pg = 0x620 then some (.thm, x)
      else none
    else none
  else none

/-- The family and offset of a BAR0 offset (R365, R382, R418). -/
def bar0Fam (o : Nat) : Option (Fam × Nat) :=
  if o < 0x1000 then some (.hif, o)
  else if 0x100000 ≤ o ∧ o < 0x10B000 then some (.mbx, o % 0x1000)
  else if 0xFFF000 ≤ o ∧ o < 0x1000000 then some (.boot, o - 0xFFF000)
  else none

/-- The family and offset of a register key: a device address or a BAR0 offset. -/
def famAt (a : Nat) : Option (Fam × Nat) :=
  if a < 0x4000000 then bar0Fam a
  else if dieBase ≤ a ∧ a < dieBase + 0x2000000000 then
    let o := a % 0x10000000
    if 0x400000 ≤ o ∧ o < 0x500000 then podFam (o - 0x400000)
    else if 0x1000000 ≤ o ∧ o < 0x2000000 then coreFam (o % 0x100000)
    else none
  else if blkBase ≤ a ∧ a < blkBase + 0x100000000 then blkFam (a / 0x1000000 % 0x100) (a % 0x1000000)
  else none

/-- R452: capacity of rail group `g` in A. -/
def railCap (g : Nat) : Nat := if g < 18 then 100 else if g < 22 then 75 else if g < 24 then 100 else 50

/-- The reset value of the register with a key (R11): the map's, or the one that depends on the unit. -/
def resetAt (a : Nat) : Word :=
  match famAt a with
  | none => 0
  | some (f, o) =>
    if f = .core ∧ o = 0 then
      let w := a - dieBase
      BitVec.ofNat 32 (w / 0x100000000 * 256 + w / 0x10000000 % 16 * 16 + w / 0x100000 % 16)
    else if f = .saf ∧ o = 0 then (if a / 0x1000000 % 0x100 = 0 then 1 else 0)
    else if f = .rail ∧ o = 0 then
      let g := (a % 0x1000) / 0x40
      BitVec.ofNat 32 (railPhases g + railPhases g * 256 + railCap g * 65536)
    else match f.def? o with
      | none => 0
      | some d => BitVec.ofNat 32 d.reset

end Sys2Proof.Machine
end

