-- ==== Sys2Proof/Machine/Ops.lean ====
section
/-!
DEFINITION. The named operations over memory, registers, events and faults that every command's
meaning uses.
-/
namespace Sys2Proof.Machine

/-- The entry with a key, if it is listed. -/
def Tab.get? {α : Type} (t : Tab α) (k : Nat) : Option α := (t.find? (·.1 == k)).map (·.2)

/-- The entry with a key, `d` where none is listed. -/
def Tab.get {α : Type} (t : Tab α) (k : Nat) (d : α) : α := (t.get? k).getD d

/-- The table with an entry replaced or inserted in order. -/
def Tab.set {α : Type} : Tab α → Nat → α → Tab α
  | [], k, v => [(k, v)]
  | (k', v') :: t, k, v =>
    if k < k' then (k, v) :: (k', v') :: t
    else if k = k' then (k, v) :: t
    else (k', v') :: Tab.set t k v

/-- The table without an entry. -/
def Tab.del {α : Type} (t : Tab α) (k : Nat) : Tab α := t.filter (·.1 != k)

/-- Every value of a table changed. -/
def Tab.mapV {α : Type} (t : Tab α) (f : α → α) : Tab α := t.map fun p => (p.1, f p.2)

/-- The byte at an address; 0 where nothing has been written (log 2). -/
def Memory.read (m : Memory) (a : Nat) : Byte := Tab.get m a 0

/-- One byte written; the value 0 unlists the address (canonical form). -/
def Memory.write (m : Memory) (a : Nat) (b : Byte) : Memory :=
  if b = 0 then Tab.del m a else Tab.set m a b

/-- `n` bytes from an address. -/
def Memory.readN (m : Memory) (a : Nat) : Nat → List Byte
  | 0 => []
  | n + 1 => m.read a :: Memory.readN m (a + 1) n

/-- Bytes written from an address on. -/
def Memory.writeN (m : Memory) (a : Nat) : List Byte → Memory
  | [] => m
  | b :: t => Memory.writeN (m.write a b) (a + 1) t

/-- The canonical form: addresses strictly rising, no listed byte 0. -/
def Memory.wf : Memory → Bool
  | [] => true
  | [(_, v)] => v != 0
  | (a, v) :: (b, w) :: t => v != 0 && decide (a < b) && Memory.wf ((b, w) :: t)

/-- A register word. -/
def State.reg (s : State) (a : Nat) : Word := Tab.get s.regs a (resetAt a)

/-- A register word as a number. -/
def State.regN (s : State) (a : Nat) : Nat := (s.reg a).toNat

/-- The device sets a register. -/
def State.setReg (s : State) (a : Nat) (w : Word) : State := { s with regs := Tab.set s.regs a w }

/-- The device sets a register to a number. -/
def State.setRegN (s : State) (a n : Nat) : State := s.setReg a (BitVec.ofNat 32 n)

/-- R108: a 32-bit counter counts, wrapping. -/
def State.count (s : State) (a n : Nat) : State := s.setReg a (s.reg a + BitVec.ofNat 32 n)

/-- A 64-bit register: low half first. -/
def State.reg64 (s : State) (a : Nat) : Nat := s.regN a + s.regN (a + 4) * 2 ^ 32

/-- The device sets a 64-bit register. -/
def State.setReg64 (s : State) (a n : Nat) : State :=
  (s.setRegN a n).setRegN (a + 4) (n >>> 32)

/-- R108: a 64-bit counter counts, wrapping. -/
def State.count64 (s : State) (a n : Nat) : State := s.setReg64 a ((s.reg64 a + n) % 2 ^ 64)

/-- Bits of a register set (a sticky or status bit rises). -/
def State.raiseBits (s : State) (a m : Nat) : State := s.setReg a (s.reg a ||| BitVec.ofNat 32 m)

/-- Bits of a register cleared. -/
def State.dropBits (s : State) (a m : Nat) : State := s.setReg a (s.reg a &&& ~~~ BitVec.ofNat 32 m)

/-- A field [hi:lo] of a register set. -/
def State.putField (s : State) (a hi lo v : Nat) : State := s.setRegN a (putBits (s.regN a) hi lo v)

/-- A core's state. -/
def State.core (s : State) (c : Nat) : Core := Tab.get s.cores c {}

/-- A core's state replaced. -/
def State.setCore (s : State) (c : Nat) (k : Core) : State := { s with cores := Tab.set s.cores c k }

/-- A core's state changed by a function. -/
def State.onCore (s : State) (c : Nat) (f : Core → Core) : State := s.setCore c (f (s.core c))

/-- A pod's state. -/
def State.pod (s : State) (p : Nat) : Pod := Tab.get s.pods p {}

/-- A pod's state changed by a function. -/
def State.onPod (s : State) (p : Nat) (f : Pod → Pod) : State :=
  { s with pods := Tab.set s.pods p (f (s.pod p)) }

/-- Bytes of device memory. -/
def State.bytes (s : State) (a n : Nat) : List Byte := Memory.readN s.mem a n

/-- A little-endian word of `n` bytes of device memory. -/
def State.word (s : State) (a n : Nat) : Nat := leNat (s.bytes a n)

/-- Bytes written to device memory. -/
def State.store (s : State) (a : Nat) (bs : List Byte) : State :=
  { s with mem := Memory.writeN s.mem a bs }

/-- The next free value of 32 bits (log 7). -/
def State.freeWord (s : State) : Word × State := (Config.freeWord s.free, { s with free := s.free + 1 })

/-- A field of `n` bytes of the job descriptor (R407). -/
def State.jobF (s : State) (off n : Nat) : Nat := fld s.job.desc off n

/-- A 48-bit address field of the job descriptor. -/
def State.jobA (s : State) (off : Nat) : Nat := s.jobF off 8 % 2 ^ 48

/-- R9: a refused or unlisted write leaves every register as it is; a taken one obeys the access code. -/
def RegDef.take (d : RegDef) (old v : Word) : Word :=
  let m := BitVec.ofNat 32 d.mask
  match d.acc with
  | .rw => (old &&& ~~~ m) ||| (v &&& m)
  | .lk => (old &&& ~~~ m) ||| (v &&& m)
  | .sb => (old &&& ~~~ m) ||| (v &&& m)
  | .w1c => old &&& ~~~ (v &&& m)
  | .ro => old
  | .wo => old

/-- R9: the plain effect of a write on the register with a key. -/
def State.plainWrite (s : State) (a : Nat) (v : Word) : State :=
  match famAt a with
  | none => s
  | some (f, o) =>
    match f.def? o with
    | none => s
    | some d => s.setReg a (d.take (s.reg a) v)

/-- R25, R409: the SOURCE of a block. -/
def blkSource (b : Nat) : Nat := 0x8000 + b

/-- R409: the SOURCE of the active hub: HB when HA's role reads lost (R542). -/
def State.hubSource (s : State) : Nat := if s.regN (safAt 0) % 4 = 2 then 0x8001 else 0x8000

/-- R372: MSI-X vector control word: masked when bit 0 is set; masked until the host writes it (log 16). -/
def State.vecMasked (s : State) (v : Nat) : Bool := bit (Tab.get s.host.msix (4 * v + 3) 1).toNat 0

/-- R374: the message of a vector leaves. -/
def State.sendVec (s : State) (v : Nat) : State :=
  { s with host := { s.host with
      sent := s.host.sent ++ [v]
      lastSent := Tab.set s.host.lastSent v s.now
      pba := s.host.pba.filter (· != v)
      waiting := s.host.waiting.filter (· != v) } }

/-- R374: a vector's source gains an entry. -/
def State.signal (s : State) (v : Nat) : State :=
  if !s.host.bme || s.host.d3hot || !s.host.linkUp || s.vecMasked v then
    { s with host := { s.host with pba := if s.host.pba.contains v then s.host.pba else s.host.pba ++ [v] } }
  else
    match Tab.get? s.host.lastSent v with
    | none => s.sendVec v
    | some t =>
      if (s.now - t).toNat < s.regN 0x28 % 2 ^ 16 then
        { s with host := { s.host with
            waiting := if s.host.waiting.contains v then s.host.waiting else s.host.waiting ++ [v] } }
      else s.sendVec v

/-- R409: the 64 bytes of an event entry. -/
def Event.bytes (e : Event) (seq lost : Nat) : List Byte :=
  leBytes 8 seq ++ leBytes 8 e.tick.toNat ++ leBytes 4 (e.code + e.shade * 2 ^ 16)
    ++ leBytes 4 (e.source + min lost 65535 * 2 ^ 16) ++ leBytes 4 e.heat ++ leBytes 4 e.attempt
    ++ fit 32 e.detail

/-- R382: the key of the page that holds a ring's HUB_EVT registers. -/
def ringPage : World → Nat
  | .ivory => mbxAt 0
  | .sable => mbxAt 8

/-- R365: BAR0 offset of a world's event ring. -/
def ringBase : World → Nat
  | .ivory => 0x1200000
  | .sable => 0x1210000

/-- R411: entries of a ring not yet freed. -/
def State.ringFill (s : State) (w : World) : Nat :=
  (s.reg (ringPage w + 0x40) - s.reg (ringPage w + 0x44)).toNat

/-- R411: an event of a ring is dropped and counted. -/
def State.ringDrop (s : State) (w : World) : State :=
  let s := s.count (ringPage w + 0x48) 1
  match w with
  | .ivory => { s with evt := { s.evt with lost0 := s.evt.lost0 + 1 } }
  | .sable => { s with evt := { s.evt with lost1 := s.evt.lost1 + 1 } }

/-- R410: an entry is written to a ring that has room. -/
def State.ringWrite (s : State) (w : World) (e : Event) : State :=
  let seq := (match w with | .ivory => s.evt.seq0 | .sable => s.evt.seq1) + 1
  let lost := match w with | .ivory => s.evt.lost0 | .sable => s.evt.lost1
  let s := { s with
    hubMem := Memory.writeN s.hubMem (ringBase w + 64 * ((seq - 1) % 1024)) (e.bytes seq lost)
    evt := match w with
      | .ivory => { s.evt with seq0 := seq, lost0 := 0 }
      | .sable => { s.evt with seq1 := seq, lost1 := 0 } }
  (s.setRegN (ringPage w + 0x40) seq).signal (match w with | .ivory => 0 | .sable => 1)

/-- R410, R411, R405: an event reaches one ring: Grey events may be suppressed by EVT_FILTER; a full ring
drops Grey and information events and keeps the others in the hub queue of 512. -/
def State.ringPut (s : State) (w : World) (e : Event) : State :=
  let mask := match w with | .ivory => s.evt.filter0 | .sable => s.evt.filter1
  if e.shade = 1 ∧ bit mask (e.code / 256) ∧ e.code / 256 < 10 then s
  else if s.ringFill w < 1024 then s.ringWrite w e
  else if e.shade ≤ 1 then s.ringDrop w
  else if s.evt.queue.length < 512 then
    { s with evt := { s.evt with queue := s.evt.queue ++ [(w, e)] } }
  else s.ringDrop w

/-- R405: the fault log keeps every Ochre and Crimson event and every pod loss of R19. -/
def logged (e : Event) : Bool := decide (2 ≤ e.shade) || e.code == 0x603 || e.code == 0x604

/-- R405, R411: the counts of SAFE_STATUS and the fault log take an event. -/
def State.logEvent (s : State) (iv sb : Bool) (e : Event) : State :=
  { s with evt := { s.evt with
      grey := s.evt.grey + b2n (e.shade == 1)
      ochre := s.evt.ochre + b2n (e.shade == 2)
      crimson := s.evt.crimson + b2n (e.shade == 3)
      lastCrimson := if e.shade = 3 then (if e.code = 0x600 then fld e.detail 0 2 else e.code) else s.evt.lastCrimson
      log := if logged e then (s.evt.log ++ [LogRec.mk e iv sb]).drop
                (s.evt.log.length + 1 - 4096) else s.evt.log
      logCount := s.evt.logCount + b2n (logged e) } }

/-- R409: an event as it happens now. -/
def State.event (s : State) (code shade source : Nat) (detail : List Byte) : Event :=
  { code := code, shade := shade, source := source, tick := s.now
    heat := if s.job.loaded then s.heat.num else 0
    attempt := if s.job.loaded then s.heat.attempt else 0
    detail := fit 32 detail }

/-- R410: an event of a world is raised: its ring, the fault log, the counts; a Crimson event goes to both
rings and signals vector 12. -/
def State.raise (s : State) (w : World) (code shade source : Nat) (detail : List Byte) : State :=
  let e := s.event code shade source detail
  if shade = 3 then
    (((s.logEvent true true e).ringPut .ivory e).ringPut .sable e).signal 12
  else
    (s.logEvent (w == .ivory) (w == .sable) e).ringPut w e

/-- R410: events of the hub itself and of the package go to the Ivory ring (log 17). -/
def State.raiseHub (s : State) (code shade : Nat) (detail : List Byte) : State :=
  s.raise .ivory code shade s.hubSource detail

/-- An event of the loaded job's world. -/
def State.raiseJob (s : State) (code shade source : Nat) (detail : List Byte) : State :=
  s.raise s.job.world code shade source detail

/-- R412: DETAIL of an ignored write: address, value, address space. -/
def ignoredDetail (a : Nat) (v : Word) (space : Nat) : List Byte :=
  leBytes 8 a ++ leBytes 8 v.toNat ++ leBytes 4 space

/-- R412: REG_IGNORED, in the space of the key (0 device address, 1 BAR0 offset). -/
def State.regIgnored (s : State) (w : World) (a : Nat) (v : Word) : State :=
  s.raise w 0x0002 1 s.hubSource (ignoredDetail a v (if a < 0x4000000 then 1 else 0))

/-- R22, R446, R412: ACCESS_REFUSED with the address and the status. -/
def State.refused (s : State) (w : World) (src a status : Nat) : State :=
  s.raise w 0x0300 1 src (leBytes 8 (a % 2 ^ 48) ++ leBytes 4 status)

/-- R540, R548, R411: a fault that voids the attempt in progress: its event with shade Ochre (at most eight
per attempt reach the rings), and the fault itself, which HEAT_VOID handles. Outside an attempt the
event keeps the shade of its row of R412. -/
def State.ochre (s : State) (w : World) (code shade src : Nat) (detail : List Byte) : State :=
  if s.heat.running then
    let e := s.event code 2 src detail
    let s := s.logEvent (w == .ivory) (w == .sable) e
    let s := if s.heat.ochres < 8 then s.ringPut w e else s
    { s with heat := { s.heat with
        voids := s.heat.voids ++ [{ tick := s.now, source := src, code := code }]
        ochres := s.heat.ochres + 1
        unrec := s.heat.unrec + b2n (decide (8 ≤ s.heat.ochres)) } }
  else s.raise w code shade src detail

/-- R411: queued events move to a ring while it has room; `n` bounds the number of moves. -/
def State.drainQueue : Nat → State → State
  | 0, s => s
  | n + 1, s =>
    match s.evt.queue with
    | [] => s
    | (w, e) :: t =>
      if s.ringFill w < 1024 then
        State.drainQueue n (({ s with evt := { s.evt with queue := t } }).ringWrite w e)
      else s

/-- The list of units for which something holds, folded over a state. -/
def State.forAll (s : State) (l : List Nat) (f : Nat → State → State) : State :=
  l.foldl (fun s i => f i s) s

/-- A fault or the next state, by a condition on the operands. -/
def guarded (ok : Bool) (s : State) : Host.Outcome State Fault Refusal :=
  if ok then .next s else .fault .noSuchUnit

end Sys2Proof.Machine
end

