-- ==== Sys2Proof/Machine/Access.lean ====
section
/-!
DEFINITION. Addresses, worlds and the checks of an access (R21 to R25, R221, R443 to R447, R586), and the
reads and writes of memory that pass them.
-/
namespace Sys2Proof.Machine

/-- R21, R23, R25: what lies at a device address. -/
inductive Place where
  | hbm
  | res
  | podSram (pod : Nat)
  | podReg (pod : Nat)
  | dieReg (die : Nat)
  | coreMem (c : Nat)
  | coreReg (c : Nat)
  | blkReg (b : Nat)
  | none
  deriving DecidableEq, Repr

/-- R18: EN_COUNT of a pod. -/
def State.enCount (s : State) (pod : Nat) : Nat := bits (Tab.get s.coreMap pod 0).toNat 21 17

/-- R18: POD_STATE of a pod's map word is dark. -/
def State.mapDark (s : State) (pod : Nat) : Bool := bits (Tab.get s.coreMap pod 0).toNat 23 22 == 2

/-- R24: the pod is dark, in the map or by a later loss. -/
def State.podDark (s : State) (pod : Nat) : Bool := s.mapDark pod || (s.pod pod).dark || (s.pod pod).retired

/-- R412: DETAIL of a pod's event. -/
def podDetail (p : Nat) : Nat := p / 12 + p % 12 * 256

/-- R24: the window of a logical core exists. -/
def State.coreExists (s : State) (c : Nat) : Bool :=
  decide (c % 16 < s.enCount (corePod c)) && !s.podDark (corePod c)

/-- R21 to R25: the place of an address; missing windows and unmapped addresses are `none`. Pod value 0xF is the
register window of the compute die; the spec lists no register in it, so all of it is reserved (R6, log 135). -/
def State.place (s : State) (a : Nat) : Place :=
  if a < 0xA000000000 then .hbm
  else if 0x10000000000 ≤ a ∧ a < 0x10080000000 then .res
  else if dieBase ≤ a ∧ a < dieBase + 0x2000000000 then
    let d := (a - dieBase) / 0x100000000
    let p := a / 0x10000000 % 16
    let o := a % 0x10000000
    if p = 15 then .dieReg d
    else if 12 ≤ p then .none
    else
      let pod := 12 * d + p
      if o < 0x400000 then (if s.mapDark pod then .none else .podSram pod)
      else if o < 0x500000 then
        (match podFam (o - 0x400000) with | some _ => .podReg pod | none => .none)
      else if 0x1000000 ≤ o ∧ o < 0x2000000 then
        let c := coreOf pod ((o - 0x1000000) / 0x100000)
        let x := o % 0x100000
        if !s.coreExists c then .none
        else if x < 0xAC000 then .coreMem c
        else match coreFam x with | some _ => .coreReg c | none => .none
      else .none
  else if blkBase ≤ a ∧ a < blkBase + 0x100000000 then
    let b := a / 0x1000000 % 0x100
    match blkFam b (a % 0x1000000) with
    | some _ => .blkReg b
    | none => .none
  else .none

/-- The place is a register window (R586). -/
def Place.isReg : Place → Bool
  | .podReg _ => true
  | .dieReg _ => true
  | .coreReg _ => true
  | .blkReg _ => true
  | _ => false

/-- R444: the world of a block address outside HBM and the reservoir. -/
def State.blockWorld (s : State) (a : Nat) : Place → World
  | .podSram p => if s.worlds.pods.contains p then .sable else .ivory
  | .podReg p => if s.worlds.pods.contains p then .sable else .ivory
  | .dieReg d => if s.worlds.dies.contains d then .sable else .ivory
  | .coreMem c => if s.worlds.pods.contains (corePod c) then .sable else .ivory
  | .coreReg c => if s.worlds.pods.contains (corePod c) then .sable else .ivory
  | .blkReg b =>
    if b ≤ 1 then .sable
    else if b = 0x20 ∨ b = 0x21 then (if s.worlds.rvs.contains (b - 0x20) then .sable else .ivory)
    else
      let e := b - 0x10
      let o := a % 0x1000000
      let sab := match blkFam b o with
        | some (.lnk, _) => s.worlds.ports.contains (4 * e + (o - 0x200000) / 0x1000)
        | some (.bsh, _) => s.worlds.chans.contains (8 * e + (o - 0x300000) / 0x1000)
        | some (.cq, _) => s.worlds.chans.contains (8 * e + (o - 0x380000) / 0x40)
        | some (.rly, _) => s.worlds.relays.contains e
        | _ => s.worlds.edges.contains e
      if sab then .sable else .ivory
  | _ => .ivory

/-- R445: the world of a pod's cores and shuttle. -/
def State.podWorld (s : State) (p : Nat) : World := if s.worlds.pods.contains p then .sable else .ivory

/-- R445: the world of an edge die's sweep units, gates and prefetch marks. -/
def State.edgeWorld (s : State) (e : Nat) : World := if s.worlds.edges.contains e then .sable else .ivory

/-- R445: the world of a relay engine. -/
def State.relayWorld (s : State) (e : Nat) : World := if s.worlds.relays.contains e then .sable else .ivory

/-- R445: the world of a bulk channel. -/
def State.chanWorld (s : State) (e ch : Nat) : World :=
  if s.worlds.chans.contains (8 * e + ch) then .sable else .ivory

/-- R444: the world of a port. -/
def State.portWorld (s : State) (p : Nat) : World := if s.worlds.ports.contains p then .sable else .ivory

/-- R230, R445: the world of a reservoir die. -/
def State.rvWorld (s : State) (r : Nat) : World := if s.worlds.rvs.contains r then .sable else .ivory

/-- R221, R258: how an access completes. -/
inductive AccSt where
  | ok
  | addrFault
  | denied
  | void
  deriving DecidableEq, Repr

/-- R218: the valid entries of a region table of `n` entries: base, size in bytes, flags word. -/
def regionWalk : Nat → List Byte → List (Nat × Nat × Nat)
  | 0, _ => []
  | _, [] => []
  | n + 1, b =>
    let fl := fld b 12 4
    let rest := regionWalk n (b.drop 16)
    if bit fl 0 then (fld b 0 8 % 2 ^ 48 / 0x200000 * 0x200000, fld b 8 4 % 2 ^ 20 * 0x200000, fl) :: rest else rest

/-- R218: the valid regions. -/
def State.regionList (s : State) : List (Nat × Nat × Nat) := regionWalk 256 s.regions

/-- R219: the region of a list that covers an address: base, size, flags. -/
def regionAt (l : List (Nat × Nat × Nat)) (a : Nat) : Option (Nat × Nat × Nat) :=
  l.find? fun r => decide (r.1 ≤ a ∧ a < r.1 + r.2.1)

/-- R219: the region that covers an address: base, size, flags. -/
def State.regionOf (s : State) (a : Nat) : Option (Nat × Nat × Nat) := regionAt s.regionList a

/-- R239: the frame of an HBM address is retired. -/
def State.frameRetired (s : State) (a : Nat) : Bool :=
  decide (a < 0xA000000000) && s.retired.any fun r => r.kind == 1 && r.frame == a / 0x1000000

/-- R221: the check of one HBM or reservoir byte. -/
def State.checkTier (s : State) (w : World) (a : Nat) : AccSt :=
  if s.frameRetired a then .addrFault
  else match s.regionOf a with
    | none => .denied
    | some (_, _, f) => if bit f 1 && w == .ivory then .denied else .ok

/-- The first failing check of a list, in order. -/
def firstBad : List AccSt → AccSt
  | [] => .ok
  | .ok :: t => firstBad t
  | x :: _ => x

/-- R22, R221, R446, R586: the check of an access of `n` bytes at `a` by an agent of world `w`. Worlds and
frames change only at 2 MiB boundaries, so each 2 MiB granule is checked once. -/
def State.check (s : State) (w : World) (a n : Nat) : AccSt :=
  if 2 ^ 48 ≤ a + n ∨ n = 0 then (if n = 0 then .ok else .addrFault)
  else
    let p := s.place a
    let q := s.place (a + n - 1)
    match p with
    | .none => .addrFault
    | .hbm | .res =>
      let g0 := a / 0x200000
      let g1 := (a + n - 1) / 0x200000
      firstBad ((List.range (g1 + 1 - g0)).map fun i =>
        let x := max a ((g0 + i) * 0x200000)
        match s.place x with
        | .hbm => s.checkTier w x
        | .res => s.checkTier w x
        | _ => .addrFault)
    | p =>
      if p.isReg ∧ ¬ (n = 4 ∧ a % 4 = 0) then .addrFault
      else if p ≠ q then .addrFault
      else if w == .ivory && s.blockWorld a p == .sable then .denied
      else .ok

/-- R214, R236: bytes of one error-correction word at an address. -/
def eccSize (a : Nat) : Nat := if a < 0xA000000000 then 32 else 8

/-- R214, R236: the range holds an uncorrectable sector or word. -/
def State.eccBad (s : State) (a n : Nat) : Bool :=
  s.badEcc.any fun b => decide (b < a + n ∧ a < b + eccSize b)

/-- R213: the reservoir die that holds a reservoir offset. -/
def resDie (o : Nat) : Nat := o / 4096 % 2

/-- R213: the offset within its die of a reservoir offset. -/
def resDieOffset (o : Nat) : Nat := o / 8192 * 4096 + o % 4096

/-- R220: stack and stack offset of an HBM address. -/
def State.stackOf (s : State) (a : Nat) : Nat × Nat :=
  match s.regionOf a with
  | some (b, n, f) =>
    if bit f 4 then ((a - b) / (n / 8), b / 8 + (a - b) % (n / 8))
    else (a / 4096 % 8, a / 32768 * 4096 + a % 4096)
  | none => (a / 4096 % 8, a / 32768 * 4096 + a % 4096)

/-- R220: the HBM address at an offset of a stack: the inverse of `State.stackOf`. -/
def State.stackAddr (s : State) (k o : Nat) : Nat :=
  let x := (o / 4096 * 8 + k) * 4096 + o % 4096
  match s.regionOf x with
  | some (b, n, f) => if bit f 4 then b + k * (n / 8) + (o - b / 8) else x
  | none => x

/-- R239: the row of an HBM address. -/
def State.rowAt (s : State) (a : Nat) : RowId :=
  let o := s.stackOf a
  let r := Config.rowOf o.1 o.2
  { stack := o.1, pc := r.1 % 32, bank := r.2.1 % 48, row := r.2.2 % 2 ^ 18 }

/-- R410, R445: the world of a protected word: that of its region, or of its pod. -/
def State.memWorld (s : State) (a : Nat) : World :=
  match s.place a with
  | .podSram p => s.podWorld p
  | _ =>
    match s.regionOf a with
    | some (_, _, f) => if bit f 1 then .sable else .ivory
    | none => .ivory

/-- R213, R220, R409: the SOURCE of the controller of a word: the edge die of its stack, its reservoir die, its pod
(log 22). -/
def State.memSource (s : State) (a : Nat) : Nat :=
  match s.place a with
  | .podSram p => coreOf p 0
  | .res => blkSource (0x20 + resDie (a - 0x10000000000))
  | _ => blkSource (edgeBlk ((s.stackOf a).1 / 2))

/-- R241: the order of the retirement list. -/
def rowBefore (a b : RowId) : Bool :=
  let k := fun (r : RowId) => ((r.stack * 32 + r.pc) * 64 + r.bank) * 2 ^ 18 + r.row
  decide (k a < k b)

/-- R241: an entry put in its place. -/
def insertRet (e : RetEntry) : List RetEntry → List RetEntry
  | [] => [e]
  | x :: t => if rowBefore e.row x.row then e :: x :: t else x :: insertRet e t

/-- R241: the 8 bytes of an entry. -/
def retBytes (e : RetEntry) : List Byte :=
  leBytes 8 (e.row.stack + e.row.pc * 2 ^ 3 + e.row.bank * 2 ^ 8 + e.row.row * 2 ^ 14 + e.kind * 2 ^ 32
    + e.origin * 2 ^ 34 + e.frame * 2 ^ 36)

/-- R239, R240: one of the 64 spare rows of the row's pseudo-channel is left. -/
def spareLeft (l : List RetEntry) (r : RowId) : Bool :=
  decide ((l.filter fun e => e.kind == 0 && e.row.stack == r.stack && e.row.pc == r.pc).length < 64)

/-- R240: a row is retired after commit: a spare takes it (KIND 0), or none is left (KIND 2) and
SPARES_EXHAUSTED is raised. -/
def State.retireRow (s : State) (r : RowId) (a : Nat) : State :=
  if !s.committed || decide (16384 ≤ s.retired.length) || s.retired.any (fun e => e.row == r && e.origin == 2) then s
  else
    let spare := spareLeft s.retired r
    let e : RetEntry := { row := r, kind := if spare then 0 else 2, origin := 2, frame := 0 }
    let s := { s with retired := insertRet e s.retired }
    if spare then s else s.raise (s.memWorld a) 0x0303 1 (s.memSource a) (retBytes e)

/-- R240: a corrected error strikes a sector; the fourth sector of a row in one scrub pass retires the row. -/
def State.rowStruck (s : State) (a : Nat) : State :=
  let r := s.rowAt a
  let hits := if s.scrub.hits.contains (r, a) then s.scrub.hits else s.scrub.hits ++ [(r, a)]
  let s := { s with scrub := { s.scrub with hits := hits } }
  if 4 ≤ (hits.filter fun h => h.1 == r).length then s.retireRow r a else s

/-- R214, R236: one corrected word or sector: written back, raised, counted. -/
def State.mendWord (s : State) (a : Nat) : State :=
  let s := ({ s with soft := s.soft.filter (· != a) }).raise (s.memWorld a) 0x0301 1 (s.memSource a) (leBytes 8 a)
  if a < 0xA000000000 then s.rowStruck a
  else if 0x10000000000 ≤ a ∧ a < 0x10080000000 then s.count (poolAt + 8) 1
  else s

/-- R214, R236: a read of a range corrects what it meets. -/
def State.mend (s : State) (a n : Nat) : State :=
  s.forAll (s.soft.filter fun b => decide (b < a + n ∧ a < b + eccSize b)) fun b s => s.mendWord b

/-- R214, R236: an error strikes a word: it has one bad bit or symbol now, or is beyond correction; two are. -/
def State.strike (s : State) (hard : Bool) (a : Nat) : State :=
  if s.badEcc.contains a then s
  else if hard || s.soft.contains a then { s with soft := s.soft.filter (· != a), badEcc := s.badEcc ++ [a] }
  else { s with soft := s.soft ++ [a] }

/-- R214, R236: a cell upset at a protected word or sector (log 147). -/
def State.upset (s : State) : State :=
  let t := { s with free := s.free + 1 }
  match Config.upset s.free with
  | none => t
  | some (hard, a) =>
    let there := match s.place a with
      | .hbm => a % 32 == 0
      | .res => a % 8 == 0
      | .podSram _ => a % 8 == 0
      | _ => false
    if there then t.strike hard a else t

/-- R215: PIN of an entry's allocation flags: it is never evicted. -/
def PoolEnt.pinned (e : PoolEnt) : Bool := bit e.flags 3

/-- R225, R230: units that a client holds. -/
def State.poolUsed (s : State) (c : Nat) : Nat :=
  ((s.pool.ents.filter (·.client == c)).map (·.us.length)).sum

/-- R230: free units of the pool. -/
def State.poolFree (s : State) : Nat :=
  32768 - s.pool.near.length - (s.pool.ents.map (·.us.length)).sum

/-- R230: the registers of a client of the pool. -/
def cliAt (c : Nat) : Nat := poolAt + 0x100 + 0x20 * c

/-- R230: the pool registers follow the pool. -/
def State.poolRefresh (s : State) : State :=
  let s := (s.setRegN poolAt (32768 - s.pool.near.length)).setRegN (poolAt + 4) s.poolFree
  s.forAll (List.range 4) fun c s =>
    let u := s.poolUsed c
    ((s.setRegN (cliAt c) u).setRegN (cliAt c + 4)
      (((s.pool.ents.filter fun e => e.client == c && e.pinned).map (·.us.length)).sum)).setRegN (cliAt c + 8)
      (max u (s.regN (cliAt c + 8)))

/-- R233: channel 7 of an edge die is active while it fills an entry of the pool. -/
def State.fillRefresh (s : State) : State :=
  s.forAll (List.range 4) fun e s =>
    if bit (s.regN (bshAt e 7 + 0x44)) 2 then
      s.putField (bshAt e 7 + 0x44) 0 0 (b2n (s.pool.ents.any fun x => x.client == 0 && x.age.isNone && x.tag % 4 == e))
    else s

/-- R234: the entry copies bytes of a range. -/
def PoolEnt.copies (e : PoolEnt) (a n : Nat) : Bool := e.client == 0 && decide (e.src < a + n ∧ a < e.src + e.len)

/-- R234: entries of the prefetch client that overlap a written range are discarded; a fill in progress is abandoned. -/
def State.discardFills (s : State) (a n : Nat) : State :=
  if s.pool.ents.any fun e => e.copies a n then
    ({ s with pool := { s.pool with ents := s.pool.ents.filter fun e => !e.copies a n } }).poolRefresh.fillRefresh
  else s

/-- R230: a read that the entry of a STASH, GATHER or SCRATCH client serves is counted. -/
def State.clientHit (s : State) (a : Nat) : State :=
  if 0x10000000000 ≤ a ∧ a < 0x10080000000 then
    match s.pool.ents.find? fun e => e.client != 0 && e.us.contains ((a - 0x10000000000) / 65536) with
    | some e => s.count (cliAt e.client + 0x14) 1
    | none => s
  else s

/-- R214, R230, R236: what a read of a range that passed its check leaves behind. -/
def State.readSeen (s : State) (a n : Nat) : State := (s.mend a n).clientHit a

/-- R234, R237: bytes that arrive in memory: prefetch entries over them are discarded, words and sectors wholly
written become sound again. -/
def State.arrive (s : State) (a : Nat) (bs : List Byte) : State :=
  let s := s.discardFills a bs.length
  let keep := fun (b : Nat) => !decide (a ≤ b ∧ b + eccSize b ≤ a + bs.length)
  ({ s with soft := s.soft.filter keep, badEcc := s.badEcc.filter keep }).store a bs

/-- The first uncorrectable sector or word at or behind an address. -/
def State.badAt (s : State) (a : Nat) : Nat :=
  (s.badEcc.foldl (fun (m : Option Nat) b =>
    if a < b + eccSize b then some (match m with | some x => min x b | none => b) else m) none).getD a

/-- R214, R236, R237, R240: a read meets a word that the code cannot correct: an Ochre fault of the attempt, which notes
the address; the row of an HBM sector is retired. -/
def State.eccVoid (s : State) (w : World) (src a : Nat) : State :=
  let b := s.badAt a
  let s := if s.heat.running then { s with twin := { s.twin with lostAt := s.twin.lostAt ++ [b] } } else s
  let s := s.ochre w 0x0302 2 src (leBytes 8 a)
  if b < 0xA000000000 then s.retireRow (s.rowAt b) b else s

/-- R22, R221: the status code that a refusal is logged with (R258). -/
def AccSt.code : AccSt → Nat
  | .ok => 0
  | .addrFault => 4
  | .denied => 2
  | .void => 3

/-- The check of a read of memory (not of a register): the result of `check`, VOID where the bytes cannot
be corrected. -/
def State.checkRead (s : State) (w : World) (a n : Nat) : AccSt :=
  match s.check w a n with
  | .ok => if s.eccBad a n then .void else .ok
  | x => x

/-- An access that failed is logged: ACCESS_REFUSED, or the Ochre fault of R214 and R236. -/
def State.logFail (s : State) (w : World) (src a : Nat) : AccSt → State
  | .ok => s
  | .void => s.eccVoid w src a
  | x => s.refused w src a x.code

/-- R63: the address of a scale-book entry of the loaded job. -/
def State.sbAddr (s : State) (t : Nat) : Nat := s.jobA 0x18 + 128 * t

/-- R63: the entry's index lies below the job's count and its TENSOR_ID matches. -/
def State.sbOk (s : State) (t : Nat) : Bool :=
  s.job.loaded && decide (t < s.jobF 0x20 3) && s.word (s.sbAddr t) 3 == t

/-- R58, R59: the exponent of a tensor's scale in force: INIT_EXP, in the range of R45, while HIST_COUNT is 0; else
TEXP. A FIXED entry keeps no history, and its TEXP never changes: TEXP as the run-time left it (DESIGN CHOICE,
log 138). -/
def State.sbTexp (s : State) (t : Nat) : Int :=
  let w := s.word (s.sbAddr t + 4) 4
  if bits w 16 12 = 0 ∧ bit w 21 = false then max (-126) (min 127 (s8 (s.word (s.sbAddr t + 8) 1)))
  else s8 (s.word (s.sbAddr t + 9) 1)

/-- R58: HEADROOM of an entry. -/
def State.sbHead (s : State) (t : Nat) : Nat := bits (s.word (s.sbAddr t + 4) 4) 11 8

/-- R58: ERR_SCALE of an entry. -/
def State.sbErr (s : State) (t : Nat) : Word := BitVec.ofNat 32 (s.word (s.sbAddr t + 12) 4)

/-- R167: the freeze-table entry of a tensor: its address. -/
def State.freezeEntry (s : State) (t : Nat) : Option Nat :=
  ((List.range (s.jobF 0x38 4)).map fun i => s.jobA 0x30 + 16 * i).find? fun a => s.word a 3 == t

/-- R167: CLASS of a weight tensor: 0 TRAIN, 1 FROZEN, 2 PARTIAL. -/
def State.freezeClass (s : State) (t : Nat) : Nat :=
  match s.freezeEntry t with
  | some a => s.word (a + 3) 1 % 4
  | none => 0

/-- R60: AMAX_CUR of an entry rises to the largest finite magnitude of some values; R168: not that of a FROZEN tensor,
whose entry never changes. -/
def State.sbAmax (s : State) (t : Nat) (xs : List FVal) : State :=
  let a := s.sbAddr t + 0x10
  let cur := f32Val (BitVec.ofNat 32 (s.word a 4))
  let m := (xs.filter FVal.finite).foldl (fun m x => magMax m x.abs) cur
  if m = cur ∨ s.freezeClass t = 1 then s else s.arrive a (leBytes 4 m.toF32.toNat)

/-- R186: SHARD_COUNT. -/
def State.shardCount (s : State) : Nat := s.jobF 0x64 2

/-- R187, R556: address of the entry of shard index `i`: the shard table, then the baton map. -/
def State.shAddr (s : State) (i : Nat) : Nat :=
  if i < s.shardCount then s.jobA 0x68 + 64 * i else s.job.batonTable + 64 * (i - s.shardCount)

/-- R187: TENSOR. -/
def State.shTensor (s : State) (i : Nat) : Nat := s.word (s.shAddr i) 3
/-- R187: UNIT. -/
def State.shUnit (s : State) (i : Nat) : Nat := bits (s.word (s.shAddr i) 4) 27 24
/-- R187: OPT. -/
def State.shOpt (s : State) (i : Nat) : Nat := s.word (s.shAddr i + 4) 1
/-- R187: HANDLE. -/
def State.shHandle (s : State) (i : Nat) : Nat := bits (s.word (s.shAddr i + 4) 4) 11 8
/-- R187: PARAM. -/
def State.shParam (s : State) (i : Nat) : Nat := bits (s.word (s.shAddr i + 4) 4) 15 12
/-- R187: GATE. -/
def State.shGate (s : State) (i : Nat) : Nat := bits (s.word (s.shAddr i + 4) 4) 23 16
/-- R187: TWIN. -/
def State.shTwin (s : State) (i : Nat) : Bool := bit (s.word (s.shAddr i + 4) 4) 24
/-- R187: FIRST. -/
def State.shFirst (s : State) (i : Nat) : Nat := s.word (s.shAddr i + 8) 8 % 2 ^ 42
/-- R187: COUNT. -/
def State.shCount (s : State) (i : Nat) : Nat := s.word (s.shAddr i + 0x10) 4
/-- R187: W_ADDR. -/
def State.shW (s : State) (i : Nat) : Nat := s.word (s.shAddr i + 0x18) 6
/-- R187: M_ADDR. -/
def State.shM (s : State) (i : Nat) : Nat := s.word (s.shAddr i + 0x20) 6
/-- R187: V_ADDR. -/
def State.shV (s : State) (i : Nat) : Nat := s.word (s.shAddr i + 0x28) 6
/-- R187: E_ADDR. -/
def State.shE (s : State) (i : Nat) : Nat := s.word (s.shAddr i + 0x30) 6
/-- R187: GSUM_ADDR of a shard; TWIN_SHARD of a baton entry (R556). -/
def State.shG (s : State) (i : Nat) : Nat := s.word (s.shAddr i + 0x38) 6
/-- R187: blocks of a shard. -/
def State.shBlocks (s : State) (i : Nat) : Nat := ceilDiv (s.shCount i) 32

/-- The lowest shard of the shard table with a tensor; SHARD_COUNT where none has it. -/
def State.shardOfTensor (s : State) (t : Nat) : Nat :=
  ((List.range s.shardCount).find? fun i => s.shTensor i == t).getD s.shardCount

/-- R184: the shard of the device that owns element `e` of a tensor; else the tensor's lowest shard. -/
def State.shardOfElem (s : State) (t e : Nat) : Nat :=
  ((List.range s.shardCount).find? fun i =>
    s.shTensor i == t && decide (s.shFirst i ≤ e ∧ e < s.shFirst i + s.shCount i)).getD (s.shardOfTensor t)

/-- R160: HOME of home-list entry `i`. -/
def State.homeAddr (s : State) (i : Nat) : Nat := s.word (s.jobA 0x28 + 16 * i + 8) 6
/-- R160: TENSOR of home-list entry `i`. -/
def State.homeTensor (s : State) (i : Nat) : Nat := s.word (s.jobA 0x28 + 16 * i) 3
/-- R160: TILE of home-list entry `i`. -/
def State.homeTile (s : State) (i : Nat) : Nat := s.word (s.jobA 0x28 + 16 * i + 4) 4

/-- R185: a late lap: LATE_LAP in EDG_SWP_TROUBLE of the shard's unit, the event, the void. -/
def State.lateLap (s : State) (src shard lap : Nat) : State :=
  let s := if shard < s.shardCount then s.raiseBits (swpAt (s.shUnit shard) + 0x18) 0x10 else s
  s.ochre s.job.world 0x0205 2 src (leBytes 4 (shard % 65536) ++ leBytes 4 lap)

/-- R166, R185: a write of `n` bytes at `a` reaches a home that the gradient path has read: a late lap. -/
def State.lateHome (s : State) (src a n : Nat) : State :=
  match s.gates.homesRead.find? fun i => decide (s.homeAddr i < a + n ∧ a < s.homeAddr i + 4096) with
  | none => s
  | some i => s.lateLap src (s.shardOfTensor (s.homeTensor i)) 0

end Sys2Proof.Machine
end

