-- ==== Sys2Proof/Machine/Kernel.lean ====
section
/-!
DEFINITION. The core's kernel machinery: fetch, the kernel instruction formats (R118 to R139), exceptions
(R140, R141), starting and stopping (R154), the sliver queue (R145 to R148, R151).
-/
namespace Sys2Proof.Machine

/-- R119, R121, R126, R135, R139: what an instruction word is. -/
inductive KOp where
  | acfg
  | lds
  | stream
  | promote
  | drain
  | qstore
  | await
  | vec (vop : Nat)
  | shq
  | shwait
  | slvTake
  | slvTurn
  | slvDone
  | hrdArrive
  | hrdWait
  | ksync
  | sbTexp
  | sbErrs
  | sbRead
  | sbAmax
  | scalar
  | illegal
  deriving DecidableEq, Repr

/-- R119: the fields of an instruction word. -/
def iOp (w : Nat) : Nat := bits w 6 0
/-- R119: rd, also K5. -/
def iRd (w : Nat) : Nat := bits w 11 7
/-- R119: funct3. -/
def iF3 (w : Nat) : Nat := bits w 14 12
/-- R119: rs1. -/
def iRs1 (w : Nat) : Nat := bits w 19 15
/-- R119: rs2. -/
def iRs2 (w : Nat) : Nat := bits w 24 20
/-- R119: K7. -/
def iK7 (w : Nat) : Nat := bits w 31 25

/-- A KOp, where a condition on the reserved fields holds (R120). -/
def legal (ok : Bool) (k : KOp) : KOp := if ok then k else .illegal

/-- R121: the array class. -/
def kopArray (w : Nat) : KOp :=
  let r1 := iRs1 w == 0
  let r2 := iRs2 w == 0
  let k5 := iRd w == 0
  match iF3 w with
  | 0 => legal (bits w 30 25 == 0 && r2 && k5) .acfg
  | 1 => legal (!bit w 25) .lds
  | 2 => legal (bits w 29 25 == 0) .stream
  | 3 => legal (bits w 28 27 == 0 && r1 && r2 && k5) .promote
  | 4 => legal (bits w 27 25 == 0 && bits w 29 28 != 3 && (bits w 29 28 == 2 || k5)) .drain
  | 5 => legal (bits w 28 25 == 0) .qstore
  | 6 => legal (bits w 30 25 == 0 && r1 && r2) .await
  | _ => .illegal

/-- R126: the fields of a vector instruction. -/
def vOp (w : Nat) : Nat := bits w 31 26
/-- R126: RS. -/
def vRs (w : Nat) : Nat := bits w 25 21
/-- R126: BC. -/
def vBc (w : Nat) : Nat := bits w 20 19
/-- R126: MEN. -/
def vMen (w : Nat) : Bool := bit w 18
/-- R126: MK. -/
def vMk (w : Nat) : Nat := bits w 17 14
/-- R126: VR. -/
def vVr (w : Nat) : Bool := bit w 13
/-- R126: TB. -/
def vTb (w : Nat) : Nat := bits w 12 11
/-- R126: TA. -/
def vTa (w : Nat) : Nat := bits w 10 9
/-- R126: TD. -/
def vTd (w : Nat) : Nat := bits w 8 7

/-- R127, R128: which of TA, B, RS (of its own) and MK (as a destination or a source of its own) a vector
operation uses in tile form; none for a VOP that the table does not list. -/
def vUses (op : Nat) : Option (Bool × Bool × Bool × Bool) :=
  if op ≤ 5 then some (true, true, false, false)
  else if op = 6 then some (false, true, false, false)
  else if op = 7 then some (true, true, false, true)
  else if op ≤ 0xD then some (true, false, false, false)
  else if 0x10 ≤ op ∧ op ≤ 0x12 then some (true, true, false, true)
  else if 0x18 ≤ op ∧ op ≤ 0x1B then some (false, false, true, true)
  else if op = 0x1C then some (false, false, false, true)
  else if op = 0x1D ∨ op = 0x1E then some (false, false, true, true)
  else if 0x20 ≤ op ∧ op ≤ 0x23 then some (true, false, false, false)
  else if op = 0x24 then some (true, false, true, false)
  else if op = 0x28 ∨ op = 0x29 then some (true, false, true, false)
  else if op = 0x2A ∨ op = 0x2B then some (false, false, true, false)
  else if op = 0x2C then some (true, false, false, false)
  else if op = 0x30 then some (false, false, true, true)
  else if op = 0x31 then some (false, false, false, false)
  else none

/-- R120, R127, R128: a vector instruction word is legal. -/
def vLegal (w : Nat) : Bool :=
  match vUses (vOp w) with
  | none => false
  | some (a, b, r, m) =>
    if vVr w then
      (decide (vOp w ≤ 0xD) && vOp w != 7) && (vTa w == 0) && (vTb w == 0) && (vBc w == 0)
        && (decide (vOp w ≤ 6) || vRs w == 0) && (vMen w || vMk w == 0)
    else
      (a || vTa w == 0) && (b || vBc w == 0) && ((b && vBc w == 0) || vTb w == 0)
        && (r || (b && vBc w == 3) || vRs w == 0) && (m || vMen w || vMk w == 0)
        && !(m && vMen w)

/-- R135: the shuttle, sliver, hurdle and sync class. -/
def kopSync (w : Nat) : KOp :=
  let k7 := iK7 w == 0
  let r1 := iRs1 w == 0
  let r2 := iRs2 w == 0
  let k5 := iRd w == 0
  match iF3 w with
  | 0 => legal (k7 && r2) .shq
  | 1 => legal (k7 && r2 && k5) .shwait
  | 2 => legal (k7 && r1 && r2) .slvTake
  | 3 => legal (k7 && r2 && k5) .slvTurn
  | 4 => legal (k7 && r2 && k5) .slvDone
  | 5 => legal (k7 && r2 && k5) .hrdArrive
  | 6 => legal (k7 && r2 && k5) .hrdWait
  | _ => legal (k7 && r1 && k5) .ksync

/-- R139: the scale-book class. -/
def kopBook (w : Nat) : KOp :=
  let k7 := iK7 w == 0
  match iF3 w with
  | 0 => legal (k7 && iRs2 w == 0) .sbTexp
  | 1 => legal (k7 && iRs2 w == 0) .sbErrs
  | 2 => legal k7 .sbRead
  | 3 => legal (k7 && iRd w == 0) .sbAmax
  | _ => .illegal

/-- R118: the class of an instruction word; what no custom opcode holds is scalar. -/
def kop (w : Nat) : KOp :=
  if iOp w = 0x0B then kopArray w
  else if iOp w = 0x2B then legal (vLegal w) (.vec (vOp w))
  else if iOp w = 0x5B then kopSync w
  else if iOp w = 0x7B then kopBook w
  else .scalar

/-- R109: a scalar register. -/
def State.x (s : State) (c r : Nat) : Word := if r = 0 then 0 else (s.core c).x.getD r 0

/-- R109: a scalar register written; x0 discards. -/
def Core.putX (k : Core) (r : Nat) (v : Word) : Core :=
  if r = 0 then k else { k with x := setAt 0 k.x r v }

/-- R153: CORE_STATE. -/
def State.coreState (s : State) (c : Nat) : Nat := s.regN (ctlAt c + 4)

/-- R153: CORE_STATE set. -/
def State.setCoreState (s : State) (c n : Nat) : State := s.setRegN (ctlAt c + 4) n

/-- R153: CORE_CTRL.RUN and PARK. -/
def State.runBit (s : State) (c : Nat) : Bool := bit (s.regN (ctlAt c + 8)) 0
/-- R153: CORE_CTRL.PARK. -/
def State.parkBit (s : State) (c : Nat) : Bool := bit (s.regN (ctlAt c + 8)) 1

/-- R113, R114: the instruction word at a core's pc and its length, none when the fetch leaves instruction
memory. -/
def State.fetch (s : State) (c : Nat) : Option (Nat × Nat) :=
  let pc := (s.core c).pc.toNat
  if 0xA0000 ≤ pc ∧ pc + 2 ≤ 0xA8000 then
    let h := s.word (coreBase c + pc) 2
    if h % 4 ≠ 3 then some (h, 2)
    else if pc + 4 ≤ 0xA8000 then some (s.word (coreBase c + pc) 4, 4)
    else none
  else none

/-- R473, R474: the pod's cores are usable: POD_PWR_STATE reads on. -/
def State.podOn (s : State) (p : Nat) : Bool := s.regN (podPwrAt p) % 4 == 2

/-- R111, R154, R473: the core may issue: it exists, its pod is on, it runs or waits in an instruction (or idles under PARK),
RUN is 1, no repeat trap waits. -/
def State.issues (s : State) (c : Nat) : Bool :=
  s.coreExists c && s.podOn (corePod c) && s.runBit c && (s.core c).trap.isNone &&
    (s.coreState c == 1 || s.coreState c == 2 || (s.coreState c == 0 && (s.core c).parked))

/-- R106: array `a` of a core. -/
def State.arr (s : State) (c a : Nat) : Arr := if a = 0 then (s.core c).a0 else (s.core c).a1

/-- R94, R106: HEAD_WAIT: the head holds a token's wavefront. -/
def Arr.headWait (r : Arr) : Bool := r.tok.isSome

/-- R106: ARR_STATUS of an array. A STREAM that waits for its first set has left the queue (log 10). -/
def Arr.status (r : Arr) : Nat :=
  b2n (r.held.isSome || r.headWait || !r.queue.isEmpty) + 2 * b2n r.onDeck.valid + 4 * b2n r.headWait
    + 8 * b2n r.active.valid + 16 * min r.queue.length 8

/-- An array replaced, with its ARR_STATUS. -/
def State.setArr (s : State) (c a : Nat) (r : Arr) : State :=
  (s.onCore c fun k => if a = 0 then { k with a0 := r } else { k with a1 := r }).setRegN
    (arrAt c a + 8) r.status

/-- R116, R155: the vector engine's queue replaced, with VEC_STATUS. -/
def State.setVq (s : State) (c : Nat) (l : List QIns) : State :=
  (s.onCore c fun k => { k with vq := l }).setRegN (vecAt c) (b2n (!l.isEmpty) + 2 * min l.length 8)

/-- R137: the array has nothing in flight or queued. -/
def Arr.idle (r : Arr) : Bool := r.held.isNone && !r.headWait && r.queue.isEmpty

/-- R96: a token waits at the head, the on-deck set is empty and no LDS is queued. -/
def Arr.starved (r : Arr) : Bool :=
  r.headWait && !r.onDeck.valid && !r.queue.any fun q => kop q.w == .lds

/-- R141, R154: what waits in an array's queue, or at its head without having started, is discarded. -/
def Arr.discard (r : Arr) : Arr := { r with queue := [], held := none }

/-- R141, R144: a halting exception discards the queued instructions of the core's units and a repeat trap that has
not restarted the sliver yet. -/
def Core.discard (k : Core) : Core :=
  { k with vq := [], trap := none, a0 := k.a0.discard, a1 := k.a1.discard }

/-- R106, R155: ARR_STATUS of both arrays and VEC_STATUS follow the core's queues. -/
def State.showUnits (s : State) (c : Nat) : State :=
  ((s.setArr c 0 (s.arr c 0)).setArr c 1 (s.arr c 1)).setVq c (s.core c).vq

/-- R153: the causes whose CORE_EXC_INFO is a faulting address. -/
def addrCause (cause : Nat) : Bool := [1, 4, 5, 6, 7, 29].contains cause

/-- R120, R141, R144: the core halts on an exception of the instruction at `pc`: its units' queues are discarded, the
exception registers written, the hub notified (CORE_EXCEPTION), the attempt voided. CORE_STATE reads 3 at once; a
token's wavefront still in flight ends with its HEAD_RELEASE (log 11). The spec gives CORE_EXC_INFO for addresses
only; the other causes leave a free value there (log 61). -/
def State.exceptionAt (s : State) (c cause info pc : Nat) : State :=
  let b := ctlAt c
  let q := if addrCause cause then (BitVec.ofNat 32 info, s) else s.freeWord
  let s := ((q.2.onCore c Core.discard).showUnits c).setCoreState c 3
  let s := ((s.setRegN (b + 0x10) cause).setRegN (b + 0x14) pc).setReg (b + 0x18) q.1
  s.ochre s.job.world 0x0210 2 c (leBytes 4 c ++ leBytes 4 cause ++ leBytes 4 pc ++ leBytes 4 q.1.toNat)

/-- R141: the core halts on an exception of the instruction at its pc. -/
def State.exception (s : State) (c cause info : Nat) : State := s.exceptionAt c cause info (s.core c).pc.toNat

/-- An instruction waits: CORE_STATE 2, the pc stays. -/
def State.wait (s : State) (c : Nat) : State := s.setCoreState c 2

/-- An instruction retires: the core runs on at a new pc, with one register written. -/
def State.retireAt (s : State) (c : Nat) (pc : Word) (rd : Nat) (v : Word) : State :=
  (s.onCore c fun k => { k.putX rd v with pc := pc, retired := k.retired + 1, parked := false }).setCoreState c 1

/-- A kernel-extension instruction retires; the next one follows it. -/
def State.retire (s : State) (c : Nat) (rd : Nat) (v : Word) : State :=
  s.retireAt c ((s.core c).pc + 4) rd v

/-- A row of the kernel extension: it acts when the instruction at the core's pc is the row's. -/
def kernelRow (c : Nat) (want : KOp → Bool) (f : Nat → State → State) (s : State) : State :=
  if s.issues c then
    match s.fetch c with
    | some (w, _) => if want (kop w) then f w s else s
    | none => s
  else s

/-- R137: the units of a mask have finished; bit 3 asks for CORE_SHU_DONE = CORE_SHU_ISSUED. The scale-book port
finishes each instruction as it issues (log 10). -/
def State.synced (s : State) (c units : Nat) : Bool :=
  (!bit units 0 || (s.arr c 0).idle) && (!bit units 1 || (s.arr c 1).idle)
    && (!bit units 2 || (s.core c).vq.isEmpty)
    && (!bit units 3 || s.reg (ctlAt c + 0x28) == s.reg (ctlAt c + 0x2C))

/-- R96, R140: handoff empty in an array: its PC is that of the STREAM whose token waits (log 11). -/
def State.starve (s : State) (c a : Nat) : State :=
  s.exceptionAt c 25 0 (match (s.arr c a).tok with
    | some k => k.pc.toNat
    | none => (s.core c).pc.toNat)

/-- R96, R137: an instruction that waits for units: a starved array among them raises handoff empty
(log 11). -/
def State.syncThen (s : State) (c units : Nat) (f : State → State) : State :=
  if bit units 0 && (s.arr c 0).starved then s.starve c 0
  else if bit units 1 && (s.arr c 1).starved then s.starve c 1
  else if s.synced c units then f s
  else s.wait c

/-- R154: an array of a core that starts afresh: nothing queued, nothing at the head. -/
def Arr.afresh (r : Arr) : Arr := { r.discard with tok := none }

/-- R154: the core starts at CORE_START_PC. -/
def State.coreStart (s : State) (c : Nat) : State :=
  let b := ctlAt c
  let s := (((s.setRegN (b + 0x10) 0).setRegN (b + 0x14) 0).setRegN (b + 0x18) 0)
  let s := s.onCore c fun k => { k with
    x := [], pc := BitVec.ofNat 32 (0xA0000 + s.regN (b + 0xC)), retired := 0, parked := false
    trap := none, inSliver := false, arrived := [], vq := [], a0 := k.a0.afresh, a1 := k.a1.afresh }
  (s.showUnits c).setCoreState c 1

/-- R154: RUN is 0 and the units have finished: the core stops. A stop that has to wait is tried again whenever a unit
or the shuttle port finishes work. -/
def State.stopIfDone (s : State) (c : Nat) : State :=
  if !s.runBit c && (s.coreState c == 1 || s.coreState c == 2 || (s.core c).parked) && (s.core c).trap.isNone
      && s.synced c 0x1F then
    (s.onCore c fun k => { k with parked := false }).setCoreState c (if s.coreState c = 3 then 3 else 0)
  else s

/-- R154: a write of 1 to RUN: a core whose CORE_STATE is 0 starts, one that is halted starts afresh. -/
def State.runWrite (s : State) (c : Nat) : State :=
  let st := s.coreState c
  let s1 := s.raiseBits (ctlAt c + 8) 1
  if st = 3 ∨ st = 0 then s1.coreStart c else s1

/-- R154: a write of 0 to RUN. -/
def State.stopWrite (s : State) (c : Nat) : State := (s.dropBits (ctlAt c + 8) 1).stopIfDone c

/-- R147: PARK set or cleared by the cap or a store. -/
def State.parkWrite (s : State) (c : Nat) (park : Bool) : State :=
  if park then s.raiseBits (ctlAt c + 8) 2 else s.dropBits (ctlAt c + 8) 2

/-! The unit queues (R116) and the interlock of the tile buffers, V and the mask registers (R117). A resource is
numbered: tile buffer `n` is `n`, V is 4, mask register `m` is `5 + m`. -/

/-- R113: the tile buffer at a local address. -/
def tileAt (addr : Nat) : Option Nat :=
  if 0xA8000 ≤ addr ∧ addr < 0xAC000 ∧ addr % 0x1000 = 0 then some ((addr - 0xA8000) / 0x1000) else none

/-- R117, R126 to R128: the resources that a vector instruction reads. -/
def vReads (w : Nat) : List Nat :=
  let op := vOp w
  if vVr w then [4] ++ (if vMen w then [5 + vMk w] else [])
  else
    (match vUses op with
      | some (a, b, _, m) =>
        (if a then [vTa w] else [])
          ++ (if b then (if vBc w = 0 then [vTb w] else if vBc w ≤ 2 then [4] else []) else [])
          ++ (if m then [5 + vMk w] else [])
      | none => [])
      ++ (if 0x18 ≤ op ∧ op ≤ 0x1B then [5 + vRs w % 16] else [])
      ++ (if op = 3 ∨ op = 0x2A ∨ op = 0x2B ∨ vMen w then [vTd w] else [])
      ++ (if op = 0x2A ∨ op = 0x2B then [4] else [])
      ++ (if vMen w then [5 + vMk w] else [])

/-- R117, R127, R128: the resources that a vector instruction writes. -/
def vWrites (w : Nat) : List Nat :=
  let op := vOp w
  if vVr w then [4]
  else if (0x10 ≤ op ∧ op ≤ 0x1E) ∨ op = 0x30 then [5 + vMk w]
  else if 0x20 ≤ op ∧ op ≤ 0x23 ∨ op = 0x28 ∨ op = 0x29 then [4]
  else if op = 0x24 then []
  else [vTd w]

/-- R117: the resources that an instruction of an array or of the vector engine reads. -/
def QIns.reads (q : QIns) : List Nat :=
  match kop q.w with
  | .stream => (tileAt q.x1.toNat).toList
  | .qstore => [bits q.w 30 29]
  | .vec _ => vReads q.w
  | _ => []

/-- R117: the resources that such an instruction writes. -/
def QIns.writes (q : QIns) : List Nat :=
  match kop q.w with
  | .drain => if bits q.w 29 28 = 0 ∧ q.x1.toNat < 4 then [q.x1.toNat] else []
  | .vec _ => vWrites q.w
  | _ => []

/-- R117: an access that reads `rd` and writes `wr` has to wait for an earlier instruction. -/
def QIns.blocks (q : QIns) (rd wr : List Nat) : Bool :=
  rd.any q.writes.contains || wr.any fun x => q.reads.contains x || q.writes.contains x

/-- R116: the issued instructions of a core that have not completed their accesses to tile buffers, V and the
masks. -/
def Core.waiting (k : Core) : List QIns :=
  k.a0.queue ++ k.a1.queue ++ k.vq ++ (k.a0.held.map (·.q)).toList ++ (k.a1.held.map (·.q)).toList

/-- R117: an access of place `n` in the issue order that reads `rd` and writes `wr` waits for no earlier one. -/
def Core.clear (k : Core) (n : Nat) (rd wr : List Nat) : Bool :=
  !k.waiting.any fun q => decide (q.seq < n) && q.blocks rd wr

/-- R117: the resources that `n` bytes at a core-local address hold. -/
def localRes (a n : Nat) : List Nat :=
  let hits := fun lo hi => decide (lo < a + n ∧ a < hi)
  ((List.range 4).filter fun i => hits (0xA8000 + 0x1000 * i) (0xA9000 + 0x1000 * i))
    ++ (if hits 0xF3080 0xF3100 then [4] else [])
    ++ ((List.range 16).filter fun i => hits (0xF3400 + 128 * i) (0xF3480 + 128 * i)).map (5 + ·)

/-- R117: a scalar access of `n` bytes at a local address waits for no earlier instruction. -/
def State.localClear (s : State) (c a n : Nat) (wr : Bool) : Bool :=
  let l := localRes a n
  (s.core c).clear (s.core c).seq (if wr then [] else l) (if wr then l else [])

/-- R155: an access from outside the core to V, the masks or the tile buffers waits while VEC_STATUS.BUSY is 1. -/
def State.vecBusy (s : State) (c a n : Nat) : Bool := !(s.core c).vq.isEmpty && !(localRes a n).isEmpty

/-- R155: an access of `n` bytes at a device address from outside its core has to wait. -/
def State.outsideBusy (s : State) (a n : Nat) : Bool :=
  match s.place a with
  | .coreMem c => s.vecBusy c (a % 0x100000) n
  | .coreReg c => s.vecBusy c (a % 0x100000) n
  | _ => false

/-- R116: the queue of unit 0 (A0), 1 (A1) or 2 (the vector engine). -/
def State.unitQ (s : State) (c u : Nat) : List QIns := if u = 2 then (s.core c).vq else (s.arr c u).queue

/-- R116: that queue replaced, with its unit's status register. -/
def State.setUnitQ (s : State) (c u : Nat) (l : List QIns) : State :=
  if u = 2 then s.setVq c l else s.setArr c u { s.arr c u with queue := l }

/-- R116, R132: the instruction `w` as core `c` issues it, its scalar operands read. -/
def State.qins (s : State) (c w : Nat) : QIns :=
  let b := ctlAt c
  let v := iOp w == 0x2B
  { w := w, pc := (s.core c).pc, seq := (s.core c).seq
    x1 := s.x c (if v then vRs w else iRs1 w), x2 := s.x c (iRs2 w)
    rng := if v && (vOp w == 0x30 || vOp w == 0x31) then
        [0x1C, 0x30, 0x34, 0x38, 0x3C, 0x40].map fun o => s.regN (b + o)
      else [] }

/-- R148: the pod's done bit. -/
def State.doneBit (s : State) (p i : Nat) : Bool := (s.pod p).done.contains (i % 65536)

/-- R151: address of the sliver record at a ring position. -/
def State.slvRec (s : State) (p pos : Nat) : Nat :=
  podBase p + s.regN (slvAt p) + 32 * (pos % s.regN (slvAt p + 4))

/-- R146: a record is bad. -/
def State.slvBad (s : State) (p pos : Nat) : Bool :=
  let a := s.slvRec p pos
  let idx := s.word a 4
  let w := s.word (a + 4) 4
  let pred := s.word (a + 8) 4
  bit w 15 || bits w 31 22 != 0 || s.word (a + 0xC) 4 != 0 || bit w 0
    || !(bits w 20 16 == 31 || decide (bits w 20 16 < s.enCount p))
    || !(pred == 0xFFFFFFFF || decide (pred < idx))

/-- R151: POD_SLV_STATUS.EMPTY follows HEAD and TAIL. -/
def State.slvRefresh (s : State) (p : Nat) : State :=
  s.putField (slvAt p + 0x14) 1 1 (b2n (s.reg (slvAt p + 8) == s.reg (slvAt p + 0xC)))

/-- R103, R146, R148: one record behind the old tail: its done bit clears, its phase's planned count
rises, and the first bad record is recorded. -/
def State.slvAccept (s : State) (p pos : Nat) : State :=
  let a := s.slvRec p pos
  let idx := s.word a 4
  let bwd := bit (s.word (a + 4) 4) 21
  let s := s.onPod p fun q => { q with done := q.done.filter (· != idx % 65536) }
  let s := if s.heat.running then
      { s with heat := if bwd then { s.heat with bwdPlanned := s.heat.bwdPlanned + 1 }
                       else { s.heat with fwdPlanned := s.heat.fwdPlanned + 1 } }
    else s
  if s.slvBad p pos && !bit (s.regN (slvAt p + 0x14)) 0 then
    (s.raiseBits (slvAt p + 0x14) 1).putField (slvAt p + 0x14) 31 16 pos
  else s

/-- R146, R151: a write to POD_SLV_TAIL. -/
def State.slvTail (s : State) (w : World) (p : Nat) (v : Word) : State :=
  let b := slvAt p
  let head := s.reg (b + 8)
  let old := s.reg (b + 0xC)
  if s.regN (b + 4) < (v - head).toNat then s.regIgnored w (b + 0xC) v
  else
    let n := if (old - head).toNat ≤ (v - head).toNat then (v - old).toNat else 0
    let s := s.setReg (b + 0xC) v
    (s.forAll ((List.range n).map fun i => (old.toNat + i) % 2 ^ 32) fun pos s => s.slvAccept p pos).slvRefresh p

/-- R151: a write to POD_SLV_BASE or POD_SLV_SIZE: ignored while OPEN is 1. The spec gives no outcome for a BASE that is
not 32-byte aligned, for a SIZE that is no power of two from 16 to 32,768,
or for a ring that passes the end of pod SRAM: the value is taken as written (DESIGN CHOICE, log 139). -/
def State.slvSetup (s : State) (w : World) (p off : Nat) (v : Word) : State :=
  if bit (s.regN (slvAt p + 0x10)) 0 then s.regIgnored w (slvAt p + off) v
  else s.plainWrite (slvAt p + off) v

/-- R147, R151: the ring position that a core takes: the earliest untaken one among the 64 from HEAD whose AFF
admits the core; a ring of SIZE 0 is disabled and holds none. -/
def State.slvPick (s : State) (c : Nat) : Option Nat :=
  let p := corePod c
  let head := s.reg (slvAt p + 8)
  let n := if s.regN (slvAt p + 4) = 0 then 0 else min 64 (s.reg (slvAt p + 0xC) - head).toNat
  ((List.range n).map fun i => (head.toNat + i) % 2 ^ 32).find? fun pos =>
    let aff := bits (s.word (s.slvRec p pos + 4) 4) 20 16
    !(s.pod p).taken.contains pos && (aff == 31 || aff == c % 16)

/-- R147, R151: HEAD moves past taken positions; `n` bounds the moves. -/
def slvAdvance : Nat → List Nat → Nat → Nat × List Nat
  | 0, t, h => (h, t)
  | n + 1, t, h =>
    if t.contains h then slvAdvance n (t.filter (· != h)) ((h + 1) % 2 ^ 32) else (h, t)

/-- R105: WIDE of both arrays' ARR_CTRL, copied from CORE_WIDE. -/
def State.copyWide (s : State) (c : Nat) (bwd : Bool) : State :=
  let w := s.regN (ctlAt c + 0x44)
  let lv := if bwd then bits w 3 2 else bits w 1 0
  (s.putField (arrAt c 0) 17 16 lv).putField (arrAt c 1) 17 16 lv

/-- R147: the core takes the record at a position. Where rd is one of x10 to x15, the 0 of rd is written last
(DESIGN CHOICE: R147 names both writes and no order but "after those writes", log 140). -/
def State.slvTakeAt (s : State) (c pos rd : Nat) : State :=
  let p := corePod c
  let a := s.slvRec p pos
  let w := s.word (a + 4) 4
  let idx := s.word a 4
  let bwd := bit w 21
  let t := slvAdvance 65 ((s.pod p).taken ++ [pos]) (s.regN (slvAt p + 8))
  let s := (s.onPod p fun q => { q with taken := t.2 }).setRegN (slvAt p + 8) t.1
  let s := (s.count (slvAt p + 0x18) 1).slvRefresh p
  let s := ((s.setRegN (ctlAt c + 0x20) idx).setRegN (ctlAt c + 0x24) 0).copyWide c bwd
  let arg := fun i => BitVec.ofNat 32 (s.word (a + 0x10 + 4 * i) 4)
  let s := s.onCore c fun k =>
    ((((((k.putX 10 (arg 0)).putX 11 (arg 1)).putX 12 (arg 2)).putX 13 (arg 3)).putX 14
      (BitVec.ofNat 32 (bits w 14 0))).putX 15 (BitVec.ofNat 32 idx)).putX rd 0
  let s := s.onCore c fun k =>
    { k with snap := k.x, snapPc := k.pc + 4, inSliver := true, bwd := bwd, repeated := false
             tookAt := s.now, longTold := false }
  s.retire c 0 0

/-- R147: SLV.TAKE. -/
def State.slvTake (s : State) (c rd : Nat) : State :=
  let p := corePod c
  if s.parkBit c then
    (s.onCore c fun k => { k with parked := true }).setCoreState c 0
  else if bit (s.regN (slvAt p + 0x14)) 0 then s.exception c 27 (bits (s.regN (slvAt p + 0x14)) 31 16)
  else if s.heat.held then s.wait c
  else match s.slvPick c with
    | some pos => s.slvTakeAt c pos rd
    | none => if bit (s.regN (slvAt p + 0x10)) 0 then s.wait c else s.retire c rd 1

/-- SLV_TAKE (R147). -/
def execSlvTake (c : Nat) (s : State) : Host.Outcome State Fault Refusal :=
  guarded (coreOk c) (kernelRow c (· == .slvTake) (fun w s => s.slvTake c (iRd w)) s)

/-- SLV_TURN (R148): returns once the done bit of x[rs1] mod 65,536 is set. -/
def execSlvTurn (c : Nat) (s : State) : Host.Outcome State Fault Refusal :=
  guarded (coreOk c) (kernelRow c (· == .slvTurn) (fun w s =>
    if s.doneBit (corePod c) (s.x c (iRs1 w)).toNat then s.retire c 0 0 else s.wait c) s)

/-- R148: the done bit of an index is set. -/
def State.markDone (s : State) (c i : Nat) : State :=
  (s.onPod (corePod c) fun q => { q with
    done := if q.done.contains (i % 65536) then q.done else q.done ++ [i % 65536] }).onCore c
    fun k => { k with inSliver := false }

/-- SLV_DONE (R148): waits as KSYNC with all five bits, then sets the done bit. -/
def execSlvDone (c : Nat) (s : State) : Host.Outcome State Fault Refusal :=
  guarded (coreOk c) (kernelRow c (· == .slvDone) (fun w s =>
    s.syncThen c 0x1F fun s => (s.markDone c (s.x c (iRs1 w)).toNat).retire c 0 0) s)

/-- KSYNC (R137). -/
def execKsync (c : Nat) (s : State) : Host.Outcome State Fault Refusal :=
  guarded (coreOk c) (kernelRow c (· == .ksync) (fun w s =>
    s.syncThen c (iRs2 w) fun s => s.retire c 0 0) s)

/-- CORE_RUN (R154): a write of 1 to RUN. -/
def execCoreRun (c : Nat) (s : State) : Host.Outcome State Fault Refusal :=
  guarded (coreOk c) (if s.coreExists c then s.runWrite c else s)

/-- CORE_STOP (R154): a write of 0 to RUN. -/
def execCoreStop (c : Nat) (s : State) : Host.Outcome State Fault Refusal :=
  guarded (coreOk c) (if s.coreExists c then s.stopWrite c else s)

/-- POD_SLV_TAIL (R146, R151): the tail advances over new records. -/
def execPodSlvTail (p : Nat) (v : Word) (s : State) : Host.Outcome State Fault Refusal :=
  guarded (decide (p < 384)) (s.slvTail (s.podWorld p) p v)

/-- POD_SLV_CTRL (R147, R151): OPEN. -/
def execPodSlvCtrl (p : Nat) (v : Word) (s : State) : Host.Outcome State Fault Refusal :=
  guarded (decide (p < 384)) (s.plainWrite (slvAt p + 0x10) v)

end Sys2Proof.Machine
end

