-- ==== Sys2Proof/Machine/Array.lean ====
section
/-!
DEFINITION. The matrix arrays (R72 to R102, R121 to R125): the pass, the handoff, promotion, the drain,
QSTORE, the repeat trap and the storm. An instruction executes whole when it leaves its array's queue (log 10);
the queues themselves are in Units.lean.
-/
namespace Sys2Proof.Machine

/-- R121: the array that an instruction selects. -/
def iArr (w : Nat) : Nat := bits w 31 31

/-- R106: ARR_CTRL of an array. -/
def State.arrCtrl (s : State) (c a : Nat) : Nat := s.regN (arrAt c a)

/-- R142: the ladder steps of the current sliver. -/
def State.slvStep (s : State) (c : Nat) : Nat := s.regN (ctlAt c + 0x24) % 8

/-- R105: WIDE. -/
def State.wideOf (s : State) (c a : Nat) : Nat := bits (s.arrCtrl c a) 17 16

/-- R106: the formats that the kernel named: MOVE_FMT, STAT_FMT. -/
def State.namedPair (s : State) (c a : Nat) : Nat × Nat :=
  (bits (s.arrCtrl c a) 5 2, bits (s.arrCtrl c a) 9 6)

/-- R142: the operand formats in force. -/
def State.pairInForce (s : State) (c a : Nat) : Nat × Nat :=
  let p := s.namedPair c a
  effPair (s.wideOf c a) (s.slvStep c) p.1 p.2

/-- R77: the pair is legal: both narrow, or both W16. -/
def pairOk (p : Nat × Nat) : Bool := (narrow p.1 && narrow p.2) || (p.1 == 1 && p.2 == 1)

/-- R124: the conditions that end in the illegal-instruction exception: a pair that is illegal, a depth
above 16 for a pair other than N4 with N4, a convolution of more than 16 taps. -/
def passIllegal (p : Nat × Nat) (d : Nat) (conv : Bool) : Bool :=
  !pairOk p || (decide (16 < d) && !(p.1 == 6 && p.2 == 6)) || (conv && decide (16 < d))

/-- R106: trouble bits of a bank or of the on-deck set (field index 0, 1, 2) rise. -/
def State.addTrouble (s : State) (c a f : Nat) (t : Trouble) : State :=
  s.raiseBits (arrAt c a + 0xC) (t.code * 16 ^ f)

/-- R97: TROUBLE of a bank. -/
def State.bankTrouble (s : State) (c a b : Nat) : Nat := bits (s.regN (arrAt c a + 0xC)) (4 * b + 3) (4 * b)

/-- Accumulator bank `b`. -/
def Arr.bank (r : Arr) (b : Nat) : Bank := if b = 0 then r.bank0 else r.bank1

/-- A bank replaced. -/
def Arr.setBank (r : Arr) (b : Nat) (k : Bank) : Arr :=
  if b = 0 then { r with bank0 := k } else { r with bank1 := k }

/-- R80: the trouble that a feeder raises on a block as it is read. -/
def feedTrouble (f scale : Nat) (codes : List Nat) : Trouble :=
  let ff := f != 1 && scale == 0xFF
  { naninf := ff || codes.any fun c => !(decodeElem f c).finite, bsclamp := ff }

/-- R63, R122: TEXP of a tensor that an array operand names; W16 contributes 0 (R89). -/
def State.operandTexp (s : State) (f t : Nat) : Int := if f = 1 then 0 else s.sbTexp t

/-- R60, R63: the scale-book access of a named narrow tensor is forbidden. -/
def State.bookFault (s : State) (f t : Nat) : Bool := f != 1 && !s.sbOk t

/-- One block of an image in operand SRAM as it is fed: trouble, also of the widening, scale code and codes in
the format in force (R97, R100). -/
def State.feed (s : State) (base f g bb elemAt scaleAt : Nat) (texp : Int) (head : Nat) :
    Trouble × Nat × List Nat :=
  let codes := unpackCodes (fmtWidth f) (s.bytes (base + elemAt * bb) bb)
  let sc := if f = 1 then 127 else s.word (base + scaleAt) 1
  let w := widenBlock f g sc texp head codes
  ((feedTrouble f sc codes).or w.1, w.2)

/-- R92, R122, R123: the stationary set that LDS loads: `n` columns of `d` blocks. -/
def State.loadSet (s : State) (c a addr t n d : Nat) : StatSet :=
  let named := s.namedPair c a
  let f := named.2
  let g := (s.pairInForce c a).2
  let bb := blockBytes f
  let texp := s.operandTexp f t
  let bl := (List.range (n * d)).map fun i =>
    s.feed (coreBase c + addr) f g bb i (n * d * bb + i) texp (s.sbHead t)
  { valid := true, named := f, fmt := g, cols := n, depth := d
    elems := bl.flatMap fun b => b.2.2
    scales := bl.map fun b => b.2.1
    texp := if g = 1 then 0 else texp
    trouble := bl.foldl (fun t b => t.or b.1) {} }

/-- R123: the bytes of an image of `n` blocks. -/
def imageBytes (f n : Nat) : Nat := n * blockBytes f + (if f = 1 then 0 else n)

/-- R93: every cell swaps its active set for its on-deck set. -/
def Arr.swap (r : Arr) : Arr := { r with active := r.onDeck, onDeck := {}, ran := false, fresh := false }

/-- R93, R106: the swap with what the registers show of it: ON_DECK trouble moves on, TEXP_STAT is the new active
set's. A write of 1 to ARR_TROUBLE.ON_DECK before the swap clears the register only; the set keeps its trouble
(DESIGN CHOICE, log 141). -/
def State.swapSets (s : State) (c a : Nat) : State :=
  ((s.putField (arrAt c a + 0xC) 11 8 0).putField (arrAt c a + 0x10) 15 8 (ofInt 8 (s.arr c a).onDeck.texp)).setArr c a
    (s.arr c a).swap

/-- R92, R122: LDS executes, the on-deck set being empty. -/
def State.ldsRun (s : State) (c a : Nat) (q : QIns) : State :=
  let n := bits q.w 30 26 + 1
  let d := iRd q.w + 1
  let addr := q.x1.toNat
  let t := q.x2.toNat
  let p := s.namedPair c a
  let r := s.arr c a
  if passIllegal p d (bit (s.arrCtrl c a) 10) then s.exceptionAt c 2 q.w q.pc.toNat
  else if addr % 128 ≠ 0 ∨ 0x60000 < addr + imageBytes p.2 (n * d) then s.exceptionAt c 29 addr q.pc.toNat
  else if s.bookFault p.2 t then s.exceptionAt c 26 t q.pc.toNat
  else
    let set := s.loadSet c a addr t n d
    let s := s.putField (arrAt c a + 4) 9 5 (d - 1)
    let s := s.putField (arrAt c a + 0xC) 11 8 set.trouble.code
    s.setArr c a { r with onDeck := set, fresh := r.ran }

/-- R85: the integer form of an element; none for NaN, ±Inf. -/
def intForm (f c : Nat) : Option Int :=
  match decodeElem f c with
  | .fin n m e => some (intAt n m e (fmtG f))
  | _ => none

/-- R85: one step of the run adder: the rounded product added with saturation. -/
def runStep (sh : Nat) (acc : Int × Bool) (p : Int) : Int × Bool :=
  let q : Int := if p < 0 then -(rneShift p.natAbs sh : Int) else rneShift p.natAbs sh
  let t := acc.1 + q
  if 2147483647 < t then (2147483647, true)
  else if t < -2147483647 then (-2147483647, true)
  else (t, acc.2)

/-- R91: an element code is ±0. -/
def isZero (f c : Nat) : Bool :=
  match decodeElem f c with
  | .fin _ m _ => m == 0
  | _ => false

/-- R91: the cell gates a product: one of its operand elements is ±0. -/
def gated (fa fb : Nat) (p : Nat × Nat) : Bool := isZero fa p.1 || isZero fb p.2

/-- R85, R91: one run of products, a gated product contributing exactly 0; none where an element that is not gated
is NaN or ±Inf, or stands in a block of scale code 0xFF (`ff`, R47, log 18). -/
def runSum (fa fb sh : Nat) (ff : Bool) (ps : List (Nat × Nat)) : Option (Int × Bool) :=
  ps.foldl (fun acc p =>
    if gated fa fb p then acc
    else if ff then none
    else match acc, intForm fa p.1, intForm fb p.2 with
      | some t, some x, some y => some (runStep sh t (x * y))
      | _, _, _ => none) (some (0, false))

/-- The list in pieces of `n`; `k` bounds the number of pieces. -/
def chunks {α : Type} (n : Nat) : Nat → List α → List (List α)
  | 0, _ => []
  | k + 1, l => if l.isEmpty then [] else l.take n :: chunks n k (l.drop n)

/-- R85: a run promoted into an accumulator element. -/
def promote (fa fb sh : Nat) (xa xb : Nat) (acc : Word × Trouble) (run : List (Nat × Nat)) : Word × Trouble :=
  let r := runSum fa fb sh (xa == 0xFF || xb == 0xFF) run
  let v := match r with
    | some (t, _) =>
      if t = 0 then 0
      else (FVal.fin (decide (t < 0)) t.natAbs
        ((sh : Int) + fmtG fa + fmtG fb + ((xa : Int) - 127) + ((xb : Int) - 127))).toF32
    | none => f32NaN
  let n := fadd acc.1 v
  (n, acc.2.or { addsat := match r with | some (_, b) => b | none => false
                 naninf := nonFinite v || nonFinite n })

/-- R86, R91: one product of a W16 pair added into an accumulator element; a gated one contributes exactly 0. -/
def w16Step (acc : Word × Trouble) (p : Nat × Nat) : Word × Trouble :=
  let v := if gated 1 1 p then 0 else fmul (w16ToF32 p.1) (w16ToF32 p.2)
  let n := fadd acc.1 v
  (n, acc.2.or { naninf := nonFinite v || nonFinite n })

/-- R85, R86, R87: one wavefront of 32 element pairs added into an accumulator element. -/
def wavefront (fa fb p xa xb : Nat) (acc : Word × Trouble) (ps : List (Nat × Nat)) : Word × Trouble :=
  if fa = 1 then ps.foldl w16Step acc
  else (chunks p 32 ps).foldl (promote fa fb (fmtBits fa + fmtBits fb - 28) xa xb) acc

/-- A moving operand as it is fed: trouble, and for each (row, entry) a scale code and 32 codes. -/
structure Moving where
  fmt : Nat
  texp : Int
  trouble : Trouble
  blocks : List (Nat × List Nat)
  deriving DecidableEq, Repr

/-- R82, R123: a block of zeros (code 0, scale code 0). -/
def zeroBlock : Nat × List Nat := (0, List.replicate 32 0)

/-- R81, R82, R123: the moving operand read from operand SRAM: plain, or in convolution mode with positions
of stride `st` and LEAD and TRAIL positions never read. -/
def State.moveImage (s : State) (c f g addr t m d : Nat) (conv : Option (Nat × Nat × Nat)) : Moving :=
  let bb := blockBytes f
  let texp := s.operandTexp f t
  let base := coreBase c + addr
  let bl := match conv with
    | none => (List.range (m * d)).map fun i => s.feed base f g bb i (m * d * bb + i) texp (s.sbHead t)
    | some (st, lead, trail) =>
      let n := (m - 1) * st + d
      (List.range (m * d)).map fun i =>
        let q := i / d * st + i % d
        if q < lead ∨ n ≤ q + trail then ({}, zeroBlock) else s.feed base f g bb q (n * bb + q) texp (s.sbHead t)
  { fmt := g, texp := if g = 1 then 0 else texp
    trouble := bl.foldl (fun t b => t.or b.1) {}, blocks := bl.map fun b => b.2 }

/-- R81, R82, R123: the moving operand as the formats of ARR_CTRL name it. -/
def State.movePlain (s : State) (c a addr t m d : Nat) (conv : Option (Nat × Nat × Nat)) : Moving :=
  s.moveImage c (s.namedPair c a).1 (s.pairInForce c a).1 addr t m d conv

/-- R110: row `i` of a tile buffer. -/
def State.tileRow (s : State) (c n i : Nat) : List Word :=
  (List.range 32).map fun j => BitVec.ofNat 32 (s.word (coreBase c + 0xA8000 + 0x1000 * n + 4 * (32 * i + j)) 4)

/-- R51, R54: one row of 32 F32 values converted: trouble, scale code, codes. -/
def State.convertRow (s : State) (g t : Nat) (xs : List FVal) : Trouble × Nat × List Nat :=
  if g = 1 then
    let r := xs.map toW16
    ({ naninf := r.any fun p => p.2 }, 127, r.map fun p => p.1)
  else
    let q := quantiseBlock g (s.sbTexp t) (some (s.sbHead t)) xs
    (q.trouble, q.scale, q.codes)

/-- R79, R123: the moving operand converted from tile buffer `n` to format `g`, `m` rows of one block. -/
def State.moveTile (s : State) (c g n t m : Nat) : Moving :=
  let bl := (List.range m).map fun i => s.convertRow g t ((s.tileRow c n i).map f32Val)
  { fmt := g, texp := if g = 1 then 0 else s.sbTexp t
    trouble := bl.foldl (fun t b => t.or b.1) {}, blocks := bl.map fun b => b.2 }

/-- R76, R85 to R87: the bank after the first `n` wavefronts of a pass, with the indicators raised. -/
def passWaves (acc : List Word) (mv : Moving) (st : StatSet) (n p : Nat) : List (Word × Trouble) :=
  (List.range 1024).map fun k =>
    let i := k / 32
    let j := k % 32
    let old := acc.getD k 0
    if st.cols ≤ j then (old, {})
    else (List.range (min st.depth (n - i * st.depth))).foldl (fun r u =>
      let a := mv.blocks.getD (i * st.depth + u) zeroBlock
      let b := (List.range 32).map fun q => st.elems.getD ((j * st.depth + u) * 32 + q) 0
      wavefront mv.fmt st.fmt p a.1 (st.scales.getD (j * st.depth + u) 0) r (a.2.zip b)) (old, {})

/-- R76: the bank after a pass of `m` rows, with the indicators raised. -/
def passBank (acc : List Word) (mv : Moving) (st : StatSet) (m p : Nat) : List (Word × Trouble) :=
  passWaves acc mv st (m * st.depth) p

/-- R91: zero-gated products of the wavefront of moving codes `cs` in format `f` with entry `u` of a set. -/
def zeroWave (f : Nat) (cs : List Nat) (st : StatSet) (u : Nat) : Nat :=
  ((List.range st.cols).map fun j =>
    ((List.range 32).filter fun i =>
      gated f st.fmt (cs.getD i 0, st.elems.getD ((j * st.depth + u) * 32 + i) 0)).length).sum

/-- R91: the counters of `n` wavefronts with `z` zero-gated products, the last of which ends moving row `m - 1` or not:
products, zero-gated products, idle slots of unused columns and of the odd half cycle of R78 (`rows` rows
ended). -/
def State.waveCounts (s : State) (c a f : Nat) (st : StatSet) (n z rows : Nat) : State :=
  let b := arrAt c a
  let odd := if f = 6 ∧ st.fmt = 6 ∧ st.depth % 2 = 1 then rows * 1024 else 0
  ((s.count64 (b + 0x20) (n * 32 * st.cols - z)).count64 (b + 0x28) z).count64 (b + 0x30)
    (n * 32 * (32 - st.cols) + odd)

/-- R91: the counters of the first `n` wavefronts of a pass. -/
def State.passCounts (s : State) (c a : Nat) (mv : Moving) (st : StatSet) (n : Nat) : State :=
  let z := ((List.range n).map fun q =>
    zeroWave mv.fmt (mv.blocks.getD q zeroBlock).2 st (q % st.depth)).sum
  s.waveCounts c a mv.fmt st n z (n / st.depth)

/-- R88: the promotion interval. -/
def promoInt (ctrl : Nat) : Nat := 4 * 2 ^ bits ctrl 1 0

/-- R101, R104: the operand formats of a tile with those of one more pass. -/
def Bank.noteFmts (k : Bank) (f g : Nat) : List Nat :=
  k.fmts ++ ([f, g].filter fun x => !k.fmts.contains x)

/-- R76, R93 to R97: the pass runs with the active set into the bank of ARR_CTRL as its STREAM read it (`ctrl`). With
HANDOFF its token swaps the sets; while the on-deck set is empty, the head holds the token's wavefront, and the
pass has only the wavefronts before it. -/
def State.pass (s : State) (c a ctrl : Nat) (mv : Moving) (m : Nat) (handoff : Bool) (pc : Word) : State :=
  let r := s.arr c a
  let st := r.active
  let bn := bits ctrl 13 13
  let p := promoInt ctrl
  let hold := handoff && !r.onDeck.valid
  let n := m * st.depth - b2n hold
  let res := passWaves (r.bank bn).acc mv st n p
  let tr := res.foldl (fun t x => t.or x.2) (mv.trouble.or st.trouble)
  let s := (s.passCounts c a mv st n).addTrouble c a bn tr
  let s := s.setRegN (arrAt c a + 0x10) (ofInt 8 mv.texp + ofInt 8 st.texp * 256)
  let s := (s.putField (arrAt c a + 4) 4 0 (m - 1)).putField (arrAt c a + 4) 10 10 (b2n handoff)
  let r := { r.setBank bn { acc := res.map fun x => x.1, texp := mv.texp + st.texp
                            fmts := (r.bank bn).noteFmts mv.fmt st.fmt } with
             held := none, ran := true }
  if hold then
    let w := mv.blocks.getD n zeroBlock
    s.setArr c a { r with tok := some { pc := pc, bank := bn, row := m - 1, promo := p
                                        fmt := mv.fmt, scale := w.1, codes := w.2 } }
  else if handoff then (s.setArr c a r).swapSets c a
  else s.setArr c a r

/-- R94: the held wavefront of a token enters: it accumulates with the old set. -/
def State.tokenEnters (s : State) (c a : Nat) (k : Token) : State :=
  let r := s.arr c a
  let st := r.active
  let u := st.depth - 1
  let bank := r.bank k.bank
  let res := (List.range 1024).map fun e =>
    let old := bank.acc.getD e 0
    let j := e % 32
    if e / 32 ≠ k.row ∨ st.cols ≤ j then (old, ({} : Trouble))
    else
      let b := (List.range 32).map fun q => st.elems.getD ((j * st.depth + u) * 32 + q) 0
      wavefront k.fmt st.fmt k.promo k.scale (st.scales.getD (j * st.depth + u) 0) (old, {}) (k.codes.zip b)
  let s := s.waveCounts c a k.fmt st 1 (zeroWave k.fmt k.codes st u) 1
  let s := s.addTrouble c a k.bank (res.foldl (fun t x => t.or x.2) {})
  s.setArr c a { r.setBank k.bank { bank with acc := res.map fun x => x.1 } with tok := none }

/-- R95: the first STREAM swaps: the active set is not valid, or an LDS has filled the on-deck set after a pass
without HANDOFF (DEDUCED, log 11: that successor "needs a new stationary operand"; with no LDS in between it
reuses the active set). -/
def Arr.swapsFirst (r : Arr) : Bool := !r.active.valid || (r.fresh && r.onDeck.valid)

/-- R95: the set that a STREAM meets. -/
def Arr.nextSet (r : Arr) : StatSet := if r.swapsFirst then r.onDeck else r.active

/-- R60: a converter reads values of the tensor that an instruction names: AMAX_CUR, whatever the format in force, where
the tensor has an entry (a tensor named with W16 need not have one, log 142). -/
def State.convertAmax (s : State) (t : Nat) (xs : List FVal) : State := if s.sbOk t then s.sbAmax t xs else s

/-- R77, R124: the checks of a STREAM against the set that it meets: the cause of its exception, with what
CORE_EXC_INFO shows. -/
def State.streamBad (s : State) (c a : Nat) (h : HeldStream) : Option (Nat × Nat) :=
  let st := (s.arr c a).nextSet
  let d := st.depth
  let rows := iRd h.q.w + 1
  let f := bits h.ctrl 5 2
  let conv := bit h.ctrl 10
  let sg := bits h.ctrl 12 11 + 1
  let x2 := h.q.x2.toNat
  let addr := h.q.x1.toNat
  let g := (effPair (s.wideOf c a) (s.slvStep c) f (bits h.ctrl 9 6)).1
  let tile := (tileAt addr).isSome
  if passIllegal (f, st.named) d conv || (tile && decide (1 < d)) || !pairOk (g, st.fmt) then some (2, addr)
  else if !tile && (addr % 8 != 0
      || decide (0x60000 < addr + imageBytes f (if conv then (rows - 1) * sg + d else rows * d))) then some (29, addr)
  else if conv && (decide (d ≤ bits x2 27 24) || decide (d ≤ bits x2 31 28)) then some (29, addr)
  else if s.bookFault f (bits x2 23 0) then some (26, bits x2 23 0)
  else none

/-- R76, R79, R95, R122: a STREAM whose set is complete: its checks, the swap of R95, its pass. -/
def State.streamRun (s : State) (c a : Nat) (h : HeldStream) : State :=
  match s.streamBad c a h with
  | some e => s.exceptionAt c e.1 e.2 h.q.pc.toNat
  | none =>
    let s := if (s.arr c a).swapsFirst then s.swapSets c a else s
    let d := (s.arr c a).active.depth
    let rows := iRd h.q.w + 1
    let f := bits h.ctrl 5 2
    let g := (effPair (s.wideOf c a) (s.slvStep c) f (bits h.ctrl 9 6)).1
    let x2 := h.q.x2.toNat
    let t := bits x2 23 0
    let conv := if bit h.ctrl 10 then some (bits h.ctrl 12 11 + 1, bits x2 27 24, bits x2 31 28) else none
    match tileAt h.q.x1.toNat with
    | some n =>
      let mv := s.moveTile c g n t rows
      let s := s.convertAmax t ((List.range rows).flatMap fun i => (s.tileRow c n i).map f32Val)
      s.pass c a h.ctrl mv rows (bit h.q.w 30) h.q.pc
    | none => s.pass c a h.ctrl (s.moveImage c f g h.q.x1.toNat t rows d conv) rows (bit h.q.w 30) h.q.pc

/-- R95: a STREAM at the head: it runs, or waits for its first set (R117: what issues from now on comes after it). -/
def State.streamExec (s : State) (c a : Nat) (q : QIns) : State :=
  let r := s.arr c a
  let h : HeldStream := { q := q, ctrl := s.arrCtrl c a }
  if r.swapsFirst && !r.onDeck.valid then
    (s.setArr c a { r with held := some h }).onCore c fun k => { k with seq := max k.seq (q.seq + 1) }
  else s.streamRun c a h

/-- R122: ACFG writes PROMO_INT, MOVE_FMT, STAT_FMT, CONV, STRIDE and BANK from rs1; WIDE never. -/
def State.acfgRun (s : State) (c a : Nat) (q : QIns) : State := s.putField (arrAt c a) 13 0 q.x1.toNat

/-- R88: a bank set to +0, its trouble bits cleared. -/
def State.clearBank (s : State) (c a b : Nat) : State :=
  (s.dropBits (arrAt c a + 0xC) (15 * 16 ^ b)).setArr c a ((s.arr c a).setBank b {})

/-- R88, R122: PROMOTE: the promotion interval; with CLEAR the named bank is cleared. -/
def State.promoteRun (s : State) (c a : Nat) (q : QIns) : State :=
  let s := s.putField (arrAt c a) 1 0 (bits q.w 26 25)
  if bit q.w 30 then s.clearBank c a (bits q.w 29 29) else s

/-- R98, R125, R140: the drain of the instruction at `pc` is suppressed: ARR_CNT_REPEAT and the repeat trap, which the
core records with code 24. -/
def State.trapSet (s : State) (c : Nat) (t : Trap) (pc : Word) : State :=
  let b := ctlAt c
  let s := ((s.setRegN (b + 0x10) 24).setReg (b + 0x14) pc).setRegN (b + 0x18) t.trouble
  (s.count (arrAt c t.arr + 0x44) 1).onCore c fun k => { k with trap := some t }

/-- R104: a format is one of the two N8 formats. -/
def isN8 (f : Nat) : Bool := f == 2 || f == 3

/-- R89: the drained tile: each element scaled by both TEXP values and rounded once. -/
def drainOut (k : Bank) : List Word :=
  (List.range 1024).map fun i => ((f32Val (k.acc.getD i 0)).shift k.texp).toF32

/-- The words of a tile as bytes. -/
def tileBytes (t : List Word) : List Byte := t.flatMap fun w => leBytes 4 w.toNat

/-- R90, R123: the STORE image of a tile in format `g`: trouble of the conversion, bytes. -/
def State.storeImage (s : State) (g t : Nat) (tile : List Word) : Trouble × List Byte :=
  let rows := (List.range 32).map fun i =>
    s.convertRow g t ((List.range 32).map fun j => f32Val (tile.getD (32 * i + j) 0))
  (rows.foldl (fun t r => t.or r.1) {},
   (rows.flatMap fun r => packCodes (fmtWidth g) r.2.2)
     ++ (if g = 1 then [] else rows.map fun r => BitVec.ofNat 8 r.2.1))

/-- R89: WG_ADD: each F32 element of the buffer plus the drained one. -/
def State.wgAdd (s : State) (a : Nat) (out : List Word) : List Word :=
  (List.range 1024).map fun i => fadd (BitVec.ofNat 32 (s.word (a + 4 * i) 4)) (out.getD i 0)

/-- R120, R124: a STORE or QSTORE destination format is legal: narrow or W16. -/
def storeFmtOk (f : Nat) : Bool := narrow f || f == 1

/-- R89, R90, R97, R98: DRAIN of a bank. A tile is exhausted when every operand pair of its passes ran in W16 (R101). A
STORE format counts among the formats from which the tile repeats (DESIGN CHOICE, log 143). -/
def State.drainExec (s : State) (c a : Nat) (q : QIns) : State :=
  let b := bits q.w 30 30
  let mode := bits q.w 29 28
  let dst := q.x1.toNat
  let t := q.x2.toNat
  let f := iRd q.w
  let g := effFmt (s.wideOf c a) (s.slvStep c) f
  let bank := (s.arr c a).bank b
  let out := drainOut bank
  let nan := out.any nonFinite
  let img := if mode = 2 then s.storeImage g t out else ({}, [])
  if mode = 2 ∧ !storeFmtOk f then s.exceptionAt c 2 q.w q.pc.toNat
  else if mode = 0 ∧ 4 ≤ dst then s.exceptionAt c 29 dst q.pc.toNat
  else if mode = 1 ∧ (dst % 4096 ≠ 0 ∨ dst < 0x60000 ∨ 0xA0000 ≤ dst) then s.exceptionAt c 29 dst q.pc.toNat
  else if mode = 2 ∧ (dst % 32 ≠ 0 ∨ 0x60000 < dst + imageBytes g 32) then s.exceptionAt c 29 dst q.pc.toNat
  else if mode = 2 ∧ s.bookFault f t then s.exceptionAt c 26 t q.pc.toNat
  else
    let s := if mode = 2 then s.convertAmax t (out.map f32Val) else s
    let s := s.addTrouble c a b (Trouble.or { naninf := nan } img.1)
    let tr := s.bankTrouble c a b
    if tr ≠ 0 then
      s.trapSet c { arr := a, bank := some b, trouble := tr
                    last := !bank.fmts.isEmpty && bank.fmts.all (· == 1)
                    n8 := bank.fmts.any isN8 || (mode == 2 && isN8 g) } q.pc
    else
      let s := s.count (arrAt c a + 0x40) 1
      if mode = 0 then s.store (coreBase c + 0xA8000 + 0x1000 * dst) (tileBytes out)
      else if mode = 1 then
        (s.store (coreBase c + dst) (tileBytes (s.wgAdd (coreBase c + dst) out))).lateHome c
          (coreBase c + dst) 4096
      else s.store (coreBase c + dst) img.2

/-- R125: QSTORE of a tile buffer through the array's input-side converter. One that writes counts in ARR_CNT_TILES
(DESIGN CHOICE: R106 counts "drains that wrote their destination", and QSTORE follows the rules of a STORE
drain, log 143). -/
def State.qstoreExec (s : State) (c a : Nat) (q : QIns) : State :=
  let n := bits q.w 30 29
  let dst := q.x1.toNat
  let t := q.x2.toNat
  let f := iRd q.w
  let g := effFmt (s.wideOf c a) (s.slvStep c) f
  if !storeFmtOk f then s.exceptionAt c 2 q.w q.pc.toNat
  else if dst % 32 ≠ 0 ∨ 0x60000 < dst + imageBytes g 32 then s.exceptionAt c 29 dst q.pc.toNat
  else if s.bookFault f t then s.exceptionAt c 26 t q.pc.toNat
  else
    let tile := (List.range 32).flatMap fun i => s.tileRow c n i
    let img := s.storeImage g t tile
    let s := s.convertAmax t (tile.map f32Val)
    if img.1.any then
      s.trapSet c { arr := a, bank := none, trouble := img.1.code, last := g == 1, n8 := isN8 g } q.pc
    else (s.count (arrAt c a + 0x40) 1).store (coreBase c + dst) img.2

/-- R103: TILES_REPEATED of the sliver's phase rises once per tile; a repeat from an N8 format is noted. -/
def State.countRepeat (s : State) (bwd first n8 : Bool) : State :=
  { s with heat := if bwd then
      { s.heat with bwdRepeated := s.heat.bwdRepeated + b2n first, bwdN8 := s.heat.bwdN8 || n8 }
    else { s.heat with fwdRepeated := s.heat.fwdRepeated + b2n first, fwdN8 := s.heat.fwdN8 || n8 } }

/-- R103, R104: the storm test, at every repeat trap of an attempt: 16 · TILES_REPEATED > TILES_PLANNED voids the
attempt, once per phase, sends WIDE_HEAT and sets the phase's wide level for the attempts that follow; a later
repeat from an N8 format before the void can still raise that level. -/
def State.stormTest (s : State) (c : Nat) (bwd : Bool) : State :=
  let h := s.heat
  let rep := if bwd then h.bwdRepeated else h.fwdRepeated
  let plan := if bwd then h.bwdPlanned else h.fwdPlanned
  let n8 := if bwd then h.bwdN8 else h.fwdN8
  let told := if bwd then h.stormBwd else h.stormFwd
  let lv := if n8 || decide (1 ≤ if bwd then h.levelBwd else h.levelFwd) then 2 else 1
  if h.running && decide (plan < 16 * rep) then
    let s := if told then s
      else s.ochre s.job.world 0x0215 2 c (leBytes 4 (b2n bwd) ++ leBytes 4 plan ++ leBytes 4 rep)
    let s := if told && (if bwd then h.wideBwd else h.wideFwd) == lv then s
      else s.raiseJob 0x0202 0 s.hubSource (leBytes 4 (b2n bwd + lv * 256))
    { s with heat := if bwd then { s.heat with wideBwd := lv, stormBwd := true }
                     else { s.heat with wideFwd := lv, stormFwd := true } }
  else s

/-- R142 step 3: an array's sets marked invalid, nothing queued or at the head. -/
def Arr.drop (r : Arr) : Arr := { r.afresh with active := {}, onDeck := {}, ran := false, fresh := false }

/-- R142 step 2: the arrays become idle: a token's wavefront whose successor set is complete ends first; the cycles for
which the head had held it are a free value (log 11). -/
def State.endToken (s : State) (c a : Nat) : State :=
  match (s.arr c a).tok with
  | some k =>
    if (s.arr c a).onDeck.valid then
      let q := s.freeWord
      (((q.2.tokenEnters c a k).swapSets c a).count64 (arrAt c a + 0x38) q.1.toNat).count64 (arrAt c a + 0x30)
        (1024 * q.1.toNat)
    else s
  | none => s

/-- R142: the restart of the current sliver. A core that has taken no sliver restarts from the empty snapshot, at pc 0
(DESIGN CHOICE: the spec names no restart without a sliver, log 144). -/
def State.restart (s : State) (c : Nat) (t : Trap) : State :=
  let s := ((s.onCore c Core.discard).endToken c 0).endToken c 1
  let s := match t.bank with | some b => s.clearBank c t.arr b | none => s
  let s := ((s.setArr c 0 (s.arr c 0).drop).setArr c 1 (s.arr c 1).drop).setVq c []
  let s := s.setRegN (ctlAt c + 0x24) ((s.regN (ctlAt c + 0x24) + 1) % 8)
  let s := s.count (ctlAt c + 0x50) 1
  let s := { s with heat := { s.heat with restartsAt := s.heat.restartsAt + b2n s.heat.running } }
  ((s.onCore c fun k => { k with x := k.snap, pc := k.snapPc, trap := none, repeated := true }).setCoreState c 1)

/-- R99, R101, R103, R142, R144: the repeat trap of a core that no exception has halted: the sliver restarts one ladder
step wider, an exhausted tile voids the attempt, and the storm test runs. -/
def State.repeatTrap (s : State) (c : Nat) : State :=
  match (s.core c).trap with
  | none => s
  | some t =>
    if s.coreState c = 3 then s.onCore c fun k => { k with trap := none }
    else
      let bwd := (s.core c).bwd
      let s := s.countRepeat bwd (!(s.core c).repeated) t.n8
      let s := if t.last then s.ochre s.job.world 0x0216 2 c
          (leBytes 4 c ++ leBytes 4 (s.regN (ctlAt c + 0x20)) ++ leBytes 4 t.trouble)
        else s
      ((s.restart c t).stormTest c bwd).stopIfDone c

/-- REPEAT_TRAP (R142). -/
def execRepeatTrap (c : Nat) (s : State) : Host.Outcome State Fault Refusal :=
  guarded (coreOk c) (if s.coreExists c then s.repeatTrap c else s)

end Sys2Proof.Machine
end

