-- ==== Sys2Proof/Machine/Crypto.lean ====
section
/-!
DEFINITION. SHA-512 (FIPS 180-4) and Ed25519 (RFC 8032), which the spec names (R385, R399, R419, R427, R566) and
does not write out (log 8).
-/
namespace Sys2Proof.Machine

/-- SHA-512: the round constants. -/
def sha512K : List Nat :=
  [0x428A2F98D728AE22, 0x7137449123EF65CD, 0xB5C0FBCFEC4D3B2F, 0xE9B5DBA58189DBBC] ++
   [0x3956C25BF348B538, 0x59F111F1B605D019, 0x923F82A4AF194F9B, 0xAB1C5ED5DA6D8118] ++
   [0xD807AA98A3030242, 0x12835B0145706FBE, 0x243185BE4EE4B28C, 0x550C7DC3D5FFB4E2] ++
   [0x72BE5D74F27B896F, 0x80DEB1FE3B1696B1, 0x9BDC06A725C71235, 0xC19BF174CF692694] ++
   [0xE49B69C19EF14AD2, 0xEFBE4786384F25E3, 0x0FC19DC68B8CD5B5, 0x240CA1CC77AC9C65] ++
   [0x2DE92C6F592B0275, 0x4A7484AA6EA6E483, 0x5CB0A9DCBD41FBD4, 0x76F988DA831153B5] ++
   [0x983E5152EE66DFAB, 0xA831C66D2DB43210, 0xB00327C898FB213F, 0xBF597FC7BEEF0EE4] ++
   [0xC6E00BF33DA88FC2, 0xD5A79147930AA725, 0x06CA6351E003826F, 0x142929670A0E6E70] ++
   [0x27B70A8546D22FFC, 0x2E1B21385C26C926, 0x4D2C6DFC5AC42AED, 0x53380D139D95B3DF] ++
   [0x650A73548BAF63DE, 0x766A0ABB3C77B2A8, 0x81C2C92E47EDAEE6, 0x92722C851482353B] ++
   [0xA2BFE8A14CF10364, 0xA81A664BBC423001, 0xC24B8B70D0F89791, 0xC76C51A30654BE30] ++
   [0xD192E819D6EF5218, 0xD69906245565A910, 0xF40E35855771202A, 0x106AA07032BBD1B8] ++
   [0x19A4C116B8D2D0C8, 0x1E376C085141AB53, 0x2748774CDF8EEB99, 0x34B0BCB5E19B48A8] ++
   [0x391C0CB3C5C95A63, 0x4ED8AA4AE3418ACB, 0x5B9CCA4F7763E373, 0x682E6FF3D6B2B8A3] ++
   [0x748F82EE5DEFB2FC, 0x78A5636F43172F60, 0x84C87814A1F0AB72, 0x8CC702081A6439EC] ++
   [0x90BEFFFA23631E28, 0xA4506CEBDE82BDE9, 0xBEF9A3F7B2C67915, 0xC67178F2E372532B] ++
   [0xCA273ECEEA26619C, 0xD186B8C721C0C207, 0xEADA7DD6CDE0EB1E, 0xF57D4F7FEE6ED178] ++
   [0x06F067AA72176FBA, 0x0A637DC5A2C898A6, 0x113F9804BEF90DAE, 0x1B710B35131C471B] ++
   [0x28DB77F523047D84, 0x32CAAB7B40C72493, 0x3C9EBE0A15C9BEBC, 0x431D67C49C100D4C] ++
   [0x4CC5D4BECB3E42B6, 0x597F299CFC657E2A, 0x5FCB6FAB3AD6FAEC, 0x6C44198C4A475817]

/-- SHA-512: the initial hash value. -/
def sha512H : List Nat :=
  [0x6A09E667F3BCC908, 0xBB67AE8584CAA73B, 0x3C6EF372FE94F82B, 0xA54FF53A5F1D36F1] ++
   [0x510E527FADE682D1, 0x9B05688C2B3E6C1F, 0x1F83D9ABFB41BD6B, 0x5BE0CD19137E2179]

/-- A 64-bit rotation to the right. -/
def rotr64 (x n : Nat) : Nat := (x >>> n) ||| (x <<< (64 - n)) % 2 ^ 64

/-- SHA-512: the next word of the message schedule from its 16 last words. -/
def sha512W (w : List Nat) : Nat :=
  let a := w.getD 1 0
  let b := w.getD 14 0
  ((rotr64 a 1 ^^^ rotr64 a 8 ^^^ (a >>> 7)) + (rotr64 b 19 ^^^ rotr64 b 61 ^^^ (b >>> 6))
    + w.getD 0 0 + w.getD 9 0) % 2 ^ 64

/-- SHA-512: one round: the working variables and the 16 schedule words that follow. -/
def sha512Round (st : List Nat × List Nat) (k : Nat) : List Nat × List Nat :=
  let v := st.1
  let w := st.2
  let a := v.getD 0 0
  let b := v.getD 1 0
  let c := v.getD 2 0
  let e := v.getD 4 0
  let t1 := v.getD 7 0 + (rotr64 e 14 ^^^ rotr64 e 18 ^^^ rotr64 e 41)
    + ((e &&& v.getD 5 0) ^^^ ((2 ^ 64 - 1 - e) &&& v.getD 6 0)) + k + w.getD 0 0
  let t2 := (rotr64 a 28 ^^^ rotr64 a 34 ^^^ rotr64 a 39) + ((a &&& b) ^^^ (a &&& c) ^^^ (b &&& c))
  ([(t1 + t2) % 2 ^ 64, a, b, c, (v.getD 3 0 + t1) % 2 ^ 64, e, v.getD 5 0, v.getD 6 0],
   w.drop 1 ++ [sha512W w])

/-- The big-endian 64-bit words of a block of 128 bytes. -/
def sha512Words (b : List Byte) : List Nat := (List.range 16).map fun i => beNat (sub b (8 * i) 8)

/-- SHA-512: one block. -/
def sha512Block (h : List Nat) (b : List Byte) : List Nat :=
  List.zipWith (fun x y => (x + y) % 2 ^ 64) h (sha512K.foldl sha512Round (h, sha512Words b)).1

/-- SHA-512: the blocks of a padded message; `n` bounds them. -/
def sha512Blocks : Nat → List Byte → List Nat → List Nat
  | 0, _, h => h
  | n + 1, m, h => sha512Blocks n (m.drop 128) (sha512Block h (m.take 128))

/-- SHA-512: the digest, 64 bytes. -/
def sha512 (m : List Byte) : List Byte :=
  let n := m.length
  let z := (256 - (n + 17) % 128) % 128
  let p := m ++ [0x80] ++ List.replicate z 0 ++ beBytes 16 (8 * n)
  (sha512Blocks (p.length / 128) p sha512H).flatMap fun x => beBytes 8 x

/-- Ed25519: the field prime. -/
def edP : Nat := 2 ^ 255 - 19
/-- Ed25519: the group order. -/
def edL : Nat := 2 ^ 252 + 27742317777372353535851937790883648493

/-- A power modulo the field prime; `n` bounds the bits of the exponent. -/
def edPow : Nat → Nat → Nat → Nat → Nat
  | 0, _, _, r => r
  | n + 1, b, e, r => edPow n (b * b % edP) (e / 2) (if e % 2 = 1 then r * b % edP else r)

/-- The inverse in the field. -/
def edInv (x : Nat) : Nat := edPow 256 (x % edP) (edP - 2) 1

/-- The curve constant d. -/
def edD : Nat := (edP - 121665) * edInv 121666 % edP

/-- A point in extended coordinates X, Y, Z, T. -/
structure EdPoint where
  x : Nat
  y : Nat
  z : Nat
  t : Nat
  deriving DecidableEq, Repr

/-- Ed25519: the sum of two points. -/
def EdPoint.add (p q : EdPoint) : EdPoint :=
  let a := (p.y + edP - p.x) * (q.y + edP - q.x) % edP
  let b := (p.y + p.x) * (q.y + q.x) % edP
  let c := 2 * p.t * q.t * edD % edP
  let d := 2 * p.z * q.z % edP
  let e := b + edP - a
  let f := d + edP - c
  let g := d + c
  let h := b + a
  { x := e * f % edP, y := g * h % edP, z := f * g % edP, t := e * h % edP }

/-- Ed25519: the neutral point. -/
def edZero : EdPoint := { x := 0, y := 1, z := 1, t := 0 }

/-- Ed25519: a multiple of a point; `n` bounds the bits. -/
def edMul : Nat → Nat → EdPoint → EdPoint → EdPoint
  | 0, _, _, r => r
  | n + 1, k, p, r => edMul n (k / 2) (p.add p) (if k % 2 = 1 then r.add p else r)

/-- Ed25519: x from y and its sign bit. -/
def edRecoverX (y sign : Nat) : Option Nat :=
  if edP ≤ y then none
  else
    let u := (y * y + edP - 1) % edP
    let v := (edD * y % edP * y + 1) % edP
    let x2 := u * edInv v % edP
    if x2 = 0 then (if sign = 1 then none else some 0)
    else
      let x := edPow 256 x2 ((edP + 3) / 8) 1
      let x := if (x * x + edP - x2) % edP = 0 then x else x * edPow 256 2 ((edP - 1) / 4) 1 % edP
      if (x * x + edP - x2) % edP ≠ 0 then none
      else some (if x % 2 = sign then x else edP - x)

/-- Ed25519: a point from its 32 bytes. -/
def edDecode (b : List Byte) : Option EdPoint :=
  let n := leNat b
  let y := n % 2 ^ 255
  (edRecoverX y (n >>> 255)).map fun x => { x := x, y := y, z := 1, t := x * y % edP }

/-- Ed25519: the 32 bytes of a point. -/
def EdPoint.encode (p : EdPoint) : List Byte :=
  let zi := edInv p.z
  leBytes 32 (p.y * zi % edP + p.x * zi % edP % 2 * 2 ^ 255)

/-- Ed25519: the base point. -/
def edBase : EdPoint :=
  let y := 4 * edInv 5 % edP
  let x := (edRecoverX y 0).getD 0
  { x := x, y := y, z := 1, t := x * y % edP }

/-- Ed25519: a multiple of a point. -/
def EdPoint.times (p : EdPoint) (k : Nat) : EdPoint := edMul 256 k p edZero

/-- Ed25519: the clamped scalar of a seed. -/
def edScalar (seed : List Byte) : Nat :=
  let a := leNat ((sha512 seed).take 32)
  a % 2 ^ 254 / 8 * 8 + 2 ^ 254

/-- Ed25519: the public key of a seed. -/
def edPublic (seed : List Byte) : List Byte := (edBase.times (edScalar seed)).encode

/-- Ed25519: the signature of a message by a seed. -/
def edSign (seed msg : List Byte) : List Byte :=
  let a := edScalar seed
  let key := edPublic seed
  let r := leNat (sha512 ((sha512 seed).drop 32 ++ msg)) % edL
  let rs := (edBase.times r).encode
  let h := leNat (sha512 (rs ++ key ++ msg)) % edL
  rs ++ leBytes 32 ((r + h * a) % edL)

/-- Ed25519: a signature holds for a key and a message. -/
def edVerify (key msg sig : List Byte) : Bool :=
  match edDecode (key.take 32), edDecode (sig.take 32) with
  | some a, some r =>
    let sc := leNat (sub sig 32 32)
    let h := leNat (sha512 (sig.take 32 ++ key.take 32 ++ msg)) % edL
    let p := edBase.times sc
    let q := r.add (a.times h)
    decide (key.length = 32) && decide (sig.length = 64) && decide (sc < edL)
      && (p.x * q.z + edP * edP - q.x * p.z) % edP == 0 && (p.y * q.z + edP * edP - q.y * p.z) % edP == 0
  | _, _ => false

end Sys2Proof.Machine
end

