-- ==== Sys2Proof/Machine/Links.lean ====
section
/-!
DEFINITION. Zarnous links (R277 to R324) from flit to message queue, the timebase's lock, and the group tables
that give routes (R325 to R328). What happens below the flit (lanes, PCS, FEC) is left out but for what a received
flit carries of it.
-/
namespace Sys2Proof.Machine

/-- R407: HRD_TIMEOUT in T-ticks. -/
def State.hrdTicks (s : State) : Nat := s.jobF 0xC8 4 * 100

/-- The hub whose safety monitor acts (R542): 1 when HA's role reads lost. -/
def State.actHub (s : State) : Nat := if s.regN (safAt 0) % 4 = 2 then 1 else 0

/-- R536: the progress timer restarts. -/
def State.progress (s : State) : State :=
  if s.heat.running then s.setReg64 (safAt s.actHub + 0x20) ((s.now.toNat + s.hrdTicks) % 2 ^ 64) else s

/-- R536, R546: the progress timer stops. -/
def State.progressOff (s : State) : State := s.setReg64 (safAt s.actHub + 0x20) 0

/-- R35: the last committed heat. -/
def State.lastHeat (s : State) : Nat :=
  match s.heat.last with
  | some n => n
  | none => (s.jobF 0 4 + 2 ^ 32 - 1) % 2 ^ 32

/-- R541: a job-level Crimson fault: the event, the job stops as JOB_STOP with NOW does, and a park follows.
`parkAsked` makes the power controller park once any rollback has finished. -/
def State.jobCrimson (s : State) (code src : Nat) (detail : List Byte) : State :=
  let s := s.raiseJob code 3 src detail
  { s with heat := { s.heat with
      stopping := true, stopNow := true, left := 0, endless := false, parkAsked := true
      voids := if s.heat.running then s.heat.voids ++ [VoidFault.mk s.now src code false] else s.heat.voids } }

/-- R551: a member of the job shows a heat above one that this device has voided: a split commit. -/
def State.splitCheck (s : State) (heat node : Nat) : State :=
  if s.heat.active && !s.heat.parkAsked && (decide (1 ≤ s.heat.attempt) || s.heat.rolling || !s.heat.voids.isEmpty)
      && decide (s.heat.num < heat) then
    s.jobCrimson 0x0708 s.hubSource (leBytes 4 (heat - 1) ++ leBytes 4 node)
  else s

/-- R333, R334, R351: the heat and attempt that fragments and hurdle messages carry now: outside a heat the
last committed heat and 0xFF. -/
def State.stamp (s : State) : Nat × Nat :=
  if s.heat.running then (s.heat.num, s.heat.attempt) else (s.lastHeat, 0xFF)

/-- R325: address of a group's table. -/
def State.group (s : State) (g : Nat) : Nat := s.word (s.jobA 0xB0 + 8 * g) 8 % 2 ^ 48
/-- R326: RANKS. -/
def State.ranks (s : State) (g : Nat) : Nat := s.word (s.group g) 4
/-- R326: ROWS. -/
def State.gRows (s : State) (g : Nat) : Nat := s.word (s.group g + 4) 2
/-- R326: COLS. -/
def State.gCols (s : State) (g : Nat) : Nat := s.word (s.group g + 6) 2
/-- R326: SELF. -/
def State.self (s : State) (g : Nat) : Nat := s.word (s.group g + 8) 2
/-- R326: the entry of rank `r`. -/
def State.rankEntry (s : State) (g r : Nat) : Nat := s.word (s.group g + 0x10 + 8 * r) 8
/-- R326: NODE. -/
def rNode (e : Nat) : Nat := bits e 15 0
/-- R326: PORT. -/
def rPort (e : Nat) : Nat := bits e 19 16
/-- R326: VALID. -/
def rValid (e : Nat) : Bool := bit e 34

/-- R350: K rounds for `n` ranks. -/
def rounds (n : Nat) : Nat := if n ≤ 1 then 0 else Nat.log2 (n - 1) + 1

/-- R329: address of collective `i`. -/
def State.collAddr (s : State) (i : Nat) : Nat := s.jobA 0xB8 + 64 * i
/-- R407: COLL_COUNT. -/
def State.collCount (s : State) : Nat := bits (s.jobF 0xA8 4) 26 16
/-- R407: HRD_COUNT. -/
def State.hrdCount (s : State) : Nat := bits (s.jobF 0xAC 4) 27 16
/-- R348: address of hurdle entry `e`. -/
def State.hrdAddr (s : State) (e : Nat) : Nat := s.jobA 0xC0 + 16 * e
/-- R329: the first word of collective `i`. -/
def State.collW (s : State) (i : Nat) : Nat := s.word (s.collAddr i) 4
/-- R329: KIND. -/
def State.cKind (s : State) (i : Nat) : Nat := bits (s.collW i) 3 0
/-- R329: ALGO. -/
def State.cAlgo (s : State) (i : Nat) : Nat := bits (s.collW i) 5 4
/-- R329: GROUP of collective `i`. -/
def State.cGroup (s : State) (i : Nat) : Nat := s.word (s.collAddr i + 4) 2

/-- R347: the PERMUTE collective in progress. -/
def State.permute (s : State) : Option Nat :=
  (s.relay.colls.find? fun c => c.2.opened && !c.2.ended && s.cKind c.1 == 6).map (·.1)

/-- R348: GROUP of hurdle entry `e`; entry 0xFFF is the internal hurdle of PERMUTE (R347). -/
def State.hrdGroup (s : State) (e : Nat) : Nat :=
  if e = 0xFFF then (s.permute.map s.cGroup).getD 0 else s.word (s.hrdAddr e) 2

/-- R352: the ranks that a hurdle over a group sends to. -/
def State.hrdPeers (s : State) (g : Nat) : List Nat :=
  (List.range (rounds (s.ranks g))).map fun j => (s.self g + 2 ^ j) % s.ranks g

/-- R327, R328: the ranks that collective `i` sends to from this device. -/
def State.collPeers (s : State) (i : Nat) : List Nat :=
  let g := s.cGroup i
  let n := s.ranks g
  let r := s.self g
  let c := s.gCols g
  let down := (r + c) % n
  let right := r / c * c + (r % c + 1) % c
  match s.cKind i with
  | 4 => (List.range n).filter (· != r)
  | 6 => (List.range n).filter (· != r)
  | 5 => [(r + 1) % n, (r + n - 1) % n]
  | _ => if s.cAlgo i = 0 then [(r + 1) % n] else [right, down]

/-- R307, R357: the first-hop ports that the job's collectives and hurdles use. -/
def State.jobPorts (s : State) : List Nat :=
  if !s.job.loaded then []
  else
    (((List.range s.collCount).flatMap fun i => (s.collPeers i).map fun r => rPort (s.rankEntry (s.cGroup i) r))
    ++ ((List.range s.hrdCount).flatMap fun e =>
        (s.hrdPeers (s.hrdGroup e)).map fun r => rPort (s.rankEntry (s.hrdGroup e) r))).eraseDups

/-- A port's state. -/
def State.port (s : State) (p : Nat) : Port := Tab.get s.ports p {}
/-- A port's state changed. -/
def State.onPort (s : State) (p : Nat) (f : Port → Port) : State :=
  { s with ports := Tab.set s.ports p (f (s.port p)) }
/-- R302: LNK_STATE.STATE. -/
def State.linkState (s : State) (p : Nat) : Nat := s.regN (lnkAt p + 8) % 8
/-- R357: first-hop ports of the job that are not UP. -/
def State.portsWait (s : State) : List Nat := s.jobPorts.filter fun p => s.linkState p != 4

/-- R357: the hold of an attempt ends once every port is UP. -/
def State.holdCheck (s : State) : State :=
  if s.heat.held && s.portsWait.isEmpty then { s with heat := { s.heat with held := false } } else s

/-- R302: STATE set; time limits run from here. -/
def State.setLink (s : State) (p n : Nat) : State :=
  ((s.putField (lnkAt p + 8) 2 0 n).onPort p fun x => { x with since := s.now }).holdCheck
/-- R281: MODE. -/
def State.linkMode (s : State) (p : Nat) : Nat := s.regN (lnkAt p) % 8
/-- R322: HOLD_DOWN. -/
def State.holdDown (s : State) (p : Nat) : Bool := bit (s.regN (lnkAt p + 0x14)) 0
/-- R322: the device's node ID. -/
def State.node (s : State) : Nat := s.regN (lnkAt 0 + 4) % 65536
/-- R305: bytes 0 to 15 of the fingerprint. -/
def State.fp (s : State) : List Byte := sub s.digest 0 16
/-- R409: SOURCE of a port's events. -/
def portSource (p : Nat) : Nat := blkSource (edgeBlk (p / 4))

/-- R322: the registers that show a port's credits and replay depth. -/
def State.linkRefresh (s : State) (p : Nat) : State :=
  let x := s.port p
  let c := fun i => x.credit.getD i 0
  ((s.setRegN (lnkAt p + 0x38) (c 0 + c 1 * 65536)).setRegN (lnkAt p + 0x3C) (c 2 + c 3 * 65536)).setRegN
    (lnkAt p + 0x44) x.replay.length

/-- R314: the SEQ that port `q` keeps open for a stomped flit is free again: no good copy comes for it. -/
def State.unhole (s : State) (q : Nat) : State :=
  match (s.port q).hole with
  | none => s
  | some (sq, _, vc) => s.onPort q fun x => { x with
      hole := none, seq := sq, credit := setAt 0 x.credit vc (x.credit.getD vc 0 + 1) }

/-- R314: the ports that keep a SEQ open for input port `p`. -/
def State.holesOf (s : State) (p : Nat) : List Nat :=
  (List.range 16).filter fun q => ((s.port q).hole.map (·.2.1)) == some p

/-- R307, R323: the port goes down with a cause: buffers are discarded, the event, the void. -/
def State.portDown (s : State) (p cause : Nat) : State :=
  let s := s.forAll (s.holesOf p) fun q s => s.unhole q
  let s := { s with ports := Tab.set s.ports p {} }
  let s := (s.setLink p 6).putField (lnkAt p + 8) 11 8 cause
  let s := (((s.count (lnkAt p + 0x74) 1).raiseBits (lnkAt p + 0x18) 1).linkRefresh p)
  let d := leBytes 4 (p + cause * 256)
  if s.jobPorts.contains p then s.ochre (s.portWorld p) 0x0601 1 (portSource p) d
  else s.raise (s.portWorld p) 0x0601 1 (portSource p) d

/-- R305: the port enters QUARANTINE. -/
def State.quarantine (s : State) (p : Nat) (fp : List Byte) : State :=
  let s := (s.setLink p 5).raiseBits (lnkAt p + 0x18) 2
  s.raise (s.portWorld p) 0x0602 1 (portSource p)
    (leBytes 4 p ++ leBytes 4 (s.regN (lnkAt p + 0xC) % 65536) ++ fp.take 8)

/-- R283: the header of a flit. -/
def flitHeader (kind vc seq ack : Nat) (nak : Bool) : List Byte :=
  leBytes 4 (kind + vc * 8 + seq * 32 + ack * 2 ^ 17 + b2n nak * 2 ^ 29)

/-- R284: the CRC of a flit's first 248 bytes. -/
def flitCrc (bs : List Byte) : Nat := crc64Init (2 ^ 64 - 1) (2 ^ 64 - 1) bs

/-- R283: a flit. -/
def mkFlit (kind vc seq ack : Nat) (nak : Bool) (payload : List Byte) : List Byte :=
  let b := flitHeader kind vc seq ack nak ++ fit 244 payload
  b ++ leBytes 8 (flitCrc b)

/-- R319: an Ethernet frame of a port with some flits. -/
def State.ethFrameOf (s : State) (p : Nat) (fs : List (List Byte)) : List Byte :=
  let r := lnkAt p
  let v := s.regN (r + 0x24)
  let addr := fun o => (leBytes 4 (s.regN (r + o)) ++ leBytes 2 (s.regN (r + o + 4))).reverse
  let be := fun (n : Nat) => (leBytes 2 n).reverse
  let b := addr 0x30 ++ addr 0x28
    ++ (if bit v 15 then be 0x8100 ++ be (bits v 11 0 + bits v 14 12 * 2 ^ 13) else [])
    ++ be (s.regN (r + 0x20) % 65536) ++ fs.flatten
  b ++ leBytes 4 (crc32 b)

/-- R320: the frames for some flits: four flits to a frame, the rest in the last; `n` bounds them. -/
def State.ethFrames (s : State) (p : Nat) : Nat → List (List Byte) → List (List Byte)
  | 0, _ => []
  | n + 1, fs => if fs.isEmpty then [] else s.ethFrameOf p (fs.take 4) :: s.ethFrames p n (fs.drop 4)

/-- R282, R319, R320: the flits that are ready leave a port: bare on a native port, in frames on an Ethernet one (what one
row makes ready shares frames, log 154). -/
def State.flush (s : State) (p : Nat) : State :=
  let fs := (s.port p).tx
  let out := if 3 ≤ s.linkMode p then s.ethFrames p fs.length fs else fs
  { s.onPort p fun x => { x with tx := [] } with wire := s.wire ++ out.map fun f => (p, f) }

/-- R286: a flit of a port with its current ACK and NAK is ready to leave. -/
def State.readyFlit (s : State) (p : Nat) (f : List Byte) : State :=
  (s.onPort p fun x => { x with tx := x.tx ++ [f] }).count64 (lnkAt p + 0x48) 1

/-- R286: a flit of a port with its current ACK and NAK. -/
def State.sendFlit (s : State) (p kind vc seq : Nat) (payload : List Byte) : State :=
  let x := s.port p
  s.readyFlit p (mkFlit kind vc seq ((x.expect + 4095) % 4096) x.nak payload)

/-- R286, R287: a NULL flit with the counts. -/
def State.sendCounts (s : State) (p : Nat) : State :=
  let s := s.sendFlit p 0 0 0 ((s.port p).ret.flatMap fun n => leBytes 2 n)
  s.onPort p fun x => { x with told := x.ret, sinceCounts := 0 }

/-- R295, R297: a keepalive of a port is due: none has left since the last multiple of 100 T-ticks. -/
def State.keepDue (s : State) (p : Nat) : Bool := (s.port p).keepNo != s.now.toNat / 100

/-- R306: a message that a quarantined port may carry: MAIL or WRITE_ACK. -/
def quarOk (vc : Nat) (m : List Byte) : Bool := vc == 0 && (fld m 0 1 % 16 == 9 || fld m 0 1 % 16 == 6)

/-- R502, R503: in PARK only control-VC DATA flits leave. -/
def State.vcOpen (s : State) (vc : Nat) : Bool := vc == 0 || s.regN pwrAt % 8 != 4

/-- R332: of a device's own fragments the one whose turn it is: the engine of the first in line sends the first fragment of
the collective that follows, in index order, the one it served last (log 155); any other message stays in line. -/
def State.inTurn (s : State) (p : Nat) (m : Nat × List Byte) : Nat × List Byte :=
  let x := s.port p
  let own := fun (b : List Byte) => fld b 4 2 == s.node && fld b 0xC 2 == fld m.2 0xC 2
  if m.1 ≠ 1 ∨ own m.2 = false then m
  else
    let last := Tab.get x.turn (fld m.2 0xC 2) 65535
    let key := fun (b : List Byte) => (fld b 0x20 2 + 65535 - last) % 65536
    (x.outq.filter fun q => q.1 == 1 && own q.2).foldl (fun a q => if key q.2 < key a.2 then q else a) m

/-- R332: an own fragment that leaves moves its engine's turn on. -/
def State.turnOn (s : State) (p : Nat) (m : Nat × List Byte) : State :=
  if m.1 = 1 ∧ fld m.2 4 2 = s.node then
    s.onPort p fun x => { x with turn := Tab.set x.turn (fld m.2 0xC 2) (fld m.2 0x20 2) }
  else s

/-- R286, R288, R294, R295, R314, R332, R502: the message that leaves next: by VC priority, with a credit, within the replay
buffer, behind a credit flit or a keepalive that is due, and never past an open SEQ. -/
def State.nextOut (s : State) (p : Nat) : Option (Nat × List Byte) :=
  let x := s.port p
  let st := s.linkState p
  if !(st == 4 || st == 5) || decide (512 ≤ x.replay.length) || decide (32 ≤ x.sinceCounts) || s.keepDue p
      || x.hole.isSome then none
  else [0, 1, 3, 2].findSome? fun vc =>
    if x.credit.getD vc 0 = 0 || !s.vcOpen vc then none
    else (x.outq.find? fun m => m.1 == vc && (st == 4 || quarOk m.1 m.2)).map (s.inTurn p)

/-- R288: one DATA flit leaves. -/
def State.sendOne (s : State) (p : Nat) (m : Nat × List Byte) : State :=
  let x := s.port p
  let s := s.onPort p fun x => { x with
    outq := x.outq.erase m
    seq := (x.seq + 1) % 4096
    lastAdv := if x.replay.isEmpty then s.now else x.lastAdv
    replay := x.replay ++ [(x.seq, m.1, m.2)]
    sinceCounts := x.sinceCounts + 1
    credit := setAt 0 x.credit m.1 (x.credit.getD m.1 0 - 1) }
  ((s.turnOn p m).sendFlit p 1 m.1 x.seq m.2).linkRefresh p

/-- Everything that may leave a port now leaves; `n` bounds the flits. -/
def State.pumpN (p : Nat) : Nat → State → State
  | 0, s => s
  | n + 1, s =>
    match s.nextOut p with
    | none => s
    | some m => State.pumpN p n (s.sendOne p m)

/-- Everything that may leave a port now leaves. -/
def State.pump (s : State) (p : Nat) : State := (State.pumpN p (s.port p).outq.length s).flush p

/-- R307: a message is queued for a port; a port that is not up loses it. -/
def State.queueMsg (s : State) (p vc : Nat) (m : List Byte) : State :=
  if s.linkState p = 4 ∨ s.linkState p = 5 then
    (s.onPort p fun x => { x with outq := x.outq ++ [(vc, m)] }).pump p
  else s

/-- R309: the VC of a message type. -/
def msgVc (t : Nat) : Nat :=
  match t with
  | 1 => 2
  | 2 => 2
  | 4 => 2
  | 7 => 1
  | 10 => 3
  | _ => 0

/-- R308: a message: header fields and data area. -/
structure Msg where
  mtype : Nat
  sable : Bool := false
  ack : Bool := false
  len : Nat := 0
  hops : Nat := 0
  hopA : Nat := 0
  hopB : Nat := 0
  hopC : Nat := 0
  src : Nat := 0
  dst : Nat := 0
  mtag : Nat := 0
  srcId : Nat := 0
  status : Nat := 0
  addr : Nat := 0
  operand : Nat := 0
  data : List Byte := []
  deriving DecidableEq, Repr

/-- R308: the 224 bytes of a message. -/
def Msg.bytes (m : Msg) : List Byte :=
  leBytes 4 (m.mtype + b2n m.sable * 16 + b2n m.ack * 32 + m.len * 2 ^ 8 + m.hops * 2 ^ 16 + m.hopA * 2 ^ 20
      + m.hopB * 2 ^ 24 + m.hopC * 2 ^ 28)
    ++ leBytes 2 m.src ++ leBytes 2 m.dst ++ leBytes 4 m.mtag ++ leBytes 2 m.srcId ++ leBytes 2 (m.status % 256)
    ++ leBytes 8 (m.addr % 2 ^ 48) ++ leBytes 8 m.operand ++ fit 192 m.data

/-- R308: the fields of a received message. -/
def Msg.ofBytes (b : List Byte) : Msg :=
  let w := fld b 0 4
  { mtype := bits w 3 0, sable := bit w 4, ack := bit w 5, len := bits w 15 8, hops := bits w 17 16
    hopA := bits w 23 20, hopB := bits w 27 24, hopC := bits w 31 28
    src := fld b 4 2, dst := fld b 6 2, mtag := fld b 8 4, srcId := fld b 0xC 2, status := fld b 0xE 1
    addr := fld b 0x10 6, operand := fld b 0x18 8, data := sub b 0x20 192 }

/-- R328: a message goes to rank `r` of group `g` by the route of the group table. -/
def State.sendRank (s : State) (g r : Nat) (m : Msg) : State :=
  let e := s.rankEntry g r
  s.queueMsg (rPort e) (msgVc m.mtype)
    ({ m with src := s.node, dst := rNode e, hops := bits e 21 20, hopA := bits e 25 22, hopB := bits e 29 26
              hopC := bits e 33 30 }).bytes

/-- The route to a node: the first group entry of the job that names it with VALID (log 25). -/
def State.routeTo (s : State) (node : Nat) : Option Nat :=
  if !s.job.loaded then none
  else (List.range (s.jobF 0xAC 2 % 2 ^ 13)).findSome? fun g =>
    ((List.range (s.ranks g)).map fun r => s.rankEntry g r).find? fun e => rValid e && rNode e == node

/-- A message goes to a node by a route of the group tables, or straight out of a port where no route is
known. -/
def State.sendNode (s : State) (node port : Nat) (m : Msg) : State :=
  match s.routeTo node with
  | some e => s.queueMsg (rPort e) (msgVc m.mtype)
      ({ m with src := s.node, dst := node, hops := bits e 21 20, hopA := bits e 25 22, hopB := bits e 29 26
                hopC := bits e 33 30 }).bytes
  | none => s.queueMsg port (msgVc m.mtype) ({ m with src := s.node, dst := node }).bytes

/-- R294: a buffer of a VC is free again. -/
def State.giveCredit (s : State) (p vc : Nat) : State :=
  s.onPort p fun x => { x with ret := setAt 0 x.ret vc ((x.ret.getD vc 0 + 1) % 65536) }

/-- R311, R312: a message is dropped: counted, an event bit set, a Grey event whose code the spec does not list
(log 24). -/
def State.dropMsg (s : State) (p ev : Nat) : State :=
  let s := (s.count (lnkAt p + 0x70) 1).raiseBits (lnkAt p + 0x18) ev
  let c := s.freeWord
  c.2.raise (s.portWorld p) (c.1.toNat % 65536) 1 (portSource p) []

/-- R334: the payload bytes of a fragment that its DTYPE and COUNT use: offset in the data area, bytes. -/
def fragUsed (dt count : Nat) : List (Nat × Nat) :=
  let m := ceilDiv count 32
  match dt with
  | 0 => [(0x10, count)]
  | 1 => [(0x10, 2 * count)]
  | 4 => [(0x10, 4 * count)]
  | 5 => [(0x10, 32 * m), (0x50, 32 * m), (0x90, m), (0x92, m)]
  | _ => [(0x10, 32 * m), (0xB0, m)]

/-- Every byte of a data area outside some ranges is 0. -/
def zeroBut (d : List Byte) (used : List (Nat × Nat)) : Bool :=
  (List.range d.length).all fun i => d.getD i 0 == 0 || used.any fun u => decide (u.1 ≤ i ∧ i < u.1 + u.2)

/-- R310, R311, R334, R351: a reserved field of the data area of a fragment, a hurdle message or a mirror record is
nonzero. -/
def badData (t : Nat) (d : List Byte) : Bool :=
  match t with
  | 7 => bits (fld d 0 4) 31 29 != 0
      || !zeroBut d ((0, 0x10) :: if bit (fld d 0 4) 28 then [] else fragUsed (bits (fld d 0 4) 27 24) (fld d 0xD 1))
  | 8 => bits (fld d 0x10 4) 31 17 != 0 || fld d 0x1D 3 != 0 || fld d 0x2A 2 != 0 || !allZero (sub d 0x2C 20)
  | 10 => fld d 2 2 != 0 || fld d 0xD 3 != 0 || !allZero (sub d 0x32 14)
  | _ => false

/-- R309, R311: a received message breaks the table of message types or a reserved field. -/
def badMsg (vc : Nat) (payload : List Byte) : Bool :=
  let m := Msg.ofBytes payload
  let w := fld payload 0 4
  let zero := m.addr == 0
  bits w 7 6 != 0 || bits w 19 18 != 0 || fld payload 0xF 1 != 0 || fld payload 0x16 2 != 0
    || !allZero (payload.drop 224) || msgVc m.mtype != vc || badData m.mtype m.data ||
    (match m.mtype with
     | 1 => !decide (1 ≤ m.len ∧ m.len ≤ 192)
     | 2 => !decide (1 ≤ m.len ∧ m.len ≤ 192)
     | 3 => decide (192 < m.len)
     | 4 => !((m.len == 4 || m.len == 8) && m.addr % m.len == 0)
     | 5 => !(m.len == 4 || m.len == 8)
     | 6 => m.len != 0
     | 7 => decide (192 < m.len) || !zero
     | 8 => !decide (16 ≤ m.len ∧ m.len ≤ 192) || !zero
     | 9 => m.len != 64 || !zero
     | 10 => m.len != 96 || !zero
     | _ => true)

/-- R306, R311, R312, R315: a DATA flit's message is delivered to its virtual channel, or dropped. -/
def State.deliver (s : State) (p vc : Nat) (payload : List Byte) : State :=
  let b0 := fld payload 0 1
  let payload := if s.portWorld p = .ivory ∧ bit b0 4 then setAt 0 payload 0 (BitVec.ofNat 8 (b0 - 16)) else payload
  let m := Msg.ofBytes payload
  let fpBad := m.mtype == 8 && vc == 0 && sub m.data 0 16 != s.fp
  let s := if s.linkState p = 4 ∧ fpBad ∧ ¬ badMsg vc payload then s.quarantine p (sub m.data 0 16) else s
  if s.linkState p = 5 ∧ ¬ quarOk vc payload then (s.count (lnkAt p + 0x70) 1).giveCredit p vc
  else if badMsg vc payload then (s.dropMsg p 0x10).giveCredit p vc
  else if m.hops = 0 ∧ m.dst ≠ s.node then (s.dropMsg p 8).giveCredit p vc
  else s.onPort p fun x => { x with inq := x.inq ++ [(vc, payload.take 224)] }

/-- R286, R290, R294: one flit is sent again, behind a credit flit that is due. -/
def State.replayOne (p : Nat) (s : State) (r : Nat × Nat × List Byte) : State :=
  let s := if 32 ≤ (s.port p).sinceCounts then s.sendCounts p else s
  (s.onPort p fun x => { x with sinceCounts := x.sinceCounts + 1 }).sendFlit p 1 r.2.1 r.1 r.2.2

/-- R290, R292: a replay: every unacknowledged flit is sent again. -/
def State.doReplay (s : State) (p : Nat) : State :=
  if 8 ≤ (s.port p).tries then s.portDown p 2
  else
    let s := (s.onPort p fun x => { x with tries := x.tries + 1, lastAdv := s.now }).count (lnkAt p + 0x6C) 1
    ((s.port p).replay.foldl (State.replayOne p) s).flush p

/-- R288: the replay buffer after an ACK; true when ACK advanced. -/
def ackDrop (ack : Nat) (l : List (Nat × Nat × List Byte)) : List (Nat × Nat × List Byte) × Bool :=
  match l.findIdx? (·.1 == ack) with
  | some i => (l.drop (i + 1), true)
  | none => (l, false)

/-- R286, R288, R290: ACK and NAK of a good flit. A NAK with the ACK of the last one that started a replay starts no
other (DEDUCED from the worked example of R292, log 149). -/
def State.rxAck (s : State) (p w : Nat) : State :=
  let ack := bits w 28 17
  let r := ackDrop ack (s.port p).replay
  let s := if r.2 then s.onPort p fun x => { x with
      replay := r.1, ackGot := ack, lastAdv := s.now, tries := 0, nakAt := none } else s
  let s := if bit w 29 && !(s.port p).replay.isEmpty && (s.port p).nakAt != some ack then
      (s.doReplay p).onPort p fun x => { x with nakAt := some ack } else s
  (s.linkRefresh p).pump p

/-- R284, R285: how a received flit fares: good, stomped or bad. -/
inductive FlitSt where
  | good
  | stomped
  | bad
  deriving DecidableEq, Repr

/-- The bytes of a flit. -/
def flitBytes (f : Flit) : List Byte := (List.range 256).map fun i => f.bits.extractLsb' (8 * i) 8

/-- R284, R285: the check of a received flit. -/
def checkFlit (b : List Byte) : FlitSt :=
  let w := fld b 0 4
  let k := w % 8
  let c := flitCrc (b.take 248)
  let r := fld b 248 8
  if r = c then
    (if 4 ≤ k ∨ bits w 31 30 ≠ 0 ∨ (k ≠ 1 ∧ bits w 16 3 ≠ 0) then .bad else .good)
  else if r = 2 ^ 64 - 1 - c then .stomped
  else .bad

/-- R280, R282, R285: the check of a received flit: a shortened one, and one that an uncorrectable codeword touches,
fails its CRC. -/
def flitCheck (f : Flit) : FlitSt := if f.short ∨ f.uncorr ≠ 0 then .bad else checkFlit (flitBytes f)

/-- R285: a flit that fails is discarded and counted; a DATA flit that fails sets NAK (R289). -/
def State.badFlit (s : State) (p : Nat) (data : Bool) : FlitSt → State
  | .good => s
  | .stomped => (if data then s.onPort p fun x => { x with nak := true } else s).count (lnkAt p + 0x68) 1
  | .bad => (if data then s.onPort p fun x => { x with nak := true } else s).count (lnkAt p + 0x64) 1

/-- R31: a flit of port `p` for port `q` on a VC takes the sprint path: native ports of one edge die, both UP, a credit;
and nothing holds the output up (DEDUCED, log 76). -/
def State.sprint (s : State) (p q vc : Nat) : Bool :=
  let x := s.port q
  let native := fun n => s.linkMode n == 1 || s.linkMode n == 2
  native p && native q && p / 4 == q / 4 && s.linkState p == 4 && s.linkState q == 4 && decide (0 < x.credit.getD vc 0)
    && x.outq.isEmpty && x.hole.isNone && decide (x.replay.length < 512 ∧ x.sinceCounts < 32) && !s.keepDue q
    && s.vcOpen vc && !(s.port p).inq.any (·.1 == vc)

/-- R312: a message as it is forwarded. -/
def Msg.forward (m : Msg) : Msg := { m with hops := m.hops - 1, hopA := m.hopB, hopB := m.hopC, hopC := 0 }

/-- R314: a DATA flit that has begun on its output and then fails its CRC leaves stomped, and its SEQ stays open. -/
def State.stomp (s : State) (p : Nat) (b : List Byte) : State :=
  let w := fld b 0 4
  let m := Msg.ofBytes (sub b 4 244)
  let q := m.hopA
  let vc := bits w 4 3
  let x := s.port q
  if bits w 16 5 = (s.port p).expect ∧ (s.port p).nak = false ∧ m.hops ≠ 0 ∧ s.sprint p q vc = true then
    let f := mkFlit 1 vc x.seq ((x.expect + 4095) % 4096) x.nak m.forward.bytes
    let s := s.onPort q fun x => { x with
      hole := some (x.seq, p, vc), seq := (x.seq + 1) % 4096, sinceCounts := x.sinceCounts + 1
      credit := setAt 0 x.credit vc (x.credit.getD vc 0 - 1) }
    ((s.readyFlit q (f.take 248 ++ leBytes 8 (2 ^ 64 - 1 - flitCrc (f.take 248)))).flush q).linkRefresh q
  else s

/-- R314: the flit that input port `p` has accepted is no good copy for an output that waits for one. -/
def State.unholes (s : State) (p vc : Nat) (m : Msg) : State :=
  s.forAll (s.holesOf p) fun q s =>
    if m.hops ≠ 0 ∧ m.hopA = q ∧ ((s.port q).hole.map (·.2.2)) = some vc then s else s.unhole q

/-- R289: a good DATA flit. -/
def State.rxData (s : State) (p : Nat) (b : List Byte) : State :=
  let w := fld b 0 4
  let x := s.port p
  let s := if bits w 16 5 = x.expect then
      let s := s.onPort p fun x => { x with expect := (x.expect + 1) % 4096, nak := false }
      ((s.count64 (lnkAt p + 0x50) 1).unholes p (bits w 4 3) (Msg.ofBytes (sub b 4 244))).deliver p (bits w 4 3) (sub b 4 244)
    else s.onPort p fun x => { x with nak := true }
  s.rxAck p w

/-- R294: cumulative credit counts from the peer. -/
def State.rxCounts (s : State) (p : Nat) (counts : List Nat) : State :=
  s.onPort p fun x => { x with
    credit := (List.range 4).map fun i =>
      x.credit.getD i 0 + (counts.getD i 0 + 65536 - x.peerCnt.getD i 0) % 65536
    peerCnt := counts }

/-- The link carries flits (R302). -/
def State.linkUp (s : State) (p : Nat) : Bool := s.linkState p == 4 || s.linkState p == 5

/-- R287: a good NULL flit. -/
def State.rxNull (s : State) (p : Nat) (b : List Byte) : State :=
  let s := (s.count64 (lnkAt p + 0x50) 1).rxCounts p ((List.range 4).map fun i => fld b (4 + 2 * i) 2)
  s.rxAck p (fld b 0 4)

/-- R279: transmit and receive latency of a port in X-cycles. -/
def State.linkLat (s : State) (p : Nat) : Int × Int := if 3 ≤ s.linkMode p then (40, 102) else (34, 96)

/-- R297: the local time in X-cycles; the phase within the tick is open (log 26). -/
def State.xTime (s : State) : Nat × State :=
  let r := s.freeWord
  (s.now.toNat * 14 + r.1.toNat % 14, r.2)

/-- R301: a T-tick passes: while there is an offset to slew, at most one tick of 16 is an X-cycle shorter or longer. -/
def State.slewTick (s : State) : State :=
  let t := s.time
  if t.want = 0 ∨ (s.now - t.slewAt).toNat < 16 then { s with time := { t with len := 14 } }
  else { s with time := { t with
    want := t.want - t.want.sign, slewAt := s.now, len := (14 - t.want.sign).toNat } }

/-- R300, R301: the offset computation of a keepalive on the UP port, received at local time `rx`: one step, or a slew. -/
def State.timeSync (s : State) (p rx : Nat) (k : List Byte) : State :=
  let lat := s.linkLat p
  let t1 : Int := fld k 0x18 8 + lat.1
  let t2 : Int := fld k 0x20 8 - lat.2
  let t3 : Int := fld k 0x10 8 + lat.1
  let t4 : Int := rx - lat.2
  let half : Int := b2n (Config.freeBit s.free)
  let s := { s with free := s.free + 1 }
  let off : Int := ((t2 - t1) - (t4 - t3) + half) / 2
  let s := s.setRegN (lnkAt p + 0x40) (ofInt 32 off)
  let t := s.time
  let small := decide (off.natAbs ≤ 7)
  let run := if small then t.run + 1 else 0
  let locked := if 28 < off.natAbs then false else t.locked || decide (8 ≤ run)
  let step := !t.ever && !t.stepped && decide (140 < off.natAbs)
  let s := { s with
    time := { t with
      ever := t.ever || locked, stepped := t.stepped || step, run := run, locked := locked, want := if step then 0 else off }
    now := if step then BitVec.ofNat 64 (((rx : Int) + off) / 14).toNat else s.now }
  s.putField (lnkAt p + 8) 3 3 (b2n locked)

/-- R297, R298, R300, R305: a good KEEPALIVE flit; one that comes 400 T-ticks after the last is too late. -/
def State.rxKeep (s : State) (p : Nat) (b : List Byte) : State :=
  if 400 ≤ (s.now - (s.port p).lastKeep).toNat then s.portDown p 1
  else
  let k := sub b 4 244
  let t := s.xTime
  let s := t.2.onPort p fun x => { x with lastKeep := s.now, echoTx := fld k 0x10 8, echoRx := t.1, keep := k }
  let s := (s.count64 (lnkAt p + 0x50) 1).rxCounts p ((List.range 4).map fun i => fld k (0x28 + 2 * i) 2)
  let s := if s.linkState p = 4 ∧ sub k 0 16 ≠ s.fp then s.quarantine p (sub k 0 16) else s
  let s := if s.regN (lnkAt p + 0x1C) % 4 = 1 then s.timeSync p t.1 k else s
  let s := if s.linkState p = 4 then s.splitCheck (fld k 0x30 4) (fld k 0x40 2) else s
  s.rxAck p (fld b 0 4)

/-- R293: the receiver's buffers, advertised as initial credits. -/
def rxBuffers : List Nat := [32, 192, 192, 96]

/-- R303, R304: the port leaves LLT. -/
def State.llDone (s : State) (p : Nat) (t : List Byte) : State :=
  let w := fld t 0 4
  let w1 := fld t 4 4
  let b := lnkAt p
  let s := (s.setRegN (b + 0xC) (bits w1 19 0 + bits w 3 0 * 2 ^ 20))
  if bits w 7 4 ≠ 1 ∨ bits w 19 16 ≠ 1 then (s.raiseBits (b + 0x18) 4).portDown p 5
  else if bit w1 20 ≠ decide (3 ≤ s.linkMode p) then s.portDown p 6
  else
    let s := s.setRegN (b + 0x10) (min (bits w 3 0) 1 + 0x10 + 0x10000)
    let fresh : Port := { lastKeep := s.now, lastAdv := s.now, keepNo := s.now.toNat / 100
                          credit := (List.range 4).map fun i => fld t (8 + 2 * i) 2 }
    let s := { s with ports := Tab.set s.ports p fresh }
    if sub t 0x10 64 ≠ fit 64 s.digest then (s.quarantine p (sub t 0x10 16)).linkRefresh p
    else (s.setLink p 4).linkRefresh p

/-- R303: the payload of this device's TRAIN flits on a port. -/
def State.trainPayload (s : State) (p : Nat) : List Byte :=
  leBytes 4 (1 + 0x10 + 0x10000 + b2n (s.port p).rxOk * 2 ^ 28)
    ++ leBytes 4 (s.node + p * 2 ^ 16 + b2n (decide (3 ≤ s.linkMode p)) * 2 ^ 20)
    ++ rxBuffers.flatMap (leBytes 2) ++ fit 64 s.digest

/-- R304: a TRAIN flit leaves a port. -/
def State.sendTrain (s : State) (p : Nat) : State := (s.sendFlit p 3 0 0 (s.trainPayload p)).flush p

/-- R304: in LLT a TRAIN flit leaves every 100 ns. -/
def State.trainTick (s : State) : State :=
  s.forAll (List.range 16) fun p s =>
    if s.linkState p == 3 && (s.now - (s.port p).since).toNat % 10 == 0 then s.sendTrain p else s

/-- R304: a good TRAIN flit in LLT. -/
def State.rxTrain (s : State) (p : Nat) (b : List Byte) : State :=
  let t := sub b 4 244
  let ok := bit (fld t 0 4) 28
  let key := setAt 0 t 3 (BitVec.ofNat 8 (fld t 3 1 - b2n ok * 16))
  let x := s.port p
  let n := if x.train = key then x.same + 1 else 1
  let own := x.rxOk || decide (8 ≤ n)
  let s := (s.onPort p fun x => { x with train := key, same := n, peerOk := ok, rxOk := own }).count64 (lnkAt p + 0x50) 1
  if ok && own then s.llDone p t else s

/-- R280: the FEC decoder of a port that has passed PMD training counts its codewords. -/
def State.fec (s : State) (p corr uncorr : Nat) : State :=
  if 2 ≤ s.linkState p ∧ s.linkState p ≤ 5 then (s.count64 (lnkAt p + 0x58) corr).count (lnkAt p + 0x60) uncorr else s

/-- A received flit of a row, with its check: the row acts when the port is in a state that takes its kind and the flit is
bad or of that kind. -/
def State.rxFlit (s : State) (p kind : Nat) (c : FlitSt) (f : List Byte) (inState : Bool) (g : State → State) : State :=
  if !inState then s
  else match c with
    | .good => if fld f 0 1 % 8 = kind then g s else s
    | x => (if kind = 1 then s.stomp p f else s).badFlit p (kind == 1) x

/-- DATA_FLIT (R289). -/
def execDataFlit (p : Nat) (f : Flit) (s : State) : Host.Outcome State Fault Refusal :=
  guarded (decide (p < 16)) ((s.fec p f.corr f.uncorr).rxFlit p 1 (flitCheck f) (flitBytes f) (s.linkUp p) fun s => s.rxData p (flitBytes f))

/-- NULL_FLIT (R287). -/
def execNullFlit (p : Nat) (f : Flit) (s : State) : Host.Outcome State Fault Refusal :=
  guarded (decide (p < 16)) ((s.fec p f.corr f.uncorr).rxFlit p 0 (flitCheck f) (flitBytes f) (s.linkUp p) fun s => s.rxNull p (flitBytes f))

/-- KEEPALIVE (R297, R300, R305): a received keepalive. -/
def execKeepalive (p : Nat) (f : Flit) (s : State) : Host.Outcome State Fault Refusal :=
  guarded (decide (p < 16)) ((s.fec p f.corr f.uncorr).rxFlit p 2 (flitCheck f) (flitBytes f) (s.linkUp p) fun s => s.rxKeep p (flitBytes f))

/-- TRAIN_FLIT (R304). -/
def execTrainFlit (p : Nat) (f : Flit) (s : State) : Host.Outcome State Fault Refusal :=
  guarded (decide (p < 16)) ((s.fec p f.corr f.uncorr).rxFlit p 3 (flitCheck f) (flitBytes f) (s.linkState p == 3) fun s => s.rxTrain p (flitBytes f))

/-- R297: the payload of a keepalive. -/
def State.keepPayload (s : State) (p stamp : Nat) : List Byte :=
  let x := s.port p
  let parked := s.regN pwrAt % 8 == 4
  let root := (List.range 16).all fun q => s.regN (lnkAt q + 0x1C) % 4 != 1
  s.fp ++ leBytes 8 stamp ++ leBytes 8 x.echoTx ++ leBytes 8 x.echoRx
    ++ (List.range 4).flatMap (fun i => leBytes 2 (x.ret.getD i 0))
    ++ leBytes 4 (if s.heat.running then s.heat.num else s.lastHeat) ++ leBytes 1 s.heat.attempt
    ++ leBytes 1 (b2n (s.time.locked || root) + 2 * b2n parked) ++ leBytes 2 s.relay.lastEntry
    ++ leBytes 8 s.relay.lastTick.toNat ++ leBytes 2 s.node ++ leBytes 2 p

/-- KEEPALIVE_SEND (R297): once after each T-tick that is a multiple of 100. -/
def execKeepaliveSend (p : Nat) (s : State) : Host.Outcome State Fault Refusal :=
  guarded (decide (p < 16)) (if s.linkUp p && s.keepDue p then
    let t := s.xTime
    let s := t.2.sendFlit p 2 0 0 (t.2.keepPayload p t.1)
    (s.onPort p fun x => { x with told := x.ret, sinceCounts := 0, keepNo := s.now.toNat / 100 }).pump p
  else s)

/-- CREDIT_FLIT_SEND (R286, R287): a NULL flit with the counts. -/
def execCreditFlitSend (p : Nat) (s : State) : Host.Outcome State Fault Refusal :=
  guarded (decide (p < 16)) (if s.linkUp p then (s.sendCounts p).pump p else s)

/-- REPLAY_TIMEOUT (R290, R292): no advance of ACK for 2 µs. -/
def execReplayTimeout (p : Nat) (s : State) : Host.Outcome State Fault Refusal :=
  guarded (decide (p < 16)) (
    if s.linkUp p && !(s.port p).replay.isEmpty && decide (200 ≤ (s.now - (s.port p).lastAdv).toNat) then s.doReplay p
    else s)

/-- SILENCE (R298): no valid keepalive for 400 T-ticks. -/
def execSilence (p : Nat) (s : State) : Host.Outcome State Fault Refusal :=
  guarded (decide (p < 16)) (
    if s.linkUp p && decide (400 ≤ (s.now - (s.port p).lastKeep).toNat) then s.portDown p 1 else s)

/-- PORT_TRAIN_START (R281, R302): from OFF after commit, or from DOWN after 1 ms. -/
def execPortTrainStart (p : Nat) (s : State) : Host.Outcome State Fault Refusal :=
  guarded (decide (p < 16)) (
    let st := s.linkState p
    let ready := s.committed && s.linkMode p != 0
    if st == 6 && s.holdDown p then s.setLink p 0
    else if ready && !s.holdDown p && (st == 0 ||
        (st == 6 && decide (100000 ≤ (s.now - (s.port p).since).toNat))) then s.setLink p 1
    else s)

/-- PMD_TRAIN_DONE (R302). -/
def execPmdTrainDone (p : Nat) (s : State) : Host.Outcome State Fault Refusal :=
  guarded (decide (p < 16)) (if s.linkState p = 1 then s.setLink p 2 else s)

/-- PCS_LOCK (R302). -/
def execPcsLock (p : Nat) (s : State) : Host.Outcome State Fault Refusal :=
  guarded (decide (p < 16)) (if s.linkState p = 2 then
    ({ s with ports := Tab.set s.ports p {} }).setLink p 3 else s)

/-- TRAIN_STATE_TIMEOUT (R302): the state's time limit has passed. -/
def execTrainStateTimeout (p : Nat) (s : State) : Host.Outcome State Fault Refusal :=
  guarded (decide (p < 16)) (
    let d := (s.now - (s.port p).since).toNat
    match s.linkState p with
    | 1 => if 50000000 ≤ d then s.portDown p 3 else s
    | 2 => if 1000000 ≤ d then s.portDown p 4 else s
    | 3 => if 5000 ≤ d then s.portDown p 7 else s
    | _ => s)

/-- LOSS_OF_BLOCK_LOCK (R278): a lane fails; the whole port goes down. -/
def execLossOfBlockLock (p lane : Nat) (s : State) : Host.Outcome State Fault Refusal :=
  guarded (decide (p < 16) && decide (lane < 4)) (
    match s.linkState p with
    | 1 => s.portDown p 3
    | 2 => s.portDown p 4
    | 3 => s.portDown p 4
    | 4 => s.portDown p 4
    | 5 => s.portDown p 4
    | _ => s)

/-- LNK_RETRAIN (R323): a write of 1 to RETRAIN. -/
def State.retrain (s : State) (p : Nat) : State := if s.linkUp p then s.portDown p 8 else s

/-- LNK_RETRAIN (R323). -/
def execLnkRetrain (p : Nat) (s : State) : Host.Outcome State Fault Refusal :=
  guarded (decide (p < 16)) (s.retrain p)

/-- R323: a write to HOLD_DOWN. -/
def State.setHold (s : State) (p : Nat) (hold : Bool) : State :=
  let st := s.linkState p
  if hold then
    let s := s.raiseBits (lnkAt p + 0x14) 1
    if st = 0 then s else if st = 6 then s.setLink p 0 else (s.portDown p 8).setLink p 0
  else s.dropBits (lnkAt p + 0x14) 1

/-- LNK_HOLD_DOWN (R323). -/
def execLnkHoldDown (p : Nat) (hold : Bool) (s : State) : Host.Outcome State Fault Refusal :=
  guarded (decide (p < 16)) (s.setHold p hold)

/-- R319, R320: the flits of an accepted frame, or none where the frame is dropped. -/
def State.frameFlits (s : State) (p : Nat) (b : List Byte) : Option (List (List Byte)) :=
  let r := lnkAt p
  let vlan := bit (s.regN (r + 0x24)) 15
  let addr := fun o => (leBytes 4 (s.regN (r + o)) ++ leBytes 2 (s.regN (r + o + 4))).reverse
  let tagged := beNat (sub b 12 2) == 0x8100
  let h := if vlan then 18 else 14
  let n := (b.length - h - 4) / 256
  if b.length ≠ h + 4 + 256 * n ∨ n < 1 ∨ 4 < n then none
  else if tagged ≠ vlan ∨ crc32 (b.take (b.length - 4)) ≠ fld b (b.length - 4) 4 then none
  else if sub b 0 6 ≠ addr 0x28 ∨ sub b 6 6 ≠ addr 0x30 then none
  else if beNat (sub b (h - 2) 2) ≠ s.regN (r + 0x20) % 65536 then none
  else some ((List.range n).map fun i => sub b (h + 256 * i) 256)

/-- R320: one flit of a frame, by its kind. -/
def State.rxAny (s : State) (p : Nat) (f : List Byte) : State :=
  match fld f 0 1 % 8 with
  | 0 => s.rxFlit p 0 (checkFlit f) f (s.linkUp p) fun s => s.rxNull p f
  | 2 => s.rxFlit p 2 (checkFlit f) f (s.linkUp p) fun s => s.rxKeep p f
  | 3 => s.rxFlit p 3 (checkFlit f) f (s.linkState p == 3) fun s => s.rxTrain p f
  | _ => s.rxFlit p 1 (checkFlit f) f (s.linkUp p) fun s => s.rxData p f

/-- ETH_FRAME (R280, R320): a received frame on an Ethernet-mode port; the FCS of one that an uncorrectable codeword
touches fails. -/
def execEthFrame (p : Nat) (f : EthFrame) (s : State) : Host.Outcome State Fault Refusal :=
  guarded (decide (p < 16)) (
    if !(decide (3 ≤ s.linkMode p) && (s.linkUp p || s.linkState p == 3 || s.linkState p == 2)) then s
    else
      let s := s.fec p f.corr f.uncorr
      match if f.uncorr ≠ 0 then none else s.frameFlits p f.bytes with
      | none => (s.count (lnkAt p + 0x70) 1).raiseBits (lnkAt p + 0x18) 0x40
      | some fs => fs.foldl (fun s f => s.rxAny p f) s)

/-- The first message of a VC that a port has received. -/
def State.headMsg (s : State) (p vc : Nat) : Option (List Byte) :=
  ((s.port p).inq.find? (·.1 == vc)).map (·.2)

/-- The first message of a VC leaves the receive buffers; its credit is returned. -/
def State.popMsg (s : State) (p vc : Nat) : State :=
  match (s.port p).inq.find? (·.1 == vc) with
  | none => s
  | some m => (s.onPort p fun x => { x with inq := x.inq.erase m }).giveCredit p vc

/-- R312, R314: a message of port `p` goes out through port `q`: the good copy of a flit that left stomped takes the SEQ
kept open for it. -/
def State.forwardTo (s : State) (p q vc : Nat) (out : List Byte) : State :=
  match (s.port q).hole with
  | none => s.queueMsg q vc out
  | some (sq, p0, v0) =>
    if p0 = p ∧ v0 = vc then
      let s := s.onPort q fun x => { x with
        hole := none, lastAdv := if x.replay.isEmpty then s.now else x.lastAdv, replay := x.replay ++ [(sq, vc, out)] }
      ((s.sendFlit q 1 vc sq out).linkRefresh q).pump q
    else s.queueMsg q vc out

/-- MESSAGE_FORWARD (R312): a message with hops left goes out through HOP_A. -/
def execMessageForward (p vc : Nat) (s : State) : Host.Outcome State Fault Refusal :=
  guarded (decide (p < 16) && decide (vc < 4)) (
    match s.headMsg p vc with
    | none => s
    | some b =>
      let m := Msg.ofBytes b
      if m.hops = 0 then s
      else if s.linkState m.hopA ≠ 4 then (s.popMsg p vc).dropMsg p 8
      else (s.popMsg p vc).forwardTo p m.hopA vc m.forward.bytes)

end Sys2Proof.Machine
end

