-- ==== Sys2Proof/Machine/Hurdle.lean ====
section
/-!
DEFINITION. Hurdles: the pod and die slots of R138, and the system hurdles of R348 to R355 on the ED0 relay
engine.
-/
namespace Sys2Proof.Machine

/-- A hurdle entry's state. -/
def State.hrd (s : State) (e : Nat) : Hrd := Tab.get s.relay.hrds e {}
/-- A hurdle entry's state changed. -/
def State.onHrd (s : State) (e : Nat) (f : Hrd → Hrd) : State :=
  { s with relay := { s.relay with hrds := Tab.set s.relay.hrds e (f (s.hrd e)) } }
/-- R348: LOCAL of an entry. -/
def State.hrdLocal (s : State) (e : Nat) : Nat := s.word (s.hrdAddr e + 2) 2
/-- R348: KIND of an entry. -/
def State.hrdKind (s : State) (e : Nat) : Nat := s.word (s.hrdAddr e + 4) 1 % 4
/-- R348: PHASE of an entry. -/
def State.hrdPhase (s : State) (e : Nat) : Nat := bits (s.word (s.hrdAddr e + 4) 1) 4 2
/-- R348: the FINISH entry of the job. -/
def State.finishEntry (s : State) : Nat :=
  ((List.range s.hrdCount).find? fun e => s.hrdKind e == 2).getD 0

/-- R350: photo-finish order of (tick, node). -/
def laterOf (a b : DWord × Nat) : DWord × Nat :=
  if a.1.toNat < b.1.toNat ∨ (a.1 = b.1 ∧ a.2 < b.2) then b else a

/-- R350: the latest arrival known for the entry's epoch. -/
def Hrd.known (h : Hrd) (a : DWord) (node : Nat) : DWord × Nat :=
  (h.got.filter (·.epoch == h.epoch)).foldl (fun m r => laterOf m (r.tick, r.node)) (a, node)

/-- R350: a round of the epoch has been received. -/
def Hrd.has (h : Hrd) (j : Nat) : Bool := h.got.any fun r => r.epoch == h.epoch && r.round == j

/-- R351: the data area of a HURDLE message. -/
def State.hrdData (s : State) (entry round void epoch origin heat attempt : Nat) (l : DWord × Nat) : List Byte :=
  s.fp ++ leBytes 4 (entry + round * 2 ^ 12 + void * 2 ^ 16) ++ leBytes 2 epoch ++ leBytes 2 origin
    ++ leBytes 4 heat ++ leBytes 4 attempt ++ leBytes 8 l.1.toNat ++ leBytes 4 l.2

/-- R309, R351: a HURDLE message to a rank of a group. -/
def State.sendHurdle (s : State) (g r : Nat) (data : List Byte) : State :=
  s.sendRank g r { mtype := 8, sable := s.relayWorld 0 == .sable, len := 64, srcId := blkSource 0x10, data := data }

/-- R359, R349: the registers that report the entry of EDG_RLY_HRD_SEL; complete is an epoch of the attempt that
has completed. -/
def State.hrdRefresh (s : State) : State :=
  let b := rlyAt 0
  let h := s.hrd (s.regN (b + 0x28) % 4096)
  let st := if h.arrive.isSome then 1 else if h.epoch = 0 then 0 else 2
  ((((s.setRegN (b + 0x2C) (h.epoch + st * 2 ^ 16 + h.lastRound * 2 ^ 20)).setReg64 (b + 0x30) h.lastA.toNat).setReg64
    (b + 0x38) h.lastLatest.toNat).setReg64 (b + 0x40) h.doneTick.toNat).setRegN (b + 0x48) h.lastNode

/-- R350, R353, R355: the entry completes; FINISH at the common tick C, or at the tick of the last round with
GUARD_LATE. -/
def State.hrdComplete (s : State) (e : Nat) (a : DWord) (l : DWord × Nat) : State :=
  let finish := e != 0xFFF && s.hrdKind e == 2
  let c := l.1 + BitVec.ofNat 64 (s.jobF 0xCC 4)
  let late := finish && decide (c.toNat < s.now.toNat)
  let t := if finish && !late then c else s.now
  let s := s.onHrd e fun h => { h with
    epoch := (h.epoch + 1) % 65536, count := 0, arrive := none, sent := 0
    got := h.got.filter fun r => r.epoch == (h.epoch + 1) % 65536
    lastA := a, lastLatest := l.1, lastNode := l.2, doneTick := t, doneCount := h.doneCount + 1 }
  let s := if e = 0xFFF then s else { s with relay := { s.relay with lastEntry := e, lastTick := t } }
  let s := (s.count (rlyAt 0 + 0x4C) 1).progress
  let s := if late then s.raiseJob 0x0207 1 (blkSource 0x10) (leBytes 8 (s.now - c).toNat) else s
  if finish then { s with heat := { s.heat with finish := some t } } else s

/-- R350: rounds that may be sent are sent, and the entry completes when all are in; `n` bounds the moves. -/
def State.hrdAdvance (e : Nat) : Nat → State → State
  | 0, s => s
  | n + 1, s =>
    let h := s.hrd e
    let g := s.hrdGroup e
    let k := rounds (s.ranks g)
    match h.arrive with
    | none => s
    | some a =>
      let l := h.known a s.node
      if h.sent < k then
        if h.sent = 0 ∨ h.has (h.sent - 1) then
          let s1 := s.sendHurdle g ((s.self g + 2 ^ h.sent) % s.ranks g)
            (s.hrdData e h.sent 0 h.epoch 0 s.stamp.1 s.stamp.2 l)
          State.hrdAdvance e n (s1.onHrd e fun h => { h with sent := h.sent + 1, latest := l.1, node := l.2 })
        else s
      else if h.has (k - 1) then s.hrdComplete e a l
      else s

/-- R349: one local arrival at an entry; the LOCAL-th makes the device arrive. -/
def State.hrdArriveLocal (s : State) (e : Nat) : State :=
  let s := s.onHrd e fun h => { h with count := h.count + 1 }
  let h := s.hrd e
  let s := if h.count = (if e = 0xFFF then 1 else s.hrdLocal e) then s.onHrd e fun h => { h with arrive := some s.now } else s
  (State.hrdAdvance e 20 s).hrdRefresh

/-- R348: the device arrives at the PHASE entries of a phase that ends on it, and at FINISH when digest
comparison ends (phase 4). -/
def State.phaseEnd (s : State) (ph : Nat) : State :=
  s.forAll ((List.range s.hrdCount).filter fun e =>
    (s.hrdKind e == 1 && s.hrdPhase e == ph) || (s.hrdKind e == 2 && ph == 4)) fun e s => s.hrdArriveLocal e

/-- R350: a round message of the attempt in progress. -/
def State.hrdRound (s : State) (e : Nat) (r : HrdRound) : State :=
  let h := s.hrd e
  if (s.hrdCount ≤ e ∧ e ≠ 0xFFF) ∨ ¬ (r.epoch = h.epoch ∨ r.epoch = (h.epoch + 1) % 65536) then s.count (rlyAt 0 + 0x20) 1
  else
    let s := s.onHrd e fun h => { h with got := h.got ++ [r], lastRound := r.round }
    (State.hrdAdvance e 20 s).hrdRefresh

/-- R354: VOID messages of one origin for every round from `j` on. -/
def State.voidSend (s : State) (j origin heat attempt : Nat) : State :=
  let e := s.finishEntry
  let g := s.hrdGroup e
  let k := rounds (s.ranks g)
  s.forAll ((List.range k).filter (j ≤ ·)) fun m s =>
    s.sendHurdle g ((s.self g + 2 ^ m) % s.ranks g) (s.hrdData e m 1 (s.hrd e).epoch origin heat attempt (0, 0))

/-- R354: a received VOID: forwarded once per origin, and the attempt is voided with REMOTE_VOID unless the
commit tick has passed. -/
def State.voidRx (s : State) (j origin : Nat) : State :=
  let e := s.finishEntry
  if (s.hrd e).origins.contains origin then s
  else
    let s := (s.onHrd e fun h => { h with origins := h.origins ++ [origin] }).voidSend (j + 1) origin
      s.heat.num s.heat.attempt
    let past_ := s.heat.finish.any fun c => decide (c.toNat ≤ s.now.toNat)
    if s.heat.running && !past_ then
      s.ochre s.job.world 0x0219 2 (blkSource 0x10)
        (leBytes 2 origin ++ leBytes 2 (rNode (s.rankEntry (s.hrdGroup e) origin)) ++ leBytes 4 e)
    else s

/-- R138: the hurdle ID keeps to its table. -/
def hrdIdOk (v : Nat) : Bool :=
  bits v 31 16 == 0 && bits v 13 12 == 0 && decide (bits v 15 14 < 3)
    && (bits v 15 14 == 2 || bits v 11 4 == 0)

/-- R138: key of the slot of a die hurdle. -/
def dieSlot (c v : Nat) : Nat := c / 256 * 16 + v % 16

/-- R138: completions so far of the hurdle that an ID names for a core. -/
def State.hrdDone (s : State) (c v : Nat) : Nat :=
  match bits v 15 14 with
  | 0 => (Tab.get (s.pod (corePod c)).hurdles (v % 16) {}).done
  | 1 => (Tab.get s.dieHurdles (dieSlot c v) {}).done
  | _ => (s.hrd (v % 4096)).doneCount

/-- R138, R348, R349: the arrival itself: a core joins a slot or counts at a USER entry. -/
def State.hrdJoin (s : State) (c v : Nat) : State :=
  match bits v 15 14 with
  | 0 => s.onPod (corePod c) fun p =>
      let h := Tab.get p.hurdles (v % 16) {}
      { p with hurdles := Tab.set p.hurdles (v % 16) { h with arrived := h.arrived ++ [c] } }
  | 1 =>
    let h := Tab.get s.dieHurdles (dieSlot c v) {}
    { s with dieHurdles := Tab.set s.dieHurdles (dieSlot c v) { h with arrived := h.arrived ++ [c] } }
  | _ => s.hrdArriveLocal (v % 4096)

/-- R138, R348, R349: a scope-2 arrival is a fault: no such USER entry (log 27), or one beyond LOCAL. -/
def State.hrdBad (s : State) (v : Nat) : Bool :=
  bits v 15 14 == 2 && (decide (s.hrdCount ≤ v % 4096) || s.hrdKind (v % 4096) != 0
    || decide (s.hrdLocal (v % 4096) ≤ (s.hrd (v % 4096)).count))

/-- HRD_ARRIVE (R138, R349). -/
def execHrdArrive (c : Nat) (s : State) : Host.Outcome State Fault Refusal :=
  guarded (coreOk c) (kernelRow c (· == .hrdArrive) (fun w s =>
    let v := (s.x c (iRs1 w)).toNat
    let again := (Tab.get? (s.core c).arrived v).any fun n => n == s.hrdDone c v
    if !hrdIdOk v || again || s.hrdBad v then s.exception c 28 v
    else
      let n := s.hrdDone c v
      ((s.onCore c fun k => { k with arrived := Tab.set k.arrived v n }).hrdJoin c v).retire c 0 0) s)

/-- HRD_WAIT (R138). -/
def execHrdWait (c : Nat) (s : State) : Host.Outcome State Fault Refusal :=
  guarded (coreOk c) (kernelRow c (· == .hrdWait) (fun w s =>
    let v := (s.x c (iRs1 w)).toNat
    if !hrdIdOk v then s.exception c 28 v
    else match Tab.get? (s.core c).arrived v with
      | none => s.exception c 28 v
      | some n => if n = s.hrdDone c v then s.wait c else s.retire c 0 0) s)

/-- R138: the cores that a slot waits for. -/
def State.hrdNeed (s : State) (die : Nat) (pod : Option Nat) : List Nat :=
  let ofPod := fun p => if s.podDark p then [] else (List.range (s.enCount p)).map fun n => coreOf p n
  match pod with
  | some p => ofPod (12 * die + p)
  | none => (List.range 12).flatMap fun p => ofPod (12 * die + p)

/-- R138: a slot whose cores have all arrived completes and is free for its next use. -/
def HSlot.complete (h : HSlot) (need : List Nat) : HSlot :=
  if !need.isEmpty && need.all h.arrived.contains then { arrived := [], done := h.done + 1 } else h

/-- POD_HURDLE_COMPLETE (R138): a pod or die slot. -/
def execPodHurdleComplete (die : Nat) (pod : Option Nat) (slot : Nat) (s : State) :
    Host.Outcome State Fault Refusal :=
  guarded (decide (die < 32) && pod.all (· < 12) && decide (slot < 16)) (
    let need := s.hrdNeed die pod
    match pod with
    | some p => s.onPod (12 * die + p) fun q =>
        { q with hurdles := Tab.set q.hurdles slot ((Tab.get q.hurdles slot {}).complete need) }
    | none => { s with dieHurdles := Tab.set s.dieHurdles (die * 16 + slot)
                         ((Tab.get s.dieHurdles (die * 16 + slot) {}).complete need) })

/-- R138, R349: hurdles at an attempt's start: every EPOCH is 0, no arrival stands. -/
def State.hurdlesReset (s : State) : State :=
  ({ s with
    relay := { s.relay with hrds := s.relay.hrds.mapV fun h =>
      { h with epoch := 0, count := 0, arrive := none, sent := 0, got := [], origins := [] } }
    dieHurdles := s.dieHurdles.mapV fun h => { h with arrived := [] }
    pods := s.pods.mapV fun p => { p with hurdles := p.hurdles.mapV fun h => { h with arrived := [] } }
    cores := s.cores.mapV fun k => { k with arrived := [] } }).hrdRefresh

end Sys2Proof.Machine
end

