-- ==== Sys2Proof/Machine/Gates.lean ====
section
/-!
DEFINITION. Lap gates (R180 to R185, R211), the progress timer (R536), the reservoir pool (R225 to R230) and
the activation stash (R171 to R179).
-/
namespace Sys2Proof.Machine

/-- R407: LAPS of the job. -/
def State.laps (s : State) : Nat := s.jobF 4 4 % 2 ^ 13
/-- R33: the forward-first schedule. -/
def State.fwdFirst (s : State) : Bool := bit (s.jobF 4 4) 13
/-- R186: GATE_COUNT. -/
def State.gateCount (s : State) : Nat := bits (s.jobF 0x64 4) 24 16
/-- R211: EDG_GATE_COUNT shows the gate that EDG_GATE_SEL names; EDG_GATE_STATUS counts complete gates. -/
def State.gateRefresh (s : State) : State :=
  let done := ((List.range s.gateCount).filter fun g => (Tab.get s.gates.closed g []).length == s.laps).length
  (s.setRegN (gateAt + 8) (Tab.get s.gates.closed (s.regN (gateAt + 4)) []).length).putField
    (gateAt + 0xC) 24 16 (if s.job.loaded then done else 0)

/-- R182: every declared gate has closed every lap. -/
def State.gatesFull (s : State) : Bool :=
  (List.range s.gateCount).all fun g => (Tab.get s.gates.closed g []).length == s.laps

/-- R225, R226: the units that a job of world `w` can draw on. -/
def State.poolUnits (s : State) (w : World) : List Nat :=
  let l := s.regionList.filter fun r => bit r.2.2 2 && (bit r.2.2 1 == (w == .sable))
  if l.isEmpty then []
  else (List.range 32768).filter fun u =>
    (regionAt l (0x10000000000 + u * 0x10000)).isSome && !s.pool.near.contains u

/-- R407: FLOOR of a client. -/
def State.poolFloor (s : State) (c : Nat) : Nat := s.jobF (0x90 + 4 * c) 2
/-- R407: CEIL of a client. -/
def State.poolCeil (s : State) (c : Nat) : Nat := s.jobF (0x92 + 4 * c) 2

/-- R228: an entry's place in the eviction order. -/
def PoolEnt.before (a b : PoolEnt) : Bool :=
  let x := (a.age.getD 0).toNat
  let y := (b.age.getD 0).toNat
  decide (x < y) || (x == y && decide (a.id < b.id))

/-- An entry inserted in eviction order. -/
def insertEnt (e : PoolEnt) : List PoolEnt → List PoolEnt
  | [] => [e]
  | x :: t => if e.before x then e :: x :: t else x :: insertEnt e t

/-- The reservoir units under `n` bytes at an address. -/
def resUnits (a n : Nat) : List Nat :=
  if n = 0 ∨ a < 0x10000000000 then []
  else
    let u := (a - 0x10000000000) / 65536
    (List.range ((a - 0x10000000000 + n - 1) / 65536 + 1 - u)).filterMap fun i =>
      if u + i < 32768 then some (u + i) else none

/-- R162, R225: reservoir units of the spilled homes. -/
def State.homeUnits (s : State) : List Nat :=
  (List.range (s.jobF 0x24 4)).flatMap fun i => resUnits (s.word (s.jobA 0x28 + 16 * i + 8) 6) 4096
/-- R225: reservoir units of the cursor records. -/
def State.cursorUnits (s : State) : List Nat := resUnits (s.jobA 0x80) (16 * 65535)
/-- R187, R225: reservoir units of the reduced gradients. -/
def State.gsumUnits (s : State) : List Nat :=
  (List.range s.shardCount).flatMap fun i => resUnits (s.shG i) (4 * s.shCount i)

/-- R225, R227: the units that the loaded job names for SCRATCH. -/
def State.scratchNamed (s : State) : List Nat :=
  if s.job.loaded then
    (s.homeUnits ++ s.cursorUnits ++ s.gsumUnits).eraseDups.filter fun u => !s.pool.near.contains u
  else []
/-- R225: the units that SCRATCH holds. -/
def State.scratchHeld (s : State) : List Nat := s.pool.ents.flatMap fun e => if e.client == 3 then e.us else []

/-- R225, R229: the units that the pool may give to a client beside some entries: drawn from the regions of the job's
world, and, but for SCRATCH, none that the job names for SCRATCH (log 146). -/
def State.poolOpen (s : State) (c : Nat) (ents : List PoolEnt) : List Nat :=
  let busy := ents.flatMap (·.us)
  let named := if c = 3 then [] else s.scratchNamed
  (s.poolUnits s.job.world).filter fun u => !busy.contains u && !named.contains u

/-- R227: the units that count as a client's own against its floor (log 146). -/
def State.poolOwn (s : State) (c : Nat) : Nat :=
  if c = 3 then (s.scratchHeld ++ s.scratchNamed).eraseDups.length else s.poolUsed c

/-- R227: the trial of the loop: the entries that have to go, or refusal. `avail` is free − held so far. -/
def evictTrial (c n : Nat) (floor0 : Nat) : List PoolEnt → Int → Nat → Option (List Nat)
  | l, avail, used0 =>
    match l with
    | [] => if (n : Int) ≤ avail then some [] else none
    | e :: t =>
      if (n : Int) ≤ avail then some []
      else if c ≠ 0 ∧ (used0 : Int) - e.us.length < floor0 then none
      else (evictTrial c n floor0 t (avail + e.us.length) (used0 - e.us.length)).map (e.id :: ·)

/-- R227: the units that the floors of the other clients hold back from a client. -/
def State.poolHeld (s : State) (c : Nat) : Nat :=
  (((List.range 4).filter (· != c)).map fun d => s.poolFloor d - s.poolOwn d).sum

/-- R227, R228: the entries to evict for a request, or none when the pool refuses it. -/
def State.poolTrial (s : State) (c n : Nat) : Option (List Nat) :=
  if s.poolCeil c < s.poolUsed c + n then none
  else
    let cand := (s.pool.ents.filter fun e => e.client == 0 && !e.pinned && e.age.isSome).foldr insertEnt []
    evictTrial c n (s.poolFloor 0) cand (((s.poolOpen c s.pool.ents).length : Int) - s.poolHeld c) (s.poolUsed 0)

/-- The lowest run of `n` consecutive units of a list. -/
def unitRun (l : List Nat) (n : Nat) : Option (List Nat) :=
  (l.find? fun u => (List.range n).all fun i => l.contains (u + i)).map fun u => (List.range n).map (u + ·)

/-- R227, R342: the units of a grant: the lowest ones; a GATHER grant has one base, so its units are a run (log 146). -/
def placeUnits (c n : Nat) (l : List Nat) : Option (List Nat) :=
  if n = 0 then some []
  else if c = 2 then unitRun l n
  else if l.length < n then none
  else some (l.take n)

/-- The pool with some entries evicted and a new one made. -/
def State.poolPut (s : State) (ev : List Nat) (e : PoolEnt) : State :=
  let s := s.count (cliAt 0 + 0x10) ev.length
  ({ s with pool := { s.pool with
      ents := (s.pool.ents.filter fun (x : PoolEnt) => !ev.contains x.id) ++ [{ e with id := s.pool.nextId }]
      nextId := s.pool.nextId + 1 } }).poolRefresh.fillRefresh

/-- R230: a request of a client is refused and counted. -/
def State.poolRefuse (s : State) (c : Nat) : State := s.count (cliAt c + 0xC) 1

/-- R215, R227: a request of `n` units for client `c`; the new entry when it is granted. -/
def State.poolGrant (s : State) (c n flags : Nat) (age : Option DWord) (tag src len : Nat) : Option PoolEnt × State :=
  match s.poolTrial c n with
  | none => (none, s.poolRefuse c)
  | some ev =>
    match placeUnits c n (s.poolOpen c (s.pool.ents.filter fun e => !ev.contains e.id)) with
    | none => (none, s.poolRefuse c)
    | some us =>
      let e : PoolEnt := { id := s.pool.nextId, client := c, us := us, flags := flags, age := age, tag := tag, src := src
                           len := len }
      (some e, s.poolPut ev e)

/-- R215: the allocation flags of a grant in the reservoir: TIER_NEAR, and PIN, which it implies. -/
def nearFlags : Nat := 9

/-- R162, R225, R227: units that the scratch client does not hold yet are pinned for it (tag 0: until commit or
void; tag 1: until commit). -/
def State.scratchPin (s : State) (tag : Nat) (us : List Nat) : State :=
  let held := s.scratchHeld
  let us := us.eraseDups.filter fun u => !s.pool.near.contains u && !held.contains u
  if us.isEmpty then s
  else match s.poolTrial 3 us.length with
    | none => s.poolRefuse 3
    | some ev => s.poolPut ev { id := 0, client := 3, us := us, flags := nearFlags, age := some s.now, tag := tag }

/-- R227, R228: a request reaches the pool controller at this tick. -/
def State.poolAsk (s : State) (r : PoolReq) : State :=
  { s with pool := { s.pool with reqs := s.pool.reqs ++ [{ r with tick := s.now }] } }

/-- R228: the place of a client among the requests of one tick. -/
def clientRank (c : Nat) : Nat :=
  match c with
  | 1 => 0
  | 3 => 1
  | 2 => 2
  | _ => 3

/-- R228: one request is decided before another. -/
def PoolReq.before (a b : PoolReq) : Bool :=
  decide (a.tick.toNat < b.tick.toNat)
    || (a.tick == b.tick && (decide (clientRank a.client < clientRank b.client)
      || (a.client == b.client && decide (a.source < b.source))))

/-- R228: the request that is decided next. -/
def State.poolNext (s : State) : Option PoolReq :=
  s.pool.reqs.foldl (fun m r => match m with
    | none => some r
    | some x => if r.before x then some r else some x) none

/-- The first request equal to one leaves the list. -/
def State.poolTakeReq (s : State) (r : PoolReq) : State :=
  { s with pool := { s.pool with reqs := s.pool.reqs.erase r } }

/-- R228: what a release leaves of an entry that does not stay: its units are held until its fill ends. -/
def PoolEnt.released (e : PoolEnt) : Option PoolEnt :=
  if e.client == 0 && e.age.isNone then some { e with gone := true } else none

/-- R228: the entries that do not stay are released. -/
def State.poolDrop (s : State) (keep : PoolEnt → Bool) : State :=
  let l := s.pool.ents.filterMap fun e => if keep e then some e else e.released
  ({ s with pool := { s.pool with ents := l } }).poolRefresh

/-- R231: fields of prefetch entry `i`: the address of the entry. -/
def State.pfAddr (s : State) (i : Nat) : Nat := s.jobA 0xA0 + 32 * i
/-- R231: PF_COUNT. -/
def State.pfCount (s : State) : Nat := s.jobF 0xA8 2

/-- R342: gathers of a phase release their grants: those whose RELEASE lies below a mark, or all. -/
def State.gatherRelease (s : State) (phase : Nat) (mark : Option Nat) : State :=
  let due := s.relay.colls.filter fun c => c.2.ent.isSome && bits (s.collW c.1) 16 14 == phase + 1
    && mark.all fun m => decide (bits (s.word (s.collAddr c.1 + 0xC) 4) 23 12 < m)
  due.foldl (fun s c =>
    let s := s.poolDrop fun e => some e.id != c.2.ent
    { s with relay := { s.relay with colls := Tab.set s.relay.colls c.1 { c.2 with ent := none } } }) s

/-- R233, R342: the prefetch entries of a phase are released: those whose RELEASE lies below the mark, or all;
the phase's gathers with them. -/
def State.pfRelease (s : State) (phase : Nat) (mark : Option Nat) : State :=
  (s.poolDrop fun e => !(e.client == 0 &&
    bits (s.word (s.pfAddr e.tag) 4) 14 12 == phase &&
    (mark.all fun m => decide (s.word (s.pfAddr e.tag + 0x14) 2 % 4096 < m)))).gatherRelease phase mark

/-- R181, R182, R185: a lap close for a gate: a faulty close, a late lap, or both (DEDUCED, log 156). -/
def State.lapClose (s : State) (v : Word) : State :=
  let lap := bits v.toNat 11 0
  let g := bits v.toNat 23 16
  let src := blkSource 0x10
  let bad := decide (s.laps ≤ lap ∨ s.gateCount ≤ g)
  let late := bit (s.regN (gateAt + 0xC)) 1
  if !s.heat.running then s
  else if bad || late then
    let s := if bad then
        (s.raiseBits (gateAt + 0xC) 1).ochre s.job.world 0x0212 2 src (leBytes 4 (lap + g * 2 ^ 16)) else s
    if late then s.lateLap src (((List.range s.shardCount).find? fun i => s.shGate i == g).getD s.shardCount) lap else s
  else
    let old := Tab.get s.gates.closed g []
    if old.contains lap then s
    else
      let s := ({ s with gates := { s.gates with closed := Tab.set s.gates.closed g (old ++ [lap]) } }).gateRefresh
      if s.gatesFull then
        ((({ s with heat := { s.heat with bwdDone := true } }).progress).pfRelease 1 none).phaseEnd 1
      else s

/-- EDG_GATE_LAPCLOSE (R181, R182). -/
def execEdgGateLapclose (v : Word) (s : State) : Host.Outcome State Fault Refusal := .next (s.lapClose v)

/-- R183: a forward close. -/
def State.fwdClose (s : State) (v : Word) : State :=
  let lap := bits v.toNat 11 0
  if !s.heat.running then s
  else if s.laps ≤ lap then
    (s.raiseBits (gateAt + 0xC) 1).ochre s.job.world 0x0212 2 (blkSource 0x10) (leBytes 4 (lap + 2 ^ 24))
  else if s.gates.fwd.contains lap then s
  else
    let s := { s with gates := { s.gates with fwd := s.gates.fwd ++ [lap] } }
    let s := s.setRegN (gateAt + 0x14) s.gates.fwd.length
    if s.gates.fwd.length = s.laps then
      (((({ s with heat := { s.heat with fwdDone := true } }).raiseBits (gateAt + 0xC) 4).progress).pfRelease 0 none).phaseEnd 0
    else s

/-- EDG_GATE_FWDCLOSE (R183). -/
def execEdgGateFwdclose (v : Word) (s : State) : Host.Outcome State Fault Refusal := .next (s.fwdClose v)

/-- R181, R183: gates and forward closes cleared at an attempt's start. -/
def State.gatesReset (s : State) : State :=
  (((({ s with gates := {} }).setRegN (gateAt + 0x14) 0).dropBits (gateAt + 0xC) 6)).gateRefresh

/-- R172: STASH_BYTES of a layer. -/
def State.stashBytes (s : State) (l : Nat) : Nat := s.word (s.jobA 0x40 + 8 * l) 4
/-- R172: ANCHOR_BYTES of a layer. -/
def State.anchorBytes (s : State) (l : Nat) : Nat := s.word (s.jobA 0x40 + 8 * l + 4) 4
/-- R407: STASH_LAYERS. -/
def State.stashLayers (s : State) : Nat := s.jobF 0x3C 4 % 2 ^ 13

/-- R173: one layer of a walk. -/
def State.grantLayer (s : State) (lap : Nat) (r : Bool × Stash) (l : Nat) : Bool × Stash :=
  let st := r.2
  let c := ceilDiv (s.stashBytes l) 65536
  let key := lap * 4096 + l
  if r.1 && decide (st.held + c ≤ s.jobF 0x48 4) then
    (true, { st with slots := Tab.set st.slots key { full := true }, held := st.held + c
                     fullSlots := st.fullSlots + 1 })
  else
    let n := ceilDiv (s.anchorBytes l) 65536
    (false, { st with
      slots := Tab.set st.slots key { full := false
                                      units := (List.range n).map fun i => s.jobA 0x58 + (st.anchors + i) * 65536 }
      anchors := st.anchors + n, anchorSlots := st.anchorSlots + 1 })

/-- R173: grant_lap. -/
def State.grantLap (s : State) (st : Stash) (lap : Nat) : Stash :=
  let r := ((List.range s.stashLayers).foldl (s.grantLayer lap) (true, st)).2
  { r with walked := lap + 1 }

/-- R173: the laps that are walked now: all of them at once under the forward-first schedule; else the next
lap once every slot of the laps below it has been released. -/
def State.walkDue (s : State) : List Nat :=
  let st := s.stash
  if s.fwdFirst then (if st.walked = 0 then List.range s.laps else [])
  else if st.walked < s.laps ∧ st.slots.all (fun p => p.2.released) then [st.walked] else []

/-- R173, R174, R179: the walk, its STASH_FULL event, and STASH_EXHAUSTED when the anchors exceed the
reserve. -/
def State.stashWalk (s : State) : State :=
  let due := s.walkDue
  if due.isEmpty ∨ !s.heat.running then s
  else
    let st0 := if s.fwdFirst then s.stash else { s.stash with held := 0, anchors := 0 }
    let st := due.foldl s.grantLap st0
    let first := due.find? fun lap => (List.range s.stashLayers).any fun l =>
      (Tab.get? st.slots (lap * 4096 + l)).any fun x => !x.full
    let src := s.hubSource
    let s := { s with stash := { st with told := st.told || first.isSome } }
    let s := match first with
      | some lap => if st.told then s else s.raiseJob 0x0203 0 src (leBytes 4 lap)
      | none => s
    if s.jobF 0x60 4 < st.anchors then s.jobCrimson 0x0204 src (leBytes 4 st.anchors) else s

/-- STASH_WALK (R173, R174, R179). -/
def execStashWalk (s : State) : Host.Outcome State Fault Refusal := .next s.stashWalk

/-- R177: the 64 KiB units of STASH_HBM that no slot holds, lowest first. -/
def State.stashHbmFree (s : State) : List Nat :=
  let busy := s.stash.slots.flatMap fun p => if p.2.full && p.2.ent.isNone then p.2.units else []
  ((List.range (s.jobF 0x48 4)).map fun i => s.jobA 0x50 + i * 65536).filter fun a => !busy.contains a

/-- R179: the stash charge grows by a placed slot. -/
def State.slotPut (s : State) (key n : Nat) (sl : Slot) (res : Nat) : State :=
  let st := s.stash
  { s with stash := { st with
      slots := Tab.set st.slots key sl
      charge := st.charge + n, peak := max st.peak (st.charge + n)
      resCharge := st.resCharge + res * n, resSlots := st.resSlots + res } }

/-- R172: the charge of the slot with a key, in units. -/
def State.slotUnitsOf (s : State) (key : Nat) : Nat := ceilDiv (s.stashBytes (key % 4096)) 65536

/-- R177, R227: a FULL slot goes to STASH_HBM. -/
def State.stashHbm (s : State) (key : Nat) (sl : Slot) : State :=
  let n := s.slotUnitsOf key
  s.slotPut key n { sl with units := s.stashHbmFree.take n } 0

/-- R177, R227: the pool decides the request of a FULL slot: reservoir, or STASH_HBM. -/
def State.stashDecide (s : State) (key : Nat) : State :=
  match Tab.get? s.stash.slots key with
  | none => s
  | some sl =>
    if sl.released || !sl.full || !sl.units.isEmpty then s
    else match s.poolGrant 1 (s.slotUnitsOf key) nearFlags (some s.now) 0 0 0 with
      | (some e, t) =>
        t.slotPut key (s.slotUnitsOf key)
          { sl with units := e.us.map fun u => 0x10000000000 + u * 65536, ent := some e.id } 1
      | (none, t) => t.stashHbm key sl

/-- R177: a FULL slot is placed at its first write: the pool is asked while the watermark allows it, else it goes to
STASH_HBM. -/
def State.stashPlace (s : State) (key src : Nat) (sl : Slot) : State :=
  let n := s.slotUnitsOf key
  if s.stash.resCharge + n ≤ s.jobF 0x4C 4 then
    if s.pool.reqs.any fun r => r.client == 1 && r.key == key then s
    else s.poolAsk { client := 1, source := src, n := n, key := key, tick := 0 }
  else s.stashHbm key sl

/-- R176: a slot or anchor is released. -/
def State.stashRelease (s : State) (key : Nat) (sl : Slot) : State :=
  let n := sl.units.length
  let st := s.stash
  let s := { s with stash := { st with
      slots := Tab.set st.slots key { sl with released := true, units := [], ent := none }
      charge := if sl.full then st.charge - n else st.charge
      resCharge := if sl.ent.isSome then st.resCharge - n else st.resCharge } }
  match sl.ent with
  | some id => s.poolDrop fun e => e.id != id
  | none => s

/-- R179: every slot and anchor of the attempt is released; its counts stay for the heat's record. -/
def State.stashClear (s : State) : State :=
  ({ s with stash := { s.stash with
      slots := s.stash.slots.map fun (p : Nat × Slot) => (p.1, { p.2 with released := true, units := [], ent := none })
      charge := 0, resCharge := 0 } }).poolDrop fun e => e.client != 1

end Sys2Proof.Machine
end

