-- ==== Sys2Proof/Machine/Shuttle.lean ====
section
/-!
DEFINITION. Shuttle engines (R242 to R276) without the moves themselves: descriptor checks, acceptance,
completion queues and records, list ports, bulk register sets, layer marks, SHQ and SHWAIT.
-/
namespace Sys2Proof
open Machine

/-- The key of a source in `State.shu`. -/
def ShuSrc.key : ShuSrc → Nat
  | .pod p s => 18 * p + s
  | .bulk e ch => 10000 + 8 * e + ch

/-- The key of a completion queue in `State.cqs`. -/
def CqId.key : CqId → Nat
  | .pod p q => 16 * p + q
  | .edge e q => 10000 + 8 * e + q

/-- R409: the SOURCE of events of a shuttle source; a list port has its pod's core 0 (log 22). -/
def ShuSrc.evSource : ShuSrc → Nat
  | .pod p n => coreOf p (if n < 16 then n else 0)
  | .bulk e _ => blkSource (edgeBlk e)

/-- R262: SOURCE of a record. -/
def ShuSrc.num : ShuSrc → Nat
  | .pod _ n => n
  | .bulk _ ch => ch

/-- R262: the core that issued through SHQ. -/
def ShuSrc.core? : ShuSrc → Option Nat
  | .pod p n => if n < 16 then some (coreOf p n) else none
  | .bulk _ _ => none

/-- The queue that a descriptor names. -/
def ShuSrc.queue (x : ShuSrc) (d : List Byte) : CqId :=
  match x with
  | .pod p _ => .pod p (bits (fld d 0 4) 11 8)
  | .bulk e _ => .edge e (bits (fld d 0 4) 11 8 % 8)

/-- R275: the bits of CQ_CTRL that a queue has. -/
def CqId.ctrlMask : CqId → Word
  | .pod _ _ => 1
  | .edge _ _ => 0x3F03

/-- R373: a write to CQ_CTRL that sets IRQ with a vector below 16. -/
def CqId.badVector (q : CqId) (v : Nat) : Bool :=
  match q with
  | .pod _ _ => false
  | .edge _ _ => bit v 1 && decide (bits v 13 8 < 16)

end Sys2Proof

namespace Sys2Proof.Machine

/-- A source's state. -/
def State.src (s : State) (x : ShuSrc) : ShSrc := Tab.get s.shu x.key {}
/-- A source's state changed. -/
def State.onSrc (s : State) (x : ShuSrc) (f : ShSrc → ShSrc) : State :=
  { s with shu := Tab.set s.shu x.key (f (s.src x)) }
/-- The records of a queue that are not written yet. -/
def State.recs (s : State) (q : CqId) : List RecSlot := Tab.get s.cqs q.key []
/-- Those records replaced. -/
def State.setRecs (s : State) (q : CqId) (l : List RecSlot) : State :=
  { s with cqs := Tab.set s.cqs q.key l }

/-- R243, R445: the world of a source. -/
def State.srcWorld (s : State) : ShuSrc → World
  | .pod p _ => s.podWorld p
  | .bulk e ch => s.chanWorld e ch

/-- R244: the fields of a descriptor. -/
def dCtrl (d : List Byte) : Nat := fld d 0 4
/-- R244: OP. -/
def dOp (d : List Byte) : Nat := bits (dCtrl d) 3 0
/-- R244: BARRIER. -/
def dBarrier (d : List Byte) : Bool := bit (dCtrl d) 4
/-- R244: CONV. -/
def dConv (d : List Byte) : Bool := bit (dCtrl d) 5
/-- R244: CQ. -/
def dCq (d : List Byte) : Nat := bits (dCtrl d) 11 8
/-- R244: TAG. -/
def dTag (d : List Byte) : Nat := fld d 8 4
/-- R244: XCOUNT. -/
def dX (d : List Byte) : Nat := fld d 0xC 4
/-- R244: YCOUNT. -/
def dY (d : List Byte) : Nat := fld d 0x20 4
/-- R244: SRC_PITCH. -/
def dSp (d : List Byte) : Nat := fld d 0x24 4
/-- R244: DST_PITCH. -/
def dDp (d : List Byte) : Nat := fld d 0x28 4
/-- R244: SRC_TENSOR. -/
def dSt (d : List Byte) : Nat := fld d 0x2C 3
/-- R244: DST_TENSOR. -/
def dDt (d : List Byte) : Nat := fld d 4 3
/-- R244: SRC_FMT. -/
def dSf (d : List Byte) : Nat := bits (dCtrl d) 23 20
/-- R244: DST_FMT. -/
def dDf (d : List Byte) : Nat := bits (dCtrl d) 27 24
/-- R244: the bits of a raw width code. -/
def rawWidth (c : Nat) : Nat :=
  match c with
  | 0 => 4
  | 1 => 6
  | 2 => 8
  | 3 => 16
  | 4 => 32
  | _ => 64
/-- R244: raw source width in bits. -/
def dSw (d : List Byte) : Nat := rawWidth (bits (dCtrl d) 14 12)
/-- R244: raw destination width in bits. -/
def dDw (d : List Byte) : Nat := rawWidth (bits (dCtrl d) 18 16)
/-- R244: NEXT. -/
def dNext (d : List Byte) : Nat := fld d 0x38 6

/-- R244, R245: CLASS of a side's stash reference, none where the side is none. -/
def dClass (d : List Byte) (dst : Bool) : Option Nat :=
  if bit (dCtrl d) (if dst then 31 else 30) then some (bits (fld d (if dst then 0x18 else 0x10) 8) 25 24)
  else none

/-- R251: bytes of one row of `n` elements on a side. -/
def rowBytes (conv : Bool) (f w n : Nat) : Nat :=
  if conv then
    (if narrow f then ceilDiv n 32 * blockBytes f else ceilDiv (n * fmtWidth f) 8)
  else ceilDiv (n * w) 8

/-- R252: elements of one destination row. -/
def dstCols (d : List Byte) : Nat := if dOp d = 3 then dY d else dX d
/-- R252: destination rows. -/
def dstRows (d : List Byte) : Nat := if dOp d = 3 then dX d else dY d

/-- R247: a reserved field is nonzero. -/
def dReserved (d : List Byte) : Bool :=
  let c := dCtrl d
  let op := dOp d
  let aux := fld d 0x30 8
  bit c 15 || bit c 19 || fld d 7 1 != 0 || fld d 0x2F 1 != 0 || fld d 0x3E 2 != 0
    || (!bit c 30 && fld d 0x16 2 != 0) || (!bit c 31 && fld d 0x1E 2 != 0)
    || (bit c 30 && bits (fld d 0x10 8) 31 26 != 0) || (bit c 31 && bits (fld d 0x18 8) 31 26 != 0)
    || ((op == 1 || op == 2) && fld d 0x36 2 != 0)
    || (op != 1 && op != 2 && op != 4 && !dConv d && aux != 0)

/-- R245: a release names no other address and no counts. -/
def dRelease (d : List Byte) : Bool :=
  (dClass d false == some 2 && (fld d 0x18 8 != 0 || dX d != 0 || dY d != 0))
    || (dClass d true == some 2 && (fld d 0x10 8 != 0 || dX d != 0 || dY d != 0))

/-- R247: the descriptor is bad, by its fields alone. `bulk`: from a bulk channel; `list`: from a list. -/
def dBad (d : List Byte) (bulk list : Bool) : Bool :=
  let c := dCtrl d
  let op := dOp d
  let sl := bit c 28
  let dl := bit c 29
  let ss := bit c 30
  let ds := bit c 31
  let gs := op == 1 || op == 2
  dReserved d || decide (4 < op)
    || (dNext d != 0 && (!list || dNext d % 64 != 0))
    || (dConv d && (bits c 14 12 != 0 || bits c 18 16 != 0)) || (!dConv d && bits c 27 20 != 0)
    || (dConv d && (gs || op == 4))
    || decide (5 < bits c 14 12) || decide (5 < bits c 18 16)
    || (op == 3 && !dConv d && (bits c 14 12 != bits c 18 16 || decide (bits c 14 12 < 2)))
    || ((bulk || list) && (sl || dl || bit c 7)) || (sl && ss) || (dl && ds)
    || ((ss || ds) && (gs || op == 4))
    || (op == 4 && (!(dX d == 1 || dX d == 2 || dX d == 4 || dX d == 8) || fld d 0x18 8 % dX d != 0
        || fld d 0x10 8 != 0 || dY d != 1 || dSp d != 0 || dDp d != 0))
    || (op != 4 && decide (1 < dY d)
        && decide (dDp d < rowBytes (dConv d) (dDf d) (dDw d) (dstCols d)))
    || (gs && fld d 0x30 6 % 4 != 0)
    || (bulk && bit c 11) || dRelease d

/-- R247, R251, R63: formats and tensor IDs of a CONV descriptor. -/
def State.dFmtBad (s : State) (d : List Byte) : Bool :=
  dConv d &&
    (!fmtOk (dSf d) || !fmtOk (dDf d)
      || (if narrow (dSf d) then !s.sbOk (dSt d) else dSt d != 0)
      || (if narrow (dDf d) then !s.sbOk (dDt d) else dDt d != 0))

/-- R275: EN of a queue. -/
def State.cqOn (s : State) (q : CqId) : Bool := bit (s.regN (cqAt q + 0x14)) 0
/-- R261: records that the ring holds. -/
def State.cqSize (s : State) (q : CqId) : Nat := 2 ^ (s.regN (cqAt q + 8) % 32)
/-- R261: the queue is full. -/
def State.cqFull (s : State) (q : CqId) : Bool :=
  decide (s.cqSize q ≤ (s.reg (cqAt q + 0xC) - s.reg (cqAt q + 0x10)).toNat)

/-- The source with a key. -/
def srcOfKey (k : Nat) : ShuSrc :=
  if k < 10000 then .pod (k / 18) (k % 18) else .bulk ((k - 10000) / 8) ((k - 10000) % 8)

/-- R275: the queue's world and event SOURCE. -/
def State.cqWorld (s : State) : CqId → World
  | .pod p _ => s.podWorld p
  | .edge e q => s.chanWorld e q

/-- R265: CORE_SHU_DONE counts the records written, in SHQ issue order; `n` bounds the moves. -/
def State.shuDone (c : Nat) (x : ShuSrc) : Nat → State → State
  | 0, s => s
  | n + 1, s =>
    match (s.src x).issued with
    | (_, true) :: t => State.shuDone c x n ((s.onSrc x fun r => { r with issued := t }).count (ctlAt c + 0x2C) 1)
    | _ => s

/-- R265: a descriptor of a core has its record, or will never have one; a core that stops may have waited for it
(R154). -/
def State.finish (s : State) (x : ShuSrc) (ticket : Nat) : State :=
  match x.core? with
  | none => s
  | some c =>
    let s := s.onSrc x fun r => { r with
      issued := r.issued.map fun p => if p.1 = ticket then (p.1, true) else p }
    (State.shuDone c x (s.src x).issued.length s).stopIfDone c

/-- R266: complete records behind a full queue are held, and each counts once; FULL follows. -/
def State.cqRefresh (s : State) (q : CqId) : State :=
  let full := s.cqFull q && s.cqOn q
  let s := s.putField (cqAt q + 0x18) 0 0 (b2n full)
  if full then
    let l := s.recs q
    let n := (l.filter fun r => r.done.isSome && !r.held).length
    let s := if n = 0 then s else s.setRecs q (l.map fun r => if r.done.isSome then { r with held := true } else r)
    s.count (cqAt q + 0x1C) n
  else s

/-- R266: the source produced a record that a full queue holds. -/
def State.stalled (s : State) (x : ShuSrc) : Bool :=
  match x with
  | .pod p _ => (List.range 16).any fun q =>
      s.cqFull (.pod p q) && (s.recs (.pod p q)).any fun r => r.src == x.key && r.done.isSome
  | .bulk e _ => (List.range 8).any fun q =>
      s.cqFull (.edge e q) && (s.recs (.edge e q)).any fun r => r.src == x.key && r.done.isSome

/-- R265, R267: a queue fails under a descriptor: EN clears, CQ_FAULT, the event with the TAG, the waiting records
are lost; cores do not wait for those whose writes have arrived (a descriptor still active counts at its end);
a running heat is voided. -/
def State.cqFault (s : State) (q : CqId) (x : ShuSrc) (tag : Nat) : State :=
  let lost := s.recs q
  let s := (s.dropBits (cqAt q + 0x14) 1).setRecs q []
  let s := lost.foldl (fun s r => if r.done.isSome then s.finish (srcOfKey r.src) r.ticket else s) s
  let s := match q with
    | .pod p _ => s.raiseBits (shuAt p + 0x1C) 1
    | .edge _ _ => s
  let n := match q with
    | .pod _ n => n
    | .edge _ n => n + 16
  s.ochre (s.srcWorld x) 0x0218 1 x.evSource (leBytes 4 n ++ leBytes 4 tag)

/-- R274, R276: the status bits that say which sources have an active descriptor. -/
def State.srcRefresh (s : State) (x : ShuSrc) : State :=
  let a := b2n (s.src x).active.isSome
  match x with
  | .pod p n =>
    let s := s.putField (shuAt p) n n a
    if n < 16 then s
    else s.putField (shuAt p + 0x18) (3 * (n - 16) + 2) (3 * (n - 16)) (s.src x).heads.length
  | .bulk e ch =>
    let s := s.putField (bshAt e ch + 0x44) 1 0 (a + 2 * b2n (s.src x).armed.isSome)
    if a = 0 then s.dropBits (bshAt e ch + 0x48) 1 else s

/-- R261: the address of the record at position `p` of a queue. -/
def State.recAddr (s : State) (q : CqId) (p : Nat) : Nat := s.reg64 (cqAt q) % 2 ^ 48 + 32 * (p % s.cqSize q)

/-- R221, R243, R267: the next record that a source would add to a queue could not be written: the queue is off, or
the check of its address fails for the source's world. -/
def State.recRefused (s : State) (x : ShuSrc) (q : CqId) : Bool :=
  !s.cqOn q || s.check (s.srcWorld x) (s.recAddr q (s.regN (cqAt q + 0xC) + (s.recs q).length)) 32 != .ok

/-- R262, R263, R267: the shuttle accepts a descriptor of a source: it becomes active and takes its place in
its queue, or it is never executed when the queue is off or its record could not be written. -/
def State.acceptDesc (s : State) (x : ShuSrc) (ticket : Nat) (d : List Byte) : State :=
  let q := x.queue d
  if s.recRefused x q then (s.cqFault q x (dTag d)).finish x ticket
  else
    let noheat := match x with
      | .pod _ _ => !s.heat.running
      | .bulk _ _ => true
    let h := if noheat then 0 else s.heat.num
    let a := if noheat then 0 else s.heat.attempt
    let s := s.setRecs q (s.recs q ++ [{ src := x.key, source := x.num, ticket := ticket, tag := dTag d
                                         barrier := dBarrier d, noheat := noheat, heat := h, attempt := a }])
    let verdict := match x with
      | .pod _ _ => none
      | .bulk _ _ => some (s.src x).verdict
    (s.onSrc x fun r => { r with active := some { bytes := d, core := x.core?, verdict := verdict, ticket := ticket
                                                  noheat := noheat, heat := h, attempt := a } }).srcRefresh x

/-- R242, R268: a core source without an active descriptor accepts what waits; `n` bounds the descriptors that
a queue fault discards. -/
def State.acceptNext (x : ShuSrc) : Nat → State → State
  | 0, s => s
  | n + 1, s =>
    if (s.src x).active.isSome || s.stalled x then s
    else match (s.src x).waiting with
      | [] => s
      | (t, d) :: rest =>
        State.acceptNext x n ((s.onSrc x fun r => { r with waiting := rest }).acceptDesc x t d)

/-- Every source of a pod accepts what it can. -/
def State.acceptPod (s : State) (p : Nat) : State :=
  s.forAll (List.range 16) fun n s =>
    State.acceptNext (.pod p n) (s.src (.pod p n)).waiting.length s

/-- R246, R113: the device address of a core-local address; each one that a shuttle cannot reach has an unmapped
address of its own, above every device address. -/
def localAddr (c a : Nat) : Nat :=
  if a < 0xF0000 then coreBase c + a
  else if 0x1000000 ≤ a ∧ a < 0x1500000 then podBase (corePod c) + (a - 0x1000000)
  else 2 ^ 48 + a

/-- R113, R246: the device ranges behind `n` bytes at a core-local address: the parts below, between and above the two
windows that the map has. -/
def localPieces (c a n : Nat) : List (Nat × Nat) :=
  ([(0, 0xF0000), (0xF0000, 0x1000000), (0x1000000, 0x1500000), (0x1500000, 2 ^ 64)].map fun w =>
    let lo := max a w.1
    (localAddr c lo, min (a + n) w.2 - lo)).filter fun p => decide (0 < p.2)

/-- R251: the scale array of a side: SOFF bytes behind its address, or the first 64-byte boundary behind its
rows. -/
def scaleAt (base soff rows pitch : Nat) : Nat := if soff ≠ 0 then base + soff else align64 (base + rows * pitch)

/-- R251, R255: the bytes of a side from its first to the end of its last row, scale array included. -/
def sideRange (base pitch rows rb : Nat) (scale : Option (Nat × Nat)) : Nat × Nat :=
  let hi := base + (rows - 1) * pitch + rb
  match scale with
  | none => (base, hi)
  | some (a, n) => (min base a, max hi (a + n))

/-- R255: the range of a descriptor's source at an address. -/
def dSrcRange (d : List Byte) (base : Nat) : Nat × Nat :=
  sideRange base (dSp d) (dY d) (rowBytes (dConv d) (dSf d) (dSw d) (dX d))
    (if dConv d && narrow (dSf d) then
      some (scaleAt base (fld d 0x30 4) (dY d) (dSp d), dY d * ceilDiv (dX d) 32) else none)

/-- R255, R256: the range of a descriptor's destination at an address. -/
def dDstRange (d : List Byte) (base : Nat) : Nat × Nat :=
  if dOp d = 4 then (base, base + dX d)
  else sideRange base (dDp d) (dstRows d) (rowBytes (dConv d) (dDf d) (dDw d) (dstCols d))
    (if dConv d && narrow (dDf d) then
      some (scaleAt base (fld d 0x34 4) (dstRows d) (dDp d), dstRows d * ceilDiv (dstCols d) 32) else none)

/-- R248: nothing moves. -/
def dEmpty (d : List Byte) : Bool := dX d == 0 || dY d == 0

/-- R268: the tile buffers that a descriptor reads (`dst` false) or writes through core-local addresses; rows that an
index table picks (R253) may reach every tile buffer from their side's address on. -/
def dTiles (d : List Byte) (dst : Bool) : List Nat :=
  let side := fun (b : Bool) =>
    let base := fld d (if b then 0x18 else 0x10) 6
    let r := if b then dDstRange d base else dSrcRange d base
    let picked := (dOp d == 1 && !b) || (dOp d == 2 && b)
    if !bit (dCtrl d) (if b then 29 else 28) || dEmpty d then []
    else if picked then (if 0xA8000 ≤ base then localRes base (0xAC000 - base) else [])
    else localRes r.1 (r.2 - r.1)
  let table := if !dst && (dOp d == 1 || dOp d == 2) && bit (dCtrl d) 7 then localRes (fld d 0x30 6) (4 * dY d) else []
  (side dst ++ table).filter (· < 4)

/-- SHQ (R116, R136, R268): reads the descriptor, passes it to the core's port queue of four; it waits for
earlier-issued accesses to a tile buffer that the descriptor names (R117). -/
def State.shqExec (s : State) (c w : Nat) : State :=
  let a := (s.x c (iRs1 w)).toNat
  let x : ShuSrc := .pod (corePod c) (c % 16)
  if a % 64 ≠ 0 ∨ ¬ (a + 64 ≤ 0x60000 ∨ (0x1000000 ≤ a ∧ a + 64 ≤ 0x1400000)) then s.exception c 29 a
  else if 4 ≤ (s.src x).waiting.length then s.wait c
  else
    let d := s.bytes (localAddr c a) 64
    let src := coreOf (corePod c) (c % 16)
    if s.eccBad (localAddr c a) 64 then (s.eccVoid (s.podWorld (corePod c)) src (localAddr c a)).exception c 29 a
    else if !(s.core c).clear (s.core c).seq (dTiles d false) (dTiles d true) then s.wait c else
    let s := s.readSeen (localAddr c a) 64
    let t := s.ticket
    let s := ({ s with ticket := t + 1 }).onSrc x fun r => { r with
      waiting := r.waiting ++ [(t, d)], issued := r.issued ++ [(t, false)] }
    let s := s.count (ctlAt c + 0x28) 1
    let s := State.acceptNext x (s.src x).waiting.length s
    s.retire c (iRd w) (s.reg (ctlAt c + 0x28))

/-- SHQ (R136, R268). -/
def execShq (c : Nat) (s : State) : Host.Outcome State Fault Refusal :=
  guarded (coreOk c) (kernelRow c (· == .shq) (fun w s => s.shqExec c w) s)

/-- SHWAIT (R135). -/
def execShwait (c : Nat) (s : State) : Host.Outcome State Fault Refusal :=
  guarded (coreOk c) (kernelRow c (· == .shwait) (fun w s =>
    if (s.reg (ctlAt c + 0x2C) - s.x c (iRs1 w)).toNat < 2 ^ 31 then s.retire c 0 0 else s.wait c) s)

/-- R262: the bytes of a record at position `p`. -/
def RecSlot.bytes (r : RecSlot) (status retries n p : Nat) (time : DWord) : List Byte :=
  leBytes 4 r.tag ++ leBytes 4 (status + min retries 255 * 2 ^ 8 + r.source * 2 ^ 16 + b2n r.barrier * 2 ^ 24
      + b2n r.noheat * 2 ^ 25)
    ++ leBytes 4 r.heat ++ leBytes 4 (r.attempt % 256) ++ leBytes 8 time.toNat
    ++ leBytes 6 n ++ leBytes 2 p

/-- R274, R276: the counters of the engine that wrote a record. -/
def State.recCounts (s : State) (x : ShuSrc) (st n retries : Nat) : State :=
  match x with
  | .pod p _ => ((s.count (shuAt p + 0x20) 1).count64 (shuAt p + 0x28) n).count (shuAt p + 0x30) retries
  | .bulk e ch =>
    let b := bshAt e ch
    (((s.count (b + 0x58) 1).count64 (b + 0x60) n).count (b + 0x68) retries).putField (b + 0x44) 15 8 st

/-- R243, R261 to R263, R266, R267: the first record of a queue is written once it is complete and the queue has
room; an edge queue with IRQ signals its vector. -/
def State.recWrite (s : State) (q : CqId) : State :=
  match s.recs q with
  | [] => s
  | r :: rest =>
    match r.done with
    | none => s
    | some (st, retries, n) =>
      let x := srcOfKey r.src
      let b := cqAt q
      let p := s.regN (b + 0xC)
      let a := s.recAddr q p
      if !s.cqOn q || s.check (s.srcWorld x) a 32 != .ok then s.cqFault q x r.tag
      else if s.cqFull q then s.cqRefresh q
      else
        let s := (s.setRecs q rest).arrive a (r.bytes st retries n p s.now)
        let s := (s.count (b + 0xC) 1).recCounts x st n retries
        let s := (s.finish x r.ticket).cqRefresh q
        match q with
        | .pod p _ => s.acceptPod p
        | .edge _ _ =>
          let ctl := s.regN (b + 0x14)
          if bit ctl 1 then s.signal (bits ctl 13 8) else s

/-- COMPLETION_RECORD_WRITE (R263). -/
def execCompletionRecordWrite (q : CqId) (s : State) : Host.Outcome State Fault Refusal :=
  guarded q.wf (s.recWrite q)

/-- R275: a write to CQ_HEAD. -/
def State.cqHead (s : State) (q : CqId) (v : Word) : State :=
  let b := cqAt q
  if (s.reg (b + 0xC) - s.reg (b + 0x10)).toNat < (v - s.reg (b + 0x10)).toNat then s.raiseBits (b + 0x18) 2
  else
    let s := (s.setReg (b + 0x10) v).cqRefresh q
    match q with
    | .pod p _ => s.acceptPod p
    | .edge _ _ => s

/-- CQ_HEAD (R275). -/
def execCqHead (q : CqId) (v : Word) (s : State) : Host.Outcome State Fault Refusal :=
  guarded q.wf (s.cqHead q v)

/-- R275, R373: a write to CQ_CTRL; setting EN sets TAIL and HEAD to 0. -/
def State.cqCtrl (s : State) (ag : World) (q : CqId) (v : Word) : State :=
  let b := cqAt q
  let sz := s.regN (b + 8) % 32
  if (bit v.toNat 0 && !decide (4 ≤ sz ∧ sz ≤ 16)) || q.badVector v.toNat then s.regIgnored ag (b + 0x14) v
  else
    let on := s.cqOn q
    let s := s.setReg (b + 0x14) (v &&& q.ctrlMask)
    let s := if bit v.toNat 0 && !on then (s.setReg (b + 0xC) 0).setReg (b + 0x10) 0 else s
    s.cqRefresh q

/-- CQ_ENABLE (R275): a write to CQ_CTRL. -/
def execCqEnable (q : CqId) (v : Word) (s : State) : Host.Outcome State Fault Refusal :=
  guarded q.wf (s.cqCtrl (s.cqWorld q) q v)

/-- R275: a write to BASE or SIZE is ignored while EN is 1. -/
def State.cqSetup (s : State) (ag : World) (q : CqId) (off : Nat) (v : Word) : State :=
  if s.cqOn q then s.regIgnored ag (cqAt q + off) v else s.plainWrite (cqAt q + off) v

/-- R269: a job with a prefetch table runs. -/
def State.pfJob (s : State) : Bool := s.heat.active && s.pfCount != 0

/-- R269: a head pushed into a list port. -/
def State.lpHead (s : State) (p lp head : Nat) : State :=
  let x : ShuSrc := .pod p (16 + lp)
  if 4 ≤ (s.src x).heads.length then
    (s.raiseBits (shuAt p + 0x1C) 2).regIgnored (s.podWorld p) (shuAt p + 0xC + 8 * lp)
      (BitVec.ofNat 32 (head >>> 32 + 2 ^ 31))
  else (s.onSrc x fun r => { r with heads := r.heads ++ [head] }).srcRefresh x

/-- R269, R274: a write to POD_SHU_LPn_HI; PUSH pushes the head. -/
def State.lpPush (s : State) (ag : World) (p lp : Nat) (v : Word) : State :=
  let b := shuAt p + 8 + 8 * lp
  if bit v.toNat 31 && lp == 0 && s.pfJob then s.regIgnored ag (b + 4) v
  else
    let s := s.setReg (b + 4) (v &&& 0xFFFF)
    if bit v.toNat 31 then s.lpHead p lp (s.reg64 b % 2 ^ 48) else s

/-- POD_SHU_LP_PUSH (R269). -/
def execPodShuLpPush (p lp : Nat) (v : Word) (s : State) : Host.Outcome State Fault Refusal :=
  guarded (decide (p < 384) && decide (lp < 2)) (s.lpPush (s.podWorld p) p lp v)

/-- R269: the list port fetches and accepts the next descriptor of its list. -/
def State.lpFetch (s : State) (p lp : Nat) : State :=
  let x : ShuSrc := .pod p (16 + lp)
  let r := s.src x
  if r.active.isSome || s.stalled x || s.podDark p then s
  else
    let next : Option (Nat × List Nat) := match r.cur, r.heads with
      | some a, hs => some (a, hs)
      | none, a :: hs => some (a, hs)
      | none, [] => none
    match next with
    | none => s
    | some (a, hs) =>
      let s := s.onSrc x fun r => { r with cur := none, heads := hs }
      let st := s.checkRead (s.podWorld p) a 64
      if st ≠ .ok then
        ((s.raiseBits (shuAt p + 0x1C) 4).logFail (s.podWorld p) x.evSource a st).srcRefresh x
      else
        let d := s.bytes a 64
        let nx := dNext d
        let s := s.readSeen a 64
        let t := s.ticket
        let s := ({ s with ticket := t + 1 }).onSrc x fun r => { r with
          cur := if nx = 0 ∨ nx % 64 ≠ 0 then none else some nx }
        (s.acceptDesc x t d).srcRefresh x

/-- LIST_PORT_FETCH (R269; in RUN only, R503). -/
def execListPortFetch (p lp : Nat) (s : State) : Host.Outcome State Fault Refusal :=
  guarded (decide (p < 384) && decide (lp < 2)) (if s.regN pwrAt % 8 = 0 then s.lpFetch p lp else s)

/-- R273: channel 7 is reserved for prefetch. -/
def State.rsvPf (s : State) (e ch : Nat) : Bool := bit (s.regN (bshAt e ch + 0x44)) 2

/-- R272, R273: a write to a shadow word. -/
def State.bshShadow (s : State) (ag : World) (e ch off : Nat) (v : Word) : State :=
  if (s.src (.bulk e ch)).armed.isSome || s.rsvPf e ch then s.regIgnored ag (bshAt e ch + off) v
  else s.setReg (bshAt e ch + off) v

/-- R247, R258, R272: what GO's check of a shadow finds: DESC_FAULT, FMT_FAULT or nothing. -/
def State.goCheck (s : State) (d : List Byte) : Nat :=
  if dBad d true false then 7 else if s.dFmtBad d then 5 else 0

/-- R272, R273: a write to EDG_BSH_GO. -/
def State.bshGo (s : State) (ag : World) (e ch : Nat) (v : Word) : State :=
  let x : ShuSrc := .bulk e ch
  if !bit v.toNat 0 then s
  else if (s.src x).armed.isSome || s.rsvPf e ch then s.regIgnored ag (bshAt e ch + 0x40) v
  else
    let d := (List.range 16).flatMap fun i => leBytes 4 (s.regN (bshAt e ch + 4 * i))
    (s.onSrc x fun r => { r with armed := some d, verdict := s.goCheck d }).srcRefresh x

/-- EDG_BSH_GO (R272). -/
def execEdgBshGo (e ch : Nat) (v : Word) (s : State) : Host.Outcome State Fault Refusal :=
  guarded (decide (e < 4) && decide (ch < 8)) (s.bshGo (s.chanWorld e ch) e ch v)

/-- R272: the armed shadow becomes active once the channel has no active descriptor. -/
def State.bshActivate (s : State) (e ch : Nat) : State :=
  let x : ShuSrc := .bulk e ch
  match (s.src x).armed with
  | none => s
  | some d =>
    if (s.src x).active.isSome || s.stalled x then s
    else
      let t := s.ticket
      let s := ({ s with ticket := t + 1 }).onSrc x fun r => { r with armed := none }
      let s := (s.setRegN (bshAt e ch + 0x4C) (dTag d)).setReg64 (bshAt e ch + 0x50) 0
      (s.acceptDesc x t d).srcRefresh x

/-- SHADOW_ACTIVATE (R272; in RUN only, R503). -/
def execShadowActivate (e ch : Nat) (s : State) : Host.Outcome State Fault Refusal :=
  guarded (decide (e < 4) && decide (ch < 8)) (if s.regN pwrAt % 8 = 0 then s.bshActivate e ch else s)

/-- R262, R265, R266: the outcome of a record becomes known; where its queue has failed, the record is lost and its
core counts the descriptor now (R267). -/
def State.recDone (s : State) (q : CqId) (x : ShuSrc) (ticket : Nat) (o : Nat × Nat × Nat) : State :=
  if !(s.recs q).any fun r => r.ticket == ticket then s.finish x ticket
  else (s.setRecs q ((s.recs q).map fun r => if r.ticket = ticket then { r with done := some o } else r)).cqRefresh q

/-- R273: STOP discards the armed shadow, which completes ABORTED; STOP clears when the channel is idle. -/
def State.bshStop (s : State) (e ch : Nat) : State :=
  let x : ShuSrc := .bulk e ch
  let s := s.raiseBits (bshAt e ch + 0x48) 1
  match (s.src x).armed with
  | none => s.srcRefresh x
  | some d =>
    let act := (s.src x).active
    let t := s.ticket
    let s := ({ s with ticket := t + 1 }).onSrc x fun r => { r with armed := none }
    let s := s.acceptDesc x t d
    let s := (s.onSrc x fun r => { r with active := act }).srcRefresh x
    s.recDone (x.queue d) x t (8, 0, 0)

/-- EDG_BSH_STOP (R273). -/
def execEdgBshStop (e ch : Nat) (s : State) : Host.Outcome State Fault Refusal :=
  guarded (decide (e < 4) && decide (ch < 8)) (s.bshStop e ch)

/-- R271: what a void does to a pod shuttle: the list ports stop and clear, SHQ descriptors not accepted are
discarded; accepted descriptors run to their end. -/
def State.shuVoid (s : State) : State :=
  s.shu.foldl (fun s p =>
    if p.1 < 10000 then
      let x := srcOfKey p.1
      let w := (s.src x).waiting
      let s := (s.onSrc x fun r => { r with waiting := [], heads := [], cur := none }).srcRefresh x
      w.foldl (fun s t => s.finish x t.1) s
    else s) s

/-- R271: a pod shuttle holds an accepted descriptor. -/
def State.shuBusy (s : State) : Bool := s.shu.any fun p => decide (p.1 < 10000) && p.2.active.isSome

/-- R270: the shuttle of a pod that goes dark stops: its accepted descriptors write no further records. -/
def State.shuDark (s : State) (p : Nat) : State :=
  let s := { s with
    shu := s.shu.filter fun x => !decide (18 * p ≤ x.1 ∧ x.1 < 18 * p + 18)
    cqs := s.cqs.filter fun x => !decide (16 * p ≤ x.1 ∧ x.1 < 16 * p + 16 ∧ x.1 < 10000) }
  (s.setRegN (shuAt p) 0).setRegN (shuAt p + 0x18) 0

/-- R215, R233: the allocation flags of a prefetch entry: those of the TIER_BULK object that it copies, PIN among them
(log 148). -/
def State.pfFlags (s : State) (a : Nat) : Nat :=
  match s.hub.objs.find? fun o => decide (o.2.addr ≤ a ∧ a < o.2.addr + o.2.size) with
  | some o => o.2.flags
  | none => 2

/-- R232, R233: entry `i` of the prefetch table is issued. -/
def State.pfIssue (s : State) (i : Nat) : State :=
  let a := s.pfAddr i
  let s := { s with pool := { s.pool with issued := s.pool.issued ++ [i] } }
  let src := s.word (a + 8) 6
  if bits (s.word a 4) 17 16 = 0 then
    s.poolAsk { client := 0, source := i, n := s.word (a + 4) 4 / 65536, key := i, tick := 0 }
  else
    let pw := s.word (a + 0x10) 4
    s.lpHead (bits pw 12 8 * 12 + bits pw 7 4) 0 src

/-- R227, R233: the pool decides the request of entry `i` of the prefetch table. -/
def State.pfDecide (s : State) (i : Nat) : State :=
  let src := s.word (s.pfAddr i + 8) 6
  let len := s.word (s.pfAddr i + 4) 4
  (s.poolGrant 0 (len / 65536) (s.pfFlags src) none i src len).2

/-- R233, R258: how the fill of an entry ends on its channel: the reads are checked for the channel's world. -/
def State.fillSt (s : State) (x : PoolEnt) : AccSt :=
  if x.len = 0 then .ok else s.checkRead (s.chanWorld (x.tag % 4) 7) x.src x.len

/-- R217, R233: the copy of an entry's range arrives in its units. -/
def State.fillCopy (s : State) (x : PoolEnt) : State :=
  s.forAll (List.range x.us.length) fun j s =>
    s.arrive (0x10000000000 + x.us.getD j 0 * 65536) (s.bytes (x.src + 65536 * j) 65536)

/-- R233, R276: the channel's registers after a fill. -/
def State.fillCounts (s : State) (e n st : Nat) : State :=
  let b := bshAt e 7
  (((s.setReg64 (b + 0x50) n).count (b + 0x58) 1).count64 (b + 0x60) n).putField (b + 0x44) 15 8 st

/-- R228, R233, R258, R259, R262: the fill of an entry ends: its copy and its age; a fill whose read fails carries the
attempt, so it voids it, and makes no entry. A fill has no completion record (log 73). -/
def State.fillEnd (s : State) (x : PoolEnt) : State :=
  let e := x.tag % 4
  let src := blkSource (edgeBlk e)
  let st := s.fillSt x
  let w := s.chanWorld e 7
  let s := match st with
    | .ok => (s.readSeen x.src x.len).fillCopy x
    | _ => s.logFail w src x.src st
  let s := if st ≠ .ok ∧ !x.gone then
      s.ochre w 0x0211 2 src (leBytes 4 (0x1FFF + 7 * 2 ^ 16) ++ leBytes 4 0 ++ leBytes 4 st.code)
    else s
  let done := fun (y : PoolEnt) =>
    if y.id ≠ x.id then some y
    else if st ≠ .ok || x.gone then none
    else some { y with age := some s.now }
  let l := s.pool.ents.filterMap done
  ((({ s with pool := { s.pool with ents := l } }).poolRefresh).fillCounts e (if st = AccSt.ok then x.len else 0) st.code).fillRefresh

/-- R233: the entry that channel 7 of an edge die fills now: the oldest whose fill has not ended. -/
def State.filling (s : State) (e : Nat) : Option PoolEnt :=
  s.pool.ents.find? fun x => x.client == 0 && x.age.isNone && x.tag % 4 == e

/-- PREFETCH_FILL_DONE (R228, R233): the fill of prefetch entry `i`, which its channel runs now, ends at this tick. -/
def execPrefetchFillDone (i : Nat) (s : State) : Host.Outcome State Fault Refusal :=
  .next (match s.filling (i % 4) with
    | some x => if x.tag = i then s.fillEnd x else s
    | none => s)

/-- R232: a layer mark. -/
def State.pfMark (s : State) (v : Word) : State :=
  let layer := bits v.toNat 11 0
  let phase := bits v.toNat 14 12
  let top := if phase = 0 then s.pool.mark0 else s.pool.mark1
  if !s.heat.running || decide (1 < phase) then s
  else if top.any fun t => decide (layer < t) then s.count (pfAt + 4) 1
  else
    let s := { s with pool := if phase = 0 then { s.pool with mark0 := some layer, lastMark := 0 }
                              else { s.pool with mark1 := some layer, lastMark := 1 } }
    let s := s.pfRelease phase (some layer)
    let due := (List.range s.pfCount).filter fun i =>
      let w := s.word (s.pfAddr i) 4
      decide (bits w 14 12 = phase ∧ bits w 11 0 ≤ layer) && !s.pool.issued.contains i
    (s.forAll due fun i s => s.pfIssue i).pfRelease phase (some layer)

/-- EDG_PF_MARK (R232). -/
def execEdgPfMark (v : Word) (s : State) : Host.Outcome State Fault Refusal := .next (s.pfMark v)

/-- R234: the prefetch client's counts for a read of HBM: a hit when one completed entry covers the range, a
miss when an entry of the table covers it and none serves it (log 23). -/
def State.pfCounts (s : State) (a n : Nat) : State :=
  if n = 0 ∨ ¬ a + n ≤ 0xA000000000 then s
  else if s.pool.ents.any fun e => e.client == 0 && e.age.isSome && decide (e.src ≤ a ∧ a + n ≤ e.src + e.len) then
    s.count (cliAt 0 + 0x14) 1
  else if s.pfJob && (List.range s.pfCount).any fun i =>
      bits (s.word (s.pfAddr i) 4) 17 16 == 0 &&
        decide (s.word (s.pfAddr i + 8) 6 ≤ a ∧ a + n ≤ s.word (s.pfAddr i + 8) 6 + s.word (s.pfAddr i + 4) 4) then
    s.count (cliAt 0 + 0x18) 1
  else s

end Sys2Proof.Machine
end

