-- ==== Sys2Proof/Machine/VecFun.lean ====
section
/-!
DEFINITION. The four functions VEXP, VLOG, VRSQRT and VRCP (R131), with their tables written out from
the expressions that the rule gives.
-/
namespace Sys2Proof.Machine

/-- R131: 64 / ln 2. -/
def cK1 : Word := 0x42B8AA3B

/-- R131: ln 2 / 64 cut to 16 significant bits. -/
def cLH : Word := 0x3C317200

/-- R131: ln 2 / 64 − LH. -/
def cLL : Word := 0x32BFBE8E

/-- R131: 1/6. -/
def cC3 : Word := 0x3E2AAAAB

/-- R131: 1/3. -/
def cD3 : Word := 0x3EAAAAAB

/-- R131: ln 2 cut to 16 significant bits. -/
def cN2H : Word := 0x3F317200

/-- R131: ln 2 − N2H. -/
def cN2L : Word := 0x35BFBE8E

/-- R131: 2^(j/64), entries 0 to 31. -/
def tabT20 : List Word :=
  [0x3F800000, 0x3F8164D2, 0x3F82CD87, 0x3F843A29, 0x3F85AAC3, 0x3F871F62, 0x3F88980F, 0x3F8A14D5,
   0x3F8B95C2, 0x3F8D1ADF, 0x3F8EA43A, 0x3F9031DC, 0x3F91C3D3, 0x3F935A2B, 0x3F94F4F0, 0x3F96942D,
   0x3F9837F0, 0x3F99E046, 0x3F9B8D3A, 0x3F9D3EDA, 0x3F9EF532, 0x3FA0B051, 0x3FA27043, 0x3FA43516,
   0x3FA5FED7, 0x3FA7CD94, 0x3FA9A15B, 0x3FAB7A3A, 0x3FAD583F, 0x3FAF3B79, 0x3FB123F6, 0x3FB311C4]

/-- R131: 2^(j/64), entries 32 to 63. -/
def tabT21 : List Word :=
  [0x3FB504F3, 0x3FB6FD92, 0x3FB8FBAF, 0x3FBAFF5B, 0x3FBD08A4, 0x3FBF179A, 0x3FC12C4D, 0x3FC346CD,
   0x3FC5672A, 0x3FC78D75, 0x3FC9B9BE, 0x3FCBEC15, 0x3FCE248C, 0x3FD06334, 0x3FD2A81E, 0x3FD4F35B,
   0x3FD744FD, 0x3FD99D16, 0x3FDBFBB8, 0x3FDE60F5, 0x3FE0CCDF, 0x3FE33F89, 0x3FE5B907, 0x3FE8396A,
   0x3FEAC0C7, 0x3FED4F30, 0x3FEFE4BA, 0x3FF28177, 0x3FF5257D, 0x3FF7D0DF, 0x3FFA83B3, 0x3FFD3E0C]

/-- R131: 2^(j/64). -/
def tabT2 : List Word := tabT20 ++ tabT21

/-- R131: 1 / (1 + k/128), entries 0 to 31. -/
def tabG0 : List Word :=
  [0x3F800000, 0x3F7E03F8, 0x3F7C0FC1, 0x3F7A232D, 0x3F783E10, 0x3F76603E, 0x3F74898D, 0x3F72B9D6,
   0x3F70F0F1, 0x3F6F2EB7, 0x3F6D7304, 0x3F6BBDB3, 0x3F6A0EA1, 0x3F6865AC, 0x3F66C2B4, 0x3F652598,
   0x3F638E39, 0x3F61FC78, 0x3F607038, 0x3F5EE95C, 0x3F5D67C9, 0x3F5BEB62, 0x3F5A740E, 0x3F5901B2,
   0x3F579436, 0x3F562B81, 0x3F54C77B, 0x3F53680D, 0x3F520D21, 0x3F50B6A0, 0x3F4F6475, 0x3F4E168A]

/-- R131: 1 / (1 + k/128), entries 32 to 63. -/
def tabG1 : List Word :=
  [0x3F4CCCCD, 0x3F4B8728, 0x3F4A4588, 0x3F4907DA, 0x3F47CE0C, 0x3F46980C, 0x3F4565C8, 0x3F443730,
   0x3F430C31, 0x3F41E4BC, 0x3F40C0C1, 0x3F3FA030, 0x3F3E82FA, 0x3F3D6910, 0x3F3C5264, 0x3F3B3EE7,
   0x3F3A2E8C, 0x3F392144, 0x3F381703, 0x3F370FBB, 0x3F360B61, 0x3F3509E7, 0x3F340B41, 0x3F330F63,
   0x3F321643, 0x3F311FD4, 0x3F302C0B, 0x3F2F3ADE, 0x3F2E4C41, 0x3F2D602B, 0x3F2C7692, 0x3F2B8F6A]

/-- R131: 1 / (1 + k/128), entries 64 to 95. -/
def tabG2 : List Word :=
  [0x3F2AAAAB, 0x3F29C84A, 0x3F28E83F, 0x3F280A81, 0x3F272F05, 0x3F2655C4, 0x3F257EB5, 0x3F24A9CF,
   0x3F23D70A, 0x3F23065E, 0x3F2237C3, 0x3F216B31, 0x3F20A0A1, 0x3F1FD80A, 0x3F1F1166, 0x3F1E4CAD,
   0x3F1D89D9, 0x3F1CC8E1, 0x3F1C09C1, 0x3F1B4C70, 0x3F1A90E8, 0x3F19D723, 0x3F191F1A, 0x3F1868C8,
   0x3F17B426, 0x3F17012E, 0x3F164FDA, 0x3F15A025, 0x3F14F209, 0x3F144581, 0x3F139A86, 0x3F12F114]

/-- R131: 1 / (1 + k/128), entries 96 to 127. -/
def tabG3 : List Word :=
  [0x3F124925, 0x3F11A2B4, 0x3F10FDBC, 0x3F105A38, 0x3F0FB824, 0x3F0F177A, 0x3F0E7835, 0x3F0DDA52,
   0x3F0D3DCB, 0x3F0CA29C, 0x3F0C08C1, 0x3F0B7034, 0x3F0AD8F3, 0x3F0A42F8, 0x3F09AE41, 0x3F091AC7,
   0x3F088889, 0x3F07F781, 0x3F0767AB, 0x3F06D905, 0x3F064B8A, 0x3F05BF37, 0x3F053408, 0x3F04A9FA,
   0x3F042108, 0x3F039930, 0x3F03126F, 0x3F028CC0, 0x3F020821, 0x3F01848E, 0x3F010204, 0x3F008081]

/-- R131: 1 / (1 + k/128). -/
def tabG : List Word := tabG0 ++ tabG1 ++ tabG2 ++ tabG3

/-- R131: ln(1 + k/128), entries 0 to 31. -/
def tabH0 : List Word :=
  [0x00000000, 0x3BFF0153, 0x3C7E0546, 0x3CBDC8D8, 0x3CFC14D8, 0x3D1CF43E, 0x3D3BA2C8, 0x3D5A16EC,
   0x3D785186, 0x3D8B29B7, 0x3D9A0EBD, 0x3DA8D83A, 0x3DB78694, 0x3DC61A2F, 0x3DD4936A, 0x3DE2F2A4,
   0x3DF1383B, 0x3DFF648A, 0x3E06BBF4, 0x3E0DB957, 0x3E14AA98, 0x3E1B8FE1, 0x3E22695B, 0x3E29372F,
   0x3E2FF984, 0x3E36B07F, 0x3E3D5C48, 0x3E43FD03, 0x3E4A92D5, 0x3E511DE1, 0x3E579E4A, 0x3E5E1434]

/-- R131: ln(1 + k/128), entries 32 to 63. -/
def tabH1 : List Word :=
  [0x3E647FBE, 0x3E6AE10B, 0x3E71383B, 0x3E77856E, 0x3E7DC8C3, 0x3E82012D, 0x3E851927, 0x3E882C60,
   0x3E8B3AE5, 0x3E8E44C6, 0x3E914A10, 0x3E944AD1, 0x3E974716, 0x3E9A3EED, 0x3E9D3263, 0x3EA02184,
   0x3EA30C5E, 0x3EA5F2FD, 0x3EA8D56C, 0x3EABB3B9, 0x3EAE8DEE, 0x3EB16418, 0x3EB43641, 0x3EB70475,
   0x3EB9CEC0, 0x3EBC952B, 0x3EBF57C2, 0x3EC2168F, 0x3EC4D19C, 0x3EC788F4, 0x3ECA3CA1, 0x3ECCECAC]

/-- R131: ln(1 + k/128), entries 64 to 95. -/
def tabH2 : List Word :=
  [0x3ECF991F, 0x3ED24205, 0x3ED4E765, 0x3ED7894A, 0x3EDA27BC, 0x3EDCC2C5, 0x3EDF5A6D, 0x3EE1EEBD,
   0x3EE47FBE, 0x3EE70D78, 0x3EE997F4, 0x3EEC1F39, 0x3EEEA350, 0x3EF12441, 0x3EF3A213, 0x3EF61CCF,
   0x3EF8947B, 0x3EFB0920, 0x3EFD7AC4, 0x3EFFE970, 0x3F012A95, 0x3F025EFD, 0x3F0391F3, 0x3F04C37A,
   0x3F05F397, 0x3F07224C, 0x3F084F9D, 0x3F097B8D, 0x3F0AA61F, 0x3F0BCF56, 0x3F0CF736, 0x3F0E1DC1]

/-- R131: ln(1 + k/128), entries 96 to 127. -/
def tabH3 : List Word :=
  [0x3F0F42FB, 0x3F1066E7, 0x3F118987, 0x3F12AADE, 0x3F13CAF1, 0x3F14E9C0, 0x3F16074F, 0x3F1723A2,
   0x3F183EBA, 0x3F19589A, 0x3F1A7145, 0x3F1B88BE, 0x3F1C9F07, 0x3F1DB422, 0x3F1EC813, 0x3F1FDADC,
   0x3F20EC7F, 0x3F21FCFF, 0x3F230C5E, 0x3F241A9F, 0x3F2527C3, 0x3F2633CD, 0x3F273EC1, 0x3F28489E,
   0x3F295169, 0x3F2A5923, 0x3F2B5FCF, 0x3F2C656E, 0x3F2D6A02, 0x3F2E6D8F, 0x3F2F7015, 0x3F307198]

/-- R131: ln(1 + k/128). -/
def tabH : List Word := tabH0 ++ tabH1 ++ tabH2 ++ tabH3

/-- R131: 1 / sqrt of the midpoint of interval k of [1, 4), entries 0 to 31. -/
def tabRT0 : List Word :=
  [0x3F7F40D7, 0x3F7DC77C, 0x3F7C5497, 0x3F7AE7FB, 0x3F798179, 0x3F7820E7, 0x3F76C61B, 0x3F7570EE,
   0x3F742139, 0x3F72D6D7, 0x3F7191A3, 0x3F70517D, 0x3F6F1643, 0x3F6DDFD5, 0x3F6CAE14, 0x3F6B80E2,
   0x3F6A5822, 0x3F6933BA, 0x3F68138D, 0x3F66F782, 0x3F65DF81, 0x3F64CB70, 0x3F63BB39, 0x3F62AEC5,
   0x3F61A5FD, 0x3F60A0CC, 0x3F5F9F1F, 0x3F5EA0E0, 0x3F5DA5FD, 0x3F5CAE63, 0x3F5BB9FF, 0x3F5AC8C1]

/-- R131: 1 / sqrt of the midpoint of interval k of [1, 4), entries 32 to 63. -/
def tabRT1 : List Word :=
  [0x3F59DA96, 0x3F58EF6E, 0x3F58073A, 0x3F5721E9, 0x3F563F6C, 0x3F555FB5, 0x3F5482B5, 0x3F53A85E,
   0x3F52D0A3, 0x3F51FB76, 0x3F5128CB, 0x3F505894, 0x3F4F8AC7, 0x3F4EBF58, 0x3F4DF639, 0x3F4D2F62,
   0x3F4C6AC6, 0x3F4BA85A, 0x3F4AE816, 0x3F4A29EE, 0x3F496DD9, 0x3F48B3CD, 0x3F47FBC1, 0x3F4745AB,
   0x3F469184, 0x3F45DF41, 0x3F452EDB, 0x3F44804A, 0x3F43D385, 0x3F432885, 0x3F427F42, 0x3F41D7B4]

/-- R131: 1 / sqrt of the midpoint of interval k of [1, 4), entries 64 to 95. -/
def tabRT2 : List Word :=
  [0x3F4131D5, 0x3F408D9C, 0x3F3FEB03, 0x3F3F4A04, 0x3F3EAA97, 0x3F3E0CB6, 0x3F3D705B, 0x3F3CD57F,
   0x3F3C3C1D, 0x3F3BA42E, 0x3F3B0DAD, 0x3F3A7893, 0x3F39E4DC, 0x3F395282, 0x3F38C17F, 0x3F3831CF,
   0x3F37A36C, 0x3F371651, 0x3F368A79, 0x3F35FFE0, 0x3F357681, 0x3F34EE57, 0x3F34675E, 0x3F33E191,
   0x3F335CEC, 0x3F32D96B, 0x3F325709, 0x3F31D5C3, 0x3F315594, 0x3F30D67A, 0x3F30586E, 0x3F2FDB6F]

/-- R131: 1 / sqrt of the midpoint of interval k of [1, 4), entries 96 to 127. -/
def tabRT3 : List Word :=
  [0x3F2F5F79, 0x3F2EE487, 0x3F2E6A96, 0x3F2DF1A3, 0x3F2D79AA, 0x3F2D02A8, 0x3F2C8C99, 0x3F2C177B,
   0x3F2BA34B, 0x3F2B3004, 0x3F2ABDA4, 0x3F2A4C29, 0x3F29DB8E, 0x3F296BD2, 0x3F28FCF1, 0x3F288EE9,
   0x3F2821B7, 0x3F27B557, 0x3F2749C9, 0x3F26DF08, 0x3F267512, 0x3F260BE6, 0x3F25A37F, 0x3F253BDD,
   0x3F24D4FC, 0x3F246EDB, 0x3F240976, 0x3F23A4CC, 0x3F2340DB, 0x3F22DDA0, 0x3F227B19, 0x3F221944]

/-- R131: 1 / sqrt of the midpoint of interval k of [1, 4), entries 128 to 159. -/
def tabRT4 : List Word :=
  [0x3F21B81E, 0x3F2157A7, 0x3F20F7DB, 0x3F2098BA, 0x3F203A40, 0x3F1FDC6C, 0x3F1F7F3C, 0x3F1F22AF,
   0x3F1EC6C1, 0x3F1E6B73, 0x3F1E10C1, 0x3F1DB6AA, 0x3F1D5D2D, 0x3F1D0447, 0x3F1CABF8, 0x3F1C543C,
   0x3F1BFD14, 0x3F1BA67C, 0x3F1B5074, 0x3F1AFAFB, 0x3F1AA60D, 0x3F1A51AB, 0x3F19FDD2, 0x3F19AA82,
   0x3F1957B8, 0x3F190573, 0x3F18B3B2, 0x3F186274, 0x3F1811B7, 0x3F17C179, 0x3F1771BA, 0x3F172278]

/-- R131: 1 / sqrt of the midpoint of interval k of [1, 4), entries 160 to 191. -/
def tabRT5 : List Word :=
  [0x3F16D3B3, 0x3F168568, 0x3F163796, 0x3F15EA3C, 0x3F159D5A, 0x3F1550ED, 0x3F1504F5, 0x3F14B971,
   0x3F146E5F, 0x3F1423BE, 0x3F13D98D, 0x3F138FCB, 0x3F134677, 0x3F12FD90, 0x3F12B515, 0x3F126D05,
   0x3F12255E, 0x3F11DE21, 0x3F11974B, 0x3F1150DC, 0x3F110AD3, 0x3F10C52E, 0x3F107FEE, 0x3F103B10,
   0x3F0FF695, 0x3F0FB27B, 0x3F0F6EC1, 0x3F0F2B66, 0x3F0EE86B, 0x3F0EA5CC, 0x3F0E638B, 0x3F0E21A5]

/-- R131: 1 / sqrt of the midpoint of interval k of [1, 4), entries 192 to 223. -/
def tabRT6 : List Word :=
  [0x3F0DE01B, 0x3F0D9EEB, 0x3F0D5E15, 0x3F0D1D97, 0x3F0CDD72, 0x3F0C9DA3, 0x3F0C5E2B, 0x3F0C1F08,
   0x3F0BE03B, 0x3F0BA1C1, 0x3F0B639B, 0x3F0B25C8, 0x3F0AE847, 0x3F0AAB17, 0x3F0A6E37, 0x3F0A31A7,
   0x3F09F567, 0x3F09B975, 0x3F097DD1, 0x3F09427A, 0x3F090770, 0x3F08CCB2, 0x3F08923F, 0x3F085817,
   0x3F081E39, 0x3F07E4A4, 0x3F07AB58, 0x3F077254, 0x3F073998, 0x3F070123, 0x3F06C8F4, 0x3F06910C]

/-- R131: 1 / sqrt of the midpoint of interval k of [1, 4), entries 224 to 255. -/
def tabRT7 : List Word :=
  [0x3F065969, 0x3F06220A, 0x3F05EAF0, 0x3F05B419, 0x3F057D86, 0x3F054735, 0x3F051126, 0x3F04DB59,
   0x3F04A5CD, 0x3F047082, 0x3F043B76, 0x3F0406AA, 0x3F03D21D, 0x3F039DCF, 0x3F0369BF, 0x3F0335EC,
   0x3F030256, 0x3F02CEFD, 0x3F029BE1, 0x3F026900, 0x3F02365A, 0x3F0203EF, 0x3F01D1BF, 0x3F019FC8,
   0x3F016E0B, 0x3F013C87, 0x3F010B3C, 0x3F00DA29, 0x3F00A94E, 0x3F0078AA, 0x3F00483D, 0x3F001807]

/-- R131: 1 / sqrt of the midpoint of interval k of [1, 4). -/
def tabRT : List Word := tabRT0 ++ tabRT1 ++ tabRT2 ++ tabRT3 ++ tabRT4 ++ tabRT5 ++ tabRT6 ++ tabRT7

/-- R131: 1 / (1 + (k + 0.5)/256), entries 0 to 31. -/
def tabQT0 : List Word :=
  [0x3F7F8040, 0x3F7E823D, 0x3F7D8631, 0x3F7C8C16, 0x3F7B93E6, 0x3F7A9D9D, 0x3F79A934, 0x3F78B6A6,
   0x3F77C5EE, 0x3F76D705, 0x3F75E9E8, 0x3F74FE91, 0x3F7414FA, 0x3F732D1F, 0x3F7246FB, 0x3F716289,
   0x3F707FC4, 0x3F6F9EA8, 0x3F6EBF2F, 0x3F6DE156, 0x3F6D0518, 0x3F6C2A70, 0x3F6B515A, 0x3F6A79D1,
   0x3F69A3D2, 0x3F68CF59, 0x3F67FC60, 0x3F672AE4, 0x3F665AE2, 0x3F658C54, 0x3F64BF38, 0x3F63F389]

/-- R131: 1 / (1 + (k + 0.5)/256), entries 32 to 63. -/
def tabQT1 : List Word :=
  [0x3F632943, 0x3F626063, 0x3F6198E5, 0x3F60D2C6, 0x3F600E01, 0x3F5F4A93, 0x3F5E887A, 0x3F5DC7B0,
   0x3F5D0834, 0x3F5C4A01, 0x3F5B8D14, 0x3F5AD16A, 0x3F5A1700, 0x3F595DD3, 0x3F58A5DF, 0x3F57EF21,
   0x3F573997, 0x3F56853D, 0x3F55D210, 0x3F55200D, 0x3F546F32, 0x3F53BF7C, 0x3F5310E7, 0x3F526371,
   0x3F51B717, 0x3F510BD7, 0x3F5061AE, 0x3F4FB899, 0x3F4F1095, 0x3F4E69A0, 0x3F4DC3B8, 0x3F4D1ED9]

/-- R131: 1 / (1 + (k + 0.5)/256), entries 64 to 95. -/
def tabQT2 : List Word :=
  [0x3F4C7B02, 0x3F4BD830, 0x3F4B3660, 0x3F4A9590, 0x3F49F5BF, 0x3F4956E8, 0x3F48B90B, 0x3F481C24,
   0x3F478032, 0x3F46E532, 0x3F464B22, 0x3F45B201, 0x3F4519CB, 0x3F44827F, 0x3F43EC1A, 0x3F43569B,
   0x3F42C1FF, 0x3F422E45, 0x3F419B6A, 0x3F41096D, 0x3F40784B, 0x3F3FE803, 0x3F3F5892, 0x3F3EC9F8,
   0x3F3E3C31, 0x3F3DAF3C, 0x3F3D2318, 0x3F3C97C2, 0x3F3C0D39, 0x3F3B837B, 0x3F3AFA86, 0x3F3A7258]

/-- R131: 1 / (1 + (k + 0.5)/256), entries 96 to 127. -/
def tabQT3 : List Word :=
  [0x3F39EAF0, 0x3F39644D, 0x3F38DE6C, 0x3F38594B, 0x3F37D4EA, 0x3F375147, 0x3F36CE5F, 0x3F364C32,
   0x3F35CABE, 0x3F354A01, 0x3F34C9FA, 0x3F344AA7, 0x3F33CC07, 0x3F334E19, 0x3F32D0DA, 0x3F32544A,
   0x3F31D867, 0x3F315D2F, 0x3F30E2A2, 0x3F3068BE, 0x3F2FEF82, 0x3F2F76EB, 0x3F2EFEFA, 0x3F2E87AB,
   0x3F2E1100, 0x3F2D9AF5, 0x3F2D258A, 0x3F2CB0BD, 0x3F2C3C8D, 0x3F2BC8FA, 0x3F2B5601, 0x3F2AE3A1]

/-- R131: 1 / (1 + (k + 0.5)/256), entries 128 to 159. -/
def tabQT4 : List Word :=
  [0x3F2A71DA, 0x3F2A00AA, 0x3F299010, 0x3F29200B, 0x3F28B099, 0x3F2841BA, 0x3F27D36C, 0x3F2765AE,
   0x3F26F880, 0x3F268BDF, 0x3F261FCC, 0x3F25B445, 0x3F254948, 0x3F24DED5, 0x3F2474EB, 0x3F240B89,
   0x3F23A2AD, 0x3F233A57, 0x3F22D286, 0x3F226B39, 0x3F22046E, 0x3F219E25, 0x3F21385D, 0x3F20D315,
   0x3F206E4C, 0x3F200A01, 0x3F1FA633, 0x3F1F42E1, 0x3F1EE00A, 0x3F1E7DAE, 0x3F1E1BCB, 0x3F1DBA61]

/-- R131: 1 / (1 + (k + 0.5)/256), entries 160 to 191. -/
def tabQT5 : List Word :=
  [0x3F1D596E, 0x3F1CF8F3, 0x3F1C98ED, 0x3F1C395D, 0x3F1BDA41, 0x3F1B7B99, 0x3F1B1D63, 0x3F1ABF9F,
   0x3F1A624D, 0x3F1A056A, 0x3F19A8F7, 0x3F194CF3, 0x3F18F15D, 0x3F189634, 0x3F183B77, 0x3F17E126,
   0x3F178740, 0x3F172DC4, 0x3F16D4B2, 0x3F167C08, 0x3F1623C7, 0x3F15CBEC, 0x3F157478, 0x3F151D6A,
   0x3F14C6C2, 0x3F14707D, 0x3F141A9D, 0x3F13C51F, 0x3F137005, 0x3F131B4C, 0x3F12C6F4, 0x3F1272FC]

/-- R131: 1 / (1 + (k + 0.5)/256), entries 192 to 223. -/
def tabQT6 : List Word :=
  [0x3F121F65, 0x3F11CC2C, 0x3F117953, 0x3F1126D7, 0x3F10D4B8, 0x3F1082F7, 0x3F103191, 0x3F0FE087,
   0x3F0F8FD8, 0x3F0F3F83, 0x3F0EEF87, 0x3F0E9FE5, 0x3F0E509C, 0x3F0E01AA, 0x3F0DB310, 0x3F0D64CC,
   0x3F0D16DF, 0x3F0CC948, 0x3F0C7C05, 0x3F0C2F18, 0x3F0BE27E, 0x3F0B9638, 0x3F0B4A45, 0x3F0AFEA5,
   0x3F0AB356, 0x3F0A6859, 0x3F0A1DAC, 0x3F09D350, 0x3F098944, 0x3F093F88, 0x3F08F61A, 0x3F08ACFB]

/-- R131: 1 / (1 + (k + 0.5)/256), entries 224 to 255. -/
def tabQT7 : List Word :=
  [0x3F08642A, 0x3F081BA6, 0x3F07D36F, 0x3F078B84, 0x3F0743E6, 0x3F06FC93, 0x3F06B58B, 0x3F066ECD,
   0x3F06285A, 0x3F05E231, 0x3F059C50, 0x3F0556B9, 0x3F05116A, 0x3F04CC63, 0x3F0487A3, 0x3F04432A,
   0x3F03FEF8, 0x3F03BB0C, 0x3F037766, 0x3F033405, 0x3F02F0E9, 0x3F02AE12, 0x3F026B7F, 0x3F02292F,
   0x3F01E723, 0x3F01A559, 0x3F0163D3, 0x3F01228E, 0x3F00E18B, 0x3F00A0C9, 0x3F006048, 0x3F002008]

/-- R131: 1 / (1 + (k + 0.5)/256). -/
def tabQT : List Word := tabQT0 ++ tabQT1 ++ tabQT2 ++ tabQT3 ++ tabQT4 ++ tabQT5 ++ tabQT6 ++ tabQT7

/-- 1.0 in F32. -/
def f32One : Word := 0x3F800000

/-- 0.5 in F32. -/
def f32Half : Word := 0x3F000000

/-- −1.0 in F32. -/
def f32NegOne : Word := 0xBF800000

/-- −0.5 in F32. -/
def f32NegHalf : Word := 0xBF000000

/-- A finite value rounded to the nearest integer, ties to even. -/
def roundInt : FVal → Int
  | .fin n m e =>
    let a : Int := (if 0 ≤ e then m <<< e.toNat else rneShift m (-e).toNat : Nat)
    if n then -a else a
  | _ => 0

/-- R131: VEXP. -/
def vexp (x : Word) : Word :=
  if (f32Val x).isNaN then f32NaN
  else if flt 0x42B20000 x then f32Inf false
  else if flt x 0xC2D00000 then 0
  else
    let n := roundInt (f32Val (fmul x cK1))
    let nn := f32OfInt (-n)
    let r := ffma nn cLL (ffma nn cLH x)
    let j := (n % 64).toNat
    let p := ffma (ffma (ffma cC3 r f32Half) r f32One) r f32One
    fscale (fmul (tabT2.getD j 0) p) ((n - (j : Int)) / 64)

/-- R131: VLOG. -/
def vlog (x : Word) : Word :=
  match f32Val x with
  | .nan => f32NaN
  | .inf n => if n then f32NaN else f32Inf false
  | .fin n m _ =>
    if m = 0 then f32Inf true else if n then f32NaN else
    let me := decompose x
    let k := bits me.1.toNat 22 16
    let e := f32OfInt me.2
    let r := ffma me.1 (tabG.getD k 0) f32NegOne
    let p := fmul r (ffma (ffma cD3 r f32NegHalf) r f32One)
    fadd (ffma e cN2H (tabH.getD k 0)) (ffma e cN2L p)

/-- R131: one refinement of VRSQRT. -/
def rsqrtStep (m y : Word) : Word := ffma (fmul y f32Half) (ffma (fneg (fmul m y)) y f32One) y

/-- R131: the index of the interval of width 3/256 of [1, 4) that holds m. -/
def rsqrtIndex (m : Word) : Nat :=
  match f32Val m with
  | .fin _ q e => ((q <<< (e + 30).toNat) - 2 ^ 30) * 256 / (3 * 2 ^ 30)
  | _ => 0

/-- R131: VRSQRT. -/
def vrsqrt (x : Word) : Word :=
  match f32Val x with
  | .nan => f32NaN
  | .inf n => if n then f32NaN else 0
  | .fin n m _ =>
    if m = 0 then f32Inf n else if n then f32NaN else
    let me := decompose x
    let odd := me.2 % 2 = 1
    let mm := if odd then fscale me.1 1 else me.1
    let e := if odd then me.2 - 1 else me.2
    let y := tabRT.getD (rsqrtIndex mm) 0
    fscale (rsqrtStep mm (rsqrtStep mm y)) (-(e / 2))

/-- R131: one refinement of VRCP. -/
def rcpStep (m y : Word) : Word := ffma y (ffma (fneg m) y f32One) y

/-- R131: VRCP. -/
def vrcp (x : Word) : Word :=
  match f32Val x with
  | .nan => f32NaN
  | .inf n => if n then 0x80000000 else 0
  | .fin n m _ =>
    if m = 0 then f32Inf n else
    let me := decompose x
    let y := tabQT.getD (bits me.1.toNat 22 15) 0
    let r := fscale (rcpStep me.1 (rcpStep me.1 y)) (-me.2)
    if n then fneg r else r

/-- R192: sqrt(x) = x · rsqrt(x), with its stated corners. -/
def fsqrt (x : Word) : Word :=
  match f32Val x with
  | .nan => f32NaN
  | .inf n => if n then f32NaN else f32Inf false
  | .fin n m _ => if m = 0 then 0 else if n then f32NaN else fmul x (vrsqrt x)

end Sys2Proof.Machine
end

