-- ==== Sys2Proof/Machine/Sweep.lean ====
section
/-!
DEFINITION. The update sweep (R186 to R209): parameter latching, the gradient stage, the optimisers and drill
programs, the factor pass, undo slots, cursors, digests, the scale book, rollback.
-/
namespace Sys2Proof.Machine

/-- R167, R168: element `e` of a weight tensor is frozen. -/
def State.frozen (s : State) (t e : Nat) : Bool :=
  match s.freezeEntry t with
  | some a =>
    match s.word (a + 3) 1 % 4 with
    | 1 => true
    | 2 => bit (s.word (s.word (a + 8) 6 + e / 8) 1) (e % 8)
    | _ => false
  | none => false

/-- R190: TEXP of an entry as fixed for the heat. -/
def State.texpFixed (s : State) (t : Nat) : Int := Tab.get s.sweep.texps t (s.sbTexp t)
/-- R190: ERR_SCALE of an entry as fixed for the heat. -/
def State.errFixed (s : State) (t : Nat) : Word := Tab.get s.sweep.errs t (s.sbErr t)

/-- The exponent of a power of two. -/
def log2F (w : Word) : Int :=
  match f32Val w with
  | .fin _ m e => (Nat.log2 m : Int) + e
  | _ => 0

/-- R189: word P`k` of parameter set `p`, as latched (R190). -/
def State.param (s : State) (p k : Nat) : Word := BitVec.ofNat 32 (fld s.sweep.params (64 * p + 4 * k) 4)

/-- R222: address of the scale array of a narrow vector object of `nb` blocks. -/
def scaleBase (base f nb : Nat) : Nat := align64 (base + nb * blockBytes f)

/-- R222: block `k` of a narrow vector object: scale code, element codes. -/
def State.vecBlock (s : State) (base f nb k : Nat) : Nat × List Nat :=
  (s.word (scaleBase base f nb + k) 1, unpackCodes (fmtWidth f) (s.bytes (base + k * blockBytes f) (blockBytes f)))

/-- R222: a block of a narrow vector object written. -/
def State.putBlock (s : State) (base f nb k : Nat) (b : Nat × List Nat) : State :=
  (s.arrive (base + k * blockBytes f) (packCodes (fmtWidth f) b.2)).arrive (scaleBase base f nb + k)
    [BitVec.ofNat 8 b.1]

/-- R187: the shard keeps a first moment. -/
def State.shUsesM (s : State) (i : Nat) : Bool :=
  match s.shOpt i with
  | 1 => true
  | 2 => true
  | 3 => true
  | 0x10 => bit (fld (Tab.get s.drills (s.shHandle i) []) 4 4) 8
  | _ => false

/-- R187: the shard keeps a second moment. -/
def State.shUsesV (s : State) (i : Nat) : Bool :=
  match s.shOpt i with
  | 2 => true
  | 0x10 => bit (fld (Tab.get s.drills (s.shHandle i) []) 4 4) 9
  | _ => false

/-- R191: what the gradient stage yields: q with its scale, the new error term with its scale, g, trouble. -/
structure Grad where
  q : Nat × List Nat
  e : Nat × List Nat
  g : List Word
  trouble : Trouble
  deriving DecidableEq, Repr

/-- R56: a narrow block of decoded values with the trouble that its reader meets: NANINF of the decoding, and BSCLAMP
for scale code 0xFF. -/
def decodeBlock (f : Nat) (b : Nat × List Nat) (texp : Int) : List Word × Trouble :=
  let r := b.2.map fun c => decodeF32 f c b.1 texp
  (r.map fun x => x.1, { naninf := r.any fun x => x.2, bsclamp := b.1 == 0xFF })

/-- R195: the trouble stops the sweep of a block. -/
def Trouble.stops (t : Trouble) : Bool := t.naninf || t.bsclamp

/-- R187: element `j` of block `k` lies in the shard; R169: and is not frozen. -/
def State.live (s : State) (i k j : Nat) : Bool :=
  decide (32 * k + j < s.shCount i) && !s.frozen (s.shTensor i) (s.shFirst i + 32 * k + j)

/-- R187: element `j` of block `k` lies in the shard. -/
def State.inShard (s : State) (i k j : Nat) : Bool := decide (32 * k + j < s.shCount i)

/-- R191: g of decoded q. -/
def State.gOf (s : State) (i : Nat) (qd : List Word) : List Word :=
  qd.map fun x => fmul x (s.param (s.shParam i) 5)

/-- R191: the gradient stage of block `k` of own shard `i`. -/
def State.gradStage (s : State) (i k : Nat) : Grad :=
  let t := s.shTensor i
  let tg := s.texpFixed (t + 1)
  let old := decodeBlock 3 (s.vecBlock (s.shE i) 3 (s.shBlocks i) k) (log2F (s.errFixed (t + 1)))
  let ss := (List.range 32).map fun j =>
    if s.inShard i k j then
      fadd (BitVec.ofNat 32 (s.word (s.shG i + 4 * (32 * k + j)) 4)) (old.1.getD j 0)
    else 0
  let qb := quantiseBlock 3 tg none (ss.map f32Val)
  let qd := decodeBlock 3 (qb.scale, qb.codes) tg
  let d := (List.range 32).map fun j =>
    if s.live i k j then fsub (ss.getD j 0) (qd.1.getD j 0) else 0
  let eb := quantiseBlock 3 (tg - 3) none (d.map f32Val)
  { q := (qb.scale, qb.codes), e := (eb.scale, eb.codes), g := s.gOf i qd.1
    trouble := (qb.trouble.or eb.trouble).or (old.2.or qd.2) }

/-- R209: the stage of a shadow block: q and e_new come from the mirror record. -/
def State.shadowStage (s : State) (i : Nat) (q e : Nat × List Nat) : Grad :=
  let qd := decodeBlock 3 q (s.texpFixed (s.shTensor i + 1))
  { q := q, e := e, g := s.gOf i qd.1, trouble := qd.2 }

/-- One element: weight, first and second moment as F32. -/
structure Elem where
  w : Word
  m : Word
  v : Word
  deriving DecidableEq, Repr

/-- R192: SGD with momentum. -/
def optSgd (p : Nat → Word) (g : Word) (x : Elem) : Elem :=
  let m := ffma (p 1) x.m g
  let u := ffma (p 4) x.w m
  { x with m := m, w := ffma (fneg (p 0)) u x.w }

/-- R192: AdamW. -/
def optAdamw (p : Nat → Word) (g : Word) (x : Elem) : Elem :=
  let m := ffma (p 1) (fsub x.m g) g
  let gg := fmul g g
  let v := ffma (p 2) (fsub x.v gg) gg
  let u := ffma (p 4) x.w (fmul (fmul m (p 6)) (vrcp (fadd (fsqrt (fmul v (p 7))) (p 3))))
  { m := m, v := v, w := ffma (fneg (p 0)) u x.w }

/-- R192: sign-momentum. -/
def optSign (p : Nat → Word) (g : Word) (x : Elem) : Elem :=
  let c := ffma (p 1) (fsub x.m g) g
  let u := ffma (p 4) x.w (fsign c)
  { x with w := ffma (fneg (p 0)) u x.w, m := ffma (p 2) (fsub x.m g) g }

/-- R193: the factored second moment, with the factors of the element and rcp(mr). -/
def optFactored (p : Nat → Word) (rf cf rmr g : Word) (x : Elem) : Elem :=
  let u := ffma (p 4) x.w (fmul g (vrsqrt (fmul (fmul rf cf) rmr)))
  { x with w := ffma (fneg (p 0)) u x.w }

/-- R197: an operand of a drill instruction. -/
def drillArg (f : List Word) (p : Nat → Word) (n : Nat) : Word := if n < 16 then f.getD n 0 else p (n - 16)

/-- R197: the result of one drill instruction; `rnd` is the uniform value of a stream. -/
def drillOp (op : Nat) (a b c : Word) (r : Word) : Word :=
  match op with
  | 0x01 => a
  | 0x02 => fadd a b
  | 0x03 => fsub a b
  | 0x04 => fmul a b
  | 0x05 => ffma a b c
  | 0x06 => fmin a b
  | 0x07 => fmax a b
  | 0x08 => fabs a
  | 0x09 => fneg a
  | 0x0A => fsign a
  | 0x0B => fsqrt a
  | 0x0C => vrsqrt a
  | 0x0D => vrcp a
  | 0x0E => vexp a
  | 0x0F => vlog a
  | 0x10 => if flt a b then f32One else 0
  | 0x11 => if feq a 0 then c else b
  | _ => r

/-- R197, R198: the registers after the instruction words, up to END. -/
def drillRun (p : Nat → Word) (rnd : Nat → Word) : List Nat → List Word → List Word
  | [], f => f
  | w :: t, f =>
    if bits w 31 26 = 0 then f
    else
      let a := drillArg f p (bits w 21 17)
      let b := drillArg f p (bits w 16 12)
      let c := drillArg f p (bits w 11 7)
      drillRun p rnd t (setAt 0 f (bits w 25 22) (drillOp (bits w 31 26) a b c (rnd (bits w 16 9))))

/-- R196: the instruction words of an image. -/
def drillWords (img : List Byte) : List Nat :=
  (List.range (fld img 4 4 % 128)).map fun k => fld img (0x10 + 4 * k) 4

/-- R198: a drill program on one element. -/
def optDrill (img : List Byte) (p : Nat → Word) (rnd : Nat → Word) (g : Word) (x : Elem) : Elem :=
  let fl := fld img 4 4
  let f := drillRun p rnd (drillWords img)
    [g, x.w, if bit fl 8 then x.m else 0, if bit fl 9 then x.v else 0, 0, 0, 0, 0, 0, 0, 0, 0, 0, 0, 0, 0]
  { w := f.getD 1 0, m := f.getD 2 0, v := f.getD 3 0 }

/-- R193: the columns of a shard's tensor. -/
def State.shCols (s : State) (i : Nat) : Nat := s.word (s.sbAddr (s.shTensor i) + 0x18) 8 % 2 ^ 42
/-- R587: SHAPE_ROWS of a shard's tensor. -/
def State.shRows (s : State) (i : Nat) : Nat := s.word (s.sbAddr (s.shTensor i) + 0x14) 4

/-- R193: factor word `n` of a shard. -/
def State.factor (s : State) (i n : Nat) : Word := BitVec.ofNat 32 (s.word (s.shV i + 4 * n) 4)

/-- R187: the entry has a second-moment or factor object. -/
def State.needsV (s : State) (i : Nat) : Bool := s.shUsesV i || s.shOpt i == 4

/-- R193, R206: factor words of an OPT 0x04 shard. -/
def State.factorCount (s : State) (i : Nat) : Nat := s.shRows i + s.shCols i

/-- R222: bytes of a narrow vector object. -/
def State.narrowBytes (s : State) (i : Nat) : Nat := scaleBase 0 2 (s.shBlocks i) + s.shBlocks i

/-- R187, R222: the objects of index `i`: offset of the address in its entry, address, bytes. -/
def State.shObjects (s : State) (i : Nat) : List (Nat × Nat × Nat) :=
  [(0x18, s.shW i, 64 * s.shBlocks i)]
    ++ (if s.shUsesM i then [(0x20, s.shM i, s.narrowBytes i)] else [])
    ++ (if s.shOpt i = 4 then [(0x28, s.shV i, 4 * s.factorCount i)]
        else if s.shUsesV i then [(0x28, s.shV i, s.narrowBytes i)] else [])
    ++ [(0x30, s.shE i, s.narrowBytes i)]

/-- R193: rcp(mr). -/
def State.rcpMr (s : State) (i : Nat) : Word :=
  let rows := s.shRows i
  let sum := (List.range rows).foldl (fun a r => fadd a (s.factor i r)) 0
  vrcp (fmul sum (vrcp (f32OfInt rows)))

/-- R192 to R198: the update of one element of shard `i` at shard position `n`. -/
def State.update (s : State) (i n : Nat) (rmr g : Word) (x : Elem) : Elem :=
  let p := fun k => s.param (s.shParam i) k
  match s.shOpt i with
  | 1 => optSgd p g x
  | 2 => optAdamw p g x
  | 3 => optSign p g x
  | 4 => optFactored p (s.factor i (n / s.shCols i)) (s.factor i (s.shRows i + n % s.shCols i)) rmr g x
  | _ => optDrill (Tab.get s.drills (s.shHandle i) []) p
      (fun st => BitVec.ofNat 32
        ((FVal.fin false (randomWord (s.jobF 8 8) s.heat.num (s.shTensor i) 3 st 0 (s.shFirst i + n) / 256)
          (-24)).toF32.toNat)) g x

/-- R194: the weight is rounded by R65, or by R54 when a drill image clears W_SR. -/
def State.weightCode (s : State) (i n : Nat) (w : Word) : Nat :=
  if s.shOpt i = 0x10 ∧ !bit (fld (Tab.get s.drills (s.shHandle i) []) 4 4) 7 then (toW16 (f32Val w)).1
  else roundSr w (randomWord (s.jobF 8 8) s.heat.num (s.shTensor i) 1 0 0 (s.shFirst i + n) % 2 ^ 16)

/-- R194: the new state of a block, with the trouble met. -/
structure BlockOut where
  w : List Nat
  m : Nat × List Nat
  v : Nat × List Nat
  e : Nat × List Nat
  trouble : Trouble
  deriving DecidableEq, Repr

/-- R192 to R195: one block from its gradient stage. -/
def State.blockOut (s : State) (i k : Nat) (gr : Grad) : BlockOut :=
  let t := s.shTensor i
  let nb := s.shBlocks i
  let um := s.shUsesM i
  let uv := s.shUsesV i
  let zero : Nat × List Nat := (0, List.replicate 32 0)
  let wOld := unpackCodes 16 (s.bytes (s.shW i + 64 * k) 64)
  let tm := s.texpFixed (t + 2)
  let tv := s.texpFixed (t + 3)
  let mo := if um then decodeBlock 2 (s.vecBlock (s.shM i) 2 nb k) tm else (List.replicate 32 0, {})
  let vo := if uv then decodeBlock 3 (s.vecBlock (s.shV i) 3 nb k) tv else (List.replicate 32 0, {})
  let rmr := if s.shOpt i = 4 then s.rcpMr i else 0
  let out := (List.range 32).map fun j =>
    if s.live i k j then
      s.update i (32 * k + j) rmr (gr.g.getD j 0) ⟨w16ToF32 (wOld.getD j 0), mo.1.getD j 0, vo.1.getD j 0⟩
    else ⟨w16ToF32 (wOld.getD j 0), 0, 0⟩
  let mq := quantiseBlock 2 tm none (out.map fun x => f32Val x.m)
  let vq := quantiseBlock 3 tv none (out.map fun x => f32Val x.v)
  let wNew := (List.range 32).map fun j =>
    if s.live i k j then s.weightCode i (32 * k + j) (out.getD j ⟨0, 0, 0⟩).w
    else if s.inShard i k j then wOld.getD j 0 else 0
  let wBad := (List.range 32).any fun j => s.inShard i k j &&
    (!(decodeElem 1 (wOld.getD j 0)).finite || !(decodeElem 1 (wNew.getD j 0)).finite
      || nonFinite (out.getD j ⟨0, 0, 0⟩).w)
  { w := wNew
    m := if um then (mq.scale, mq.codes) else zero
    v := if uv then (vq.scale, vq.codes) else zero
    e := gr.e
    trouble := ((gr.trouble.or (if um then mq.trouble else {})).or (if uv then vq.trouble else {})).or
      ((mo.2.or vo.2).or { naninf := wBad }) }

/-- R186: base of a unit's undo ring. -/
def State.undoBase (s : State) (u : Nat) : Nat := s.word (s.jobA 0x78 + 16 * u) 6
/-- R186: slots of a unit's undo ring. -/
def State.undoSlots (s : State) (u : Nat) : Nat := s.word (s.jobA 0x78 + 16 * u + 8) 4
/-- R210: slots that a unit has written in the attempt. -/
def State.undoHead (s : State) (u : Nat) : Nat := s.regN (swpAt u + 0x10)

/-- A sweep unit beside its registers. -/
def State.unit (s : State) (u : Nat) : SwpUnit := Tab.get s.sweep.units u {}
/-- A sweep unit changed. -/
def State.onUnit (s : State) (u : Nat) (f : SwpUnit → SwpUnit) : State :=
  { s with sweep := { s.sweep with units := Tab.set s.sweep.units u (f (s.unit u)) } }

/-- R556: shard and baton indices together. -/
def State.idxCount (s : State) : Nat := s.shardCount + s.job.batonCount

/-- R200: an undo slot written by unit `u`: SHARD, INDEX, KIND and the 168 bytes from 0x10 on. -/
def State.undoWrite (s : State) (u shard index kind : Nat) (body : List Byte) : State :=
  let b := leBytes 4 shard ++ leBytes 4 index ++ leBytes 4 s.heat.num
    ++ leBytes 4 (s.heat.attempt % 256 + kind * 256) ++ fit 168 body
  let s := s.onUnit u fun x => { x with slots := x.slots ++ [shard] }
  (s.arrive (s.undoBase u + 192 * s.undoHead u) (b ++ leBytes 8 (crc64 b))).count (swpAt u + 0x10) 1

/-- R200: the old state of block `k` of shard index `i`, as the body of its slot. -/
def State.oldBlock (s : State) (i k : Nat) : List Byte :=
  let nb := s.shBlocks i
  let arr := fun (use : Bool) (base f : Nat) =>
    if use then s.bytes (base + k * blockBytes f) (blockBytes f) else List.replicate 32 0
  let sc := fun (use : Bool) (base f : Nat) => if use then s.bytes (scaleBase base f nb + k) 1 else [0]
  s.bytes (s.shW i + 64 * k) 64 ++ arr (s.shUsesM i) (s.shM i) 2 ++ arr (s.shUsesV i) (s.shV i) 3
    ++ arr true (s.shE i) 3 ++ sc (s.shUsesM i) (s.shM i) 2 ++ sc (s.shUsesV i) (s.shV i) 3
    ++ sc true (s.shE i) 3

/-- R201: the cursor record of shard index `i`. -/
def State.cursorWrite (s : State) (i st lo limit : Nat) : State :=
  s.arrive (s.jobA 0x80 + 16 * i) (leBytes 2 i ++ leBytes 1 st ++ leBytes 1 s.heat.attempt
    ++ leBytes 4 s.heat.num ++ leBytes 4 lo ++ leBytes 4 limit)

/-- R201: LO of shard index `i`. -/
def State.cursorLo (s : State) (i : Nat) : Nat := s.word (s.jobA 0x80 + 16 * i + 8) 4
/-- R201: STATE of shard index `i`. -/
def State.cursorSt (s : State) (i : Nat) : Nat := s.word (s.jobA 0x80 + 16 * i + 2) 1

/-- R210: STATE of a sweep unit. -/
def State.unitState (s : State) (u : Nat) : Nat := s.regN (swpAt u) % 8
/-- R210: STATE of a sweep unit set. -/
def State.setUnitState (s : State) (u n : Nat) : State := s.setRegN (swpAt u) n

/-- R206: digest slots of one index. -/
def State.digestSlotsOf (s : State) (i : Nat) : Nat := ceilDiv (s.shBlocks i) 16384 + b2n (s.shOpt i == 4)

/-- R206: the digest slot of group `g` of index `i` (0xFFFF: its factor group); the scale-book group has
index `idxCount`. -/
def State.digestSlot (s : State) (i g : Nat) : Nat :=
  ((List.range i).map s.digestSlotsOf).sum +
    (if i = s.idxCount then 0 else if g = 0xFFFF then ceilDiv (s.shBlocks i) 16384 else g)

/-- R206: address of a digest record. -/
def State.digestAddr (s : State) (i g : Nat) : Nat := s.jobA 0x88 + 32 * s.digestSlot i g

/-- R206: a digest record written by unit `u`; it is queued for comparison (R562). -/
def State.digestWrite (s : State) (u i g blocks crc : Nat) : State :=
  let s := s.arrive (s.digestAddr i g) (leBytes 2 (if i = s.idxCount then 0xFFFF else i) ++ leBytes 2 g
    ++ leBytes 4 s.heat.num ++ leBytes 4 s.heat.attempt ++ leBytes 4 blocks ++ leBytes 8 crc ++ leBytes 8 0)
  let s := s.setReg64 (swpAt u + 0x30) crc
  { s with sweep := { s.sweep with made := s.sweep.made ++ [(i, g)] } }

/-- R195: a unit stops on trouble. -/
def State.sweepStop (s : State) (u i k : Nat) (tr : Trouble) : State :=
  let s := (s.setUnitState u 7).raiseBits (swpAt u + 0x18) tr.code
  s.ochre s.job.world 0x0206 2 (blkSource (edgeBlk (u / 4)))
    (leBytes 4 (s.shTensor i) ++ leBytes 4 k ++ leBytes 4 tr.code)

/-- R195, R237: a failed access of a unit stops it and voids the attempt. -/
def State.sweepFail (s : State) (u a : Nat) (st : AccSt) : State :=
  let s := s.setUnitState u 7
  let src := blkSource (edgeBlk (u / 4))
  if st = .void then s.eccVoid s.job.world src a
  else s.ochre s.job.world 0x0300 1 src (leBytes 8 a ++ leBytes 4 st.code)

/-- R195, R445: the first access that fails for a unit: of the ranges it reads, then of those it writes. -/
def State.sweepCheck (s : State) (u : Nat) (rd wr : List (Nat × Nat)) : Option (Nat × AccSt) :=
  let w := s.edgeWorld (u / 4)
  let f := fun (chk : Nat → Nat → AccSt) (p : Nat × Nat) => match chk p.1 p.2 with
    | .ok => none
    | x => some (p.1, x)
  (rd.findSome? (f (s.checkRead w))).or (wr.findSome? (f (s.check w)))

/-- R195, R214, R236: a unit's accesses: a failure stops it; else what it reads is corrected, and it goes on. -/
def State.sweepWith (s : State) (u : Nat) (rd wr : List (Nat × Nat)) (k : State → State) : State :=
  match s.sweepCheck u rd wr with
  | some (a, st) => s.sweepFail u a st
  | none => k (rd.foldl (fun s p => s.readSeen p.1 p.2) s)

/-- R201: where the cursor record of shard index `i` lies. -/
def State.cursorRange (s : State) (i : Nat) : Nat × Nat := (s.jobA 0x80 + 16 * i, 16)
/-- R200: where unit `u` writes its next undo slots. -/
def State.slotRange (s : State) (u n : Nat) : Nat × Nat := (s.undoBase u + 192 * s.undoHead u, 192 * n)
/-- R193: where the factor array of an OPT 0x04 shard lies. -/
def State.factorRange (s : State) (i : Nat) : Nat × Nat := (s.shV i, 4 * (s.shRows i + s.shCols i))

/-- R195: the ranges that block `k` of index `i` reads. -/
def State.blockRanges (s : State) (i k : Nat) (own : Bool) : List (Nat × Nat) :=
  let nb := s.shBlocks i
  let arr := fun (use : Bool) (base f : Nat) =>
    if use then [(base + k * blockBytes f, blockBytes f), (scaleBase base f nb + k, 1)] else []
  [(s.shW i + 64 * k, 64)]
    ++ arr (s.shUsesM i) (s.shM i) 2 ++ arr (s.shUsesV i) (s.shV i) 3 ++ arr true (s.shE i) 3
    ++ (if s.shOpt i = 4 then [s.factorRange i] else [])
    ++ (if own then [(s.shG i + 128 * k, 128)] else [])

/-- R195: the ranges that block `k` of index `i` writes beside its state: slot, cursor, the records of the groups that
it finishes. -/
def State.blockWrites (s : State) (u i k : Nat) : List (Nat × Nat) :=
  let last := k + 1 == s.shBlocks i
  [s.slotRange u 1, s.cursorRange i]
    ++ (if last || (k + 1) % 16384 == 0 then [(s.digestAddr i (k / 16384), 32)] else [])
    ++ (if last && s.shOpt i == 4 then [(s.digestAddr i 0xFFFF, 32)] else [])

/-- R205: the bytes of a block that enter its group's digest. -/
def State.blockDigestBytes (s : State) (i k : Nat) : List Byte :=
  let nb := s.shBlocks i
  let arr := fun (use : Bool) (base f : Nat) =>
    if use then s.bytes (base + k * blockBytes f) (blockBytes f) ++ s.bytes (scaleBase base f nb + k) 1 else []
  s.bytes (s.shW i + 64 * k) 64 ++ arr (s.shUsesM i) (s.shM i) 2 ++ arr (s.shUsesV i) (s.shV i) 3
    ++ arr true (s.shE i) 3

/-- R194: the new block written: error term, m, v, weight. -/
def State.blockWrite (s : State) (i k : Nat) (o : BlockOut) : State :=
  let nb := s.shBlocks i
  let s := s.putBlock (s.shE i) 3 nb k o.e
  let s := if s.shUsesM i then s.putBlock (s.shM i) 2 nb k o.m else s
  let s := if s.shUsesV i then s.putBlock (s.shV i) 3 nb k o.v else s
  s.arrive (s.shW i + 64 * k) (packCodes 16 o.w)

/-- R205: the digest of the factor array. -/
def State.factorCrc (s : State) (i : Nat) : Nat :=
  crc64 (s.bytes (s.shV i) (4 * (s.shRows i + s.shCols i)))

/-- R210: EDG_SWP_CURSOR and EDG_SWP_LIMIT follow an own shard. -/
def State.showCursor (s : State) (u i lo : Nat) : State :=
  if i < s.shardCount then (s.setRegN (swpAt u + 8) lo).setRegN (swpAt u + 0xC) lo else s

/-- R201: index `i` is finished by unit `u`. -/
def State.indexDone (s : State) (u i : Nat) : State :=
  let s := if s.shOpt i = 4 then s.digestWrite u i 0xFFFF (s.shRows i + s.shCols i) (s.factorCrc i) else s
  let s := s.onUnit u fun x => { x with finished := x.finished ++ [i] }
  if i < s.shardCount then (s.onUnit u fun x => { x with cur := none }).setUnitState u 6 else s

/-- R205: the running digest of index `i` after block `k`. -/
def State.runCrc (s : State) (i k : Nat) : Nat :=
  crc64From (if k % 16384 = 0 then 0 else Tab.get s.sweep.crcs i 0) (s.blockDigestBytes i k)

/-- R201, R205, R206: after block `k` is written: the cursor moves on, the group's digest goes on, a finished
group gets its record, a finished shard its DONE. -/
def State.blockDone (s : State) (u i k : Nat) : State :=
  let last := k + 1 == s.shBlocks i
  let c := s.runCrc i k
  let s := { s with sweep := { s.sweep with crcs := Tab.set s.sweep.crcs i c } }
  let s := (s.count64 (swpAt u + 0x20) 1).showCursor u i (k + 1)
  let s := s.cursorWrite i (if last then 3 else 2) (k + 1) (k + 1)
  let s := if last || (k + 1) % 16384 == 0 then s.digestWrite u i (k / 16384) (k % 16384 + 1) c else s
  if last then s.indexDone u i else s

/-- R310: the record of block `k` of shard `i`: SHARD, BLOCK, HEAT, ATTEMPT, q, the scale codes, e_new. -/
def State.mirrorBytes (s : State) (i k : Nat) (g : Grad) : List Byte :=
  leBytes 4 i ++ leBytes 4 k ++ leBytes 4 s.heat.num ++ leBytes 4 s.heat.attempt ++ fit 32 (packCodes 8 g.q.2)
    ++ leBytes 1 g.q.1 ++ leBytes 1 g.e.1 ++ List.replicate 14 0 ++ fit 32 (packCodes 8 g.e.2)

/-- R191 to R195, R200, R201: block `k` of index `i` is swept by unit `u` from a gradient stage. -/
def State.sweepOne (s : State) (u i k : Nat) (gr : Grad) (own : Bool) : State :=
  s.sweepWith u (s.blockRanges i k own) (s.blockWrites u i k) fun s =>
    let o := s.blockOut i k gr
    let s := s.undoWrite u i k 0 (s.oldBlock i k)
    let s := if own then s.setRegN (swpAt u + 0xC) (k + 1) else s
    let s := s.cursorWrite i 2 k (k + 1)
    if o.trouble.stops then s.sweepStop u i k o.trouble
    else (s.blockWrite i k o).blockDone u i k

/-- SWEEP phase: R190: the parameter sets are read, TEXP and ERR_SCALE of every entry are fixed. -/
def State.latchParams (s : State) : State :=
  let ts := List.range (s.jobF 0x20 3)
  { s with
    sweep := { s.sweep with
      params := s.bytes (s.jobA 0x70) 1024
      texps := ts.map fun t => (t, s.sbTexp t)
      errs := ts.map fun t => (t, s.sbErr t) }
    heat := { s.heat with sweepBegun := true } }

/-- R190, R195: the SWEEP phase begins: its parameter sets and scale-book entries are accesses of unit 0. -/
def State.sweepPhase (s : State) : State :=
  s.sweepWith 0 [(s.jobA 0x70, 1024), (s.sbAddr 0, 128 * s.jobF 0x20 3)] [] State.latchParams

/-- R32, R190: the SWEEP phase may begin: a shard's reduced gradient is present. -/
def State.sweepDue (s : State) : Bool :=
  s.heat.running && s.heat.voids.isEmpty && !s.heat.sweepBegun && !s.sweep.present.isEmpty

/-- SWEEP_PHASE_START (R190). -/
def execSweepPhaseStart (s : State) : Host.Outcome State Fault Refusal :=
  .next (if s.sweepDue then s.sweepPhase else s)

/-- R190: the next shard of a unit: the lowest unfinished index of its own shards. -/
def State.nextShard (s : State) (u : Nat) : Option Nat :=
  (List.range s.shardCount).find? fun i =>
    s.shUnit i == u && s.freezeClass (s.shTensor i) != 1 && !(s.unit u).finished.contains i

/-- R203: the sweep is paused: from ENTER_FLOOR or ENTER_PARK on until RUN (R498: PWR_STATE 1 to 5). -/
def State.sweepPaused (s : State) : Bool := s.regN pwrAt % 8 != 0

/-- R190: a unit begins a shard or waits for its gradient. -/
def State.shardStart (s : State) (u : Nat) : State :=
  if !(s.heat.running && s.heat.voids.isEmpty && s.heat.sweepBegun && (s.unit u).cur.isNone
      && !s.sweepPaused && (s.unitState u == 0 || s.unitState u == 1 || s.unitState u == 6)) then s
  else match s.nextShard u with
    | none => s
    | some i =>
      let s := s.setRegN (swpAt u + 4) i
      if s.twin.pulls.any (·.idx == i) then s.setUnitState u 1
      else if s.sweep.present.contains i then
        let s := (s.onUnit u fun x => { x with cur := some i }).setRegN (swpAt u + 0x14) (s.undoSlots u)
        let s := (s.setRegN (swpAt u + 8) 0).setRegN (swpAt u + 0xC) 0
        if s.shOpt i = 4 then s.setUnitState u 2
        else s.sweepWith u [] [s.cursorRange i] fun s => (s.cursorWrite i 2 0 0).setUnitState u 3
      else s.setUnitState u 1

/-- SWEEP_SHARD_START (R190). -/
def execSweepShardStart (u : Nat) (s : State) : Host.Outcome State Fault Refusal :=
  guarded (decide (u < 16)) (s.shardStart u)

/-- R193: the new factor words of a shard, rows before columns. -/
def State.factorWords (s : State) (i : Nat) (g : List Word) : List Word :=
  let rows := s.shRows i
  let cols := s.shCols i
  let p := fun k => s.param (s.shParam i) k
  let ic := vrcp (f32OfInt cols)
  let ir := vrcp (f32OfInt rows)
  let sq := fun n => let x := g.getD n 0; fadd (fmul x x) (p 3)
  let upd := fun (old r : Word) => ffma (p 2) (fsub old r) r
  ((List.range rows).map fun r =>
    upd (s.factor i r) (fmul ((List.range cols).foldl (fun a c => fadd a (sq (r * cols + c))) 0) ic))
  ++ ((List.range cols).map fun c =>
    upd (s.factor i (rows + c)) (fmul ((List.range rows).foldl (fun a r => fadd a (sq (r * cols + c))) 0) ir))

/-- R193, R195: the ranges that the factor pass of a shard reads: the gradient, the error terms, the factors. -/
def State.factorReads (s : State) (i : Nat) : List (Nat × Nat) :=
  let nb := s.shBlocks i
  [(s.shG i, 4 * s.shCount i), (s.shE i, nb * blockBytes 3), (scaleBase (s.shE i) 3 nb, nb), s.factorRange i]

/-- R193, R201: the factor pass: the stage over the whole shard, every factor slot, then the factors. -/
def State.factorPass (s : State) (u i : Nat) : State :=
  let n := s.shRows i + s.shCols i
  s.sweepWith u (s.factorReads i) [s.slotRange u (ceilDiv n 32), s.cursorRange i] fun s =>
    let st := (List.range (s.shBlocks i)).map fun k => s.gradStage i k
    match st.findIdx? fun g => g.trouble.stops with
    | some k => s.sweepStop u i k ((st.map (·.trouble)).getD k {})
    | none =>
      let fw := s.factorWords i (st.flatMap fun g => g.g)
      let s := s.forAll (List.range (ceilDiv n 32)) fun q s =>
        s.undoWrite u i q 1 (s.bytes (s.shV i + 128 * q) (4 * min 32 (n - 32 * q)))
      let s := s.cursorWrite i 1 0 0
      let s := s.arrive (s.shV i) (fw.flatMap fun w => leBytes 4 w.toNat)
      (s.cursorWrite i 2 0 0).setUnitState u 3

/-- FACTOR_PASS (R193, R201). -/
def execFactorPass (u : Nat) (s : State) : Host.Outcome State Fault Refusal :=
  guarded (decide (u < 16)) (
    match (s.unit u).cur with
    | some i => if s.unitState u == 2 && s.heat.running && s.heat.voids.isEmpty && !s.sweepPaused then s.factorPass u i else s
    | none => s)

/-- R59: the next TEXP of an entry. -/
def State.nextTexp (s : State) (a hist : Nat) : Int :=
  let hs := (List.range hist).map fun i => f32Val (BitVec.ofNat 32 (s.word (a + 0x40 + 4 * i) 4))
  let t : Int := match hs.foldl magMax (.fin false 0 0) with
    | .fin _ m e =>
      if m = 0 then s8 (s.word (a + 8) 1)
      else (Nat.log2 m : Int) + e + (if 2 ^ Nat.log2 m = m then 0 else 1)
    | _ => s8 (s.word (a + 8) 1)
  max (min t 127) (-126)

/-- R61, R207: one scale-book entry at the end of SWEEP. -/
def State.bookEntry (s : State) (t : Nat) : State :=
  let a := s.sbAddr t
  let w := s.word (a + 4) 4
  let amax := s.bytes (a + 0x10) 4
  let s1 :=
    if bit w 21 then s
    else
      let head := bits w 20 17
      let cnt := min (bits w 16 12 + 1) 16
      let s := s.arrive (a + 0x40 + 4 * head) amax
      let s := s.arrive (a + 4) (leBytes 4 (putBits (putBits w 20 17 ((head + 1) % 16)) 16 12 cnt))
      s.arrive (a + 9) (leBytes 1 (ofInt 8 (s.nextTexp a cnt)))
  let s1 := if bits w 7 4 = 2 then
      s1.arrive (a + 0xC) (leBytes 4 (f32Pow2 (s.texpFixed t - 3)).toNat) else s1
  s1.arrive (a + 0x10) (leBytes 4 0)

/-- R168: entry `t` is that of a FROZEN tensor. -/
def State.bookFrozen (s : State) (t : Nat) : Bool := s.freezeClass t == 1

/-- R207: every unit has finished every shard, and the reductions of R61 have completed. -/
def State.bookReady (s : State) : Bool :=
  s.heat.running && s.heat.voids.isEmpty && s.heat.sweepBegun && !s.sweep.bookDone
    && (List.range 16).all (fun u => (s.nextShard u).isNone)
    && (List.range (s.jobF 0x20 3)).all fun t =>
        s.word (s.sbAddr t + 0xA) 2 == 0 || s.sweep.amaxDone.contains (s.word (s.sbAddr t + 0xA) 2)

/-- R195, R207: the entry of tensor `t` is written, its old bytes to the undo slots first, where it changes; the
digest's CRC-64 and the count of entries written go on. After an access of unit 0 that failed nothing more is done. -/
def State.bookStep (r : State × Nat × Nat) (t : Nat) : State × Nat × Nat :=
  let a := r.1.sbAddr t
  let old := r.1.bytes a 128
  if !r.1.heat.voids.isEmpty || (r.1.bookEntry t).bytes a 128 == old then r
  else
    match r.1.sweepCheck 0 [(a, 128)] [r.1.slotRange 0 1] with
    | some (a, st) => (r.1.sweepFail 0 a st, r.2)
    | none =>
      let s := ((r.1.readSeen a 128).undoWrite 0 0xFFFF t 2 old).bookEntry t
      (s, crc64From r.2.1 (s.bytes a 128), r.2.2 + 1)

/-- R207: the scale book is written: the group's record, and the end of the SWEEP phase. -/
def State.bookEnd (s : State) (crc n : Nat) : State :=
  let s := { s with sweep := { s.sweep with bookDone := true }, heat := { s.heat with sweepDone := true } }
  ((s.digestWrite 0 s.idxCount 0 n crc).progress).phaseEnd 3

/-- R207: unit 0 writes the scale book: for each entry that changes a KIND 2 slot and then the entry; the
group's digest covers those entries in the same order. -/
def State.bookWrite (s : State) : State :=
  let r := ((List.range (s.jobF 0x20 3)).filter fun t => !s.bookFrozen t).foldl State.bookStep (s, 0, 0)
  if !r.1.heat.voids.isEmpty then r.1
  else r.1.sweepWith 0 [] [(r.1.digestAddr s.idxCount 0, 32)] fun s => s.bookEnd r.2.1 r.2.2

/-- R202: slot `n` of unit `u` restores what it holds; false when its CHECK fails or it cannot be read. -/
def State.undoRestore (s : State) (u n : Nat) : State × Bool :=
  let a := s.undoBase u + 192 * n
  let b := s.bytes a 192
  let i := fld b 0 2
  let idx := fld b 4 4
  if fld b 0xB8 8 ≠ crc64 (b.take 0xB8) ∨ s.checkRead (s.edgeWorld (u / 4)) a 192 ≠ .ok then (s, false)
  else
    match bits (fld b 0xC 4) 9 8 with
    | 0 =>
      let nb := s.shBlocks i
      let arr := fun (s : State) (use : Bool) (base f o so : Nat) =>
        if use then (s.arrive (base + idx * blockBytes f) (sub b o 32)).arrive (scaleBase base f nb + idx)
          (sub b so 1) else s
      let s := s.arrive (s.shW i + 64 * idx) (sub b 0x10 64)
      let s := arr s (s.shUsesM i) (s.shM i) 2 0x50 0xB0
      let s := arr s (s.shUsesV i) (s.shV i) 3 0x70 0xB1
      (arr s true (s.shE i) 3 0x90 0xB2, true)
    | 1 =>
      let n := s.shRows i + s.shCols i
      (s.arrive (s.shV i + 128 * idx) (sub b 0x10 (4 * min 32 (n - 32 * idx))), true)
    | _ => (s.arrive (s.sbAddr idx) (sub b 0x10 128), true)

/-- R202, R549: slot `n` of unit `u` is restored; a slot that fails raises UNDO_CHECK and a Crimson fault, and the
state of its index is lost. -/
def State.slotRestore (s : State) (u n : Nat) : State :=
  let r := (s.readSeen (s.undoBase u + 192 * n) 192).undoRestore u n
  if r.2 then r.1
  else
    let sh := (s.unit u).slots.getD n 0xFFFF
    let i := if sh = 0xFFFF then s.idxCount else sh
    let s := (s.raiseBits (swpAt u + 0x18) 0x20).raiseJob 0x0302 3 (blkSource (edgeBlk (u / 4)))
      (leBytes 8 (s.undoBase u + 192 * n))
    { s with twin := { s.twin with lost := s.twin.lost ++ [i] } }

/-- R202: unit `u` restores every slot of the attempt in ascending order. -/
def State.unitRestore (s : State) (u : Nat) : State :=
  let s := if s.undoHead u = 0 then s else s.setUnitState u 5
  s.forAll (List.range (s.undoHead u)) fun n s => s.slotRestore u n

/-- R237: the index whose state holds an address: a shard, a baton entry, or `idxCount` for the scale book. -/
def State.ownerOf (s : State) (a : Nat) : Option Nat :=
  match (List.range s.idxCount).find? fun i =>
      (s.shObjects i).any fun q => decide (q.2.1 ≤ a ∧ a < q.2.1 + q.2.2) with
  | some i => some i
  | none => if s.sbAddr 0 ≤ a ∧ a < s.sbAddr (s.jobF 0x20 3) then some s.idxCount else none

/-- R61, R548: AMAX_CUR of every entry is +0. -/
def State.amaxClear (s : State) : State :=
  s.forAll (List.range (s.jobF 0x20 3)) fun t s =>
    if s.word (s.sbAddr t + 0x10) 4 = 0 then s else s.arrive (s.sbAddr t + 0x10) (leBytes 4 0)

/-- R186, R210: EDG_SWP_UNDO_SLOTS of every unit shows the size of its ring. -/
def State.ringShow (s : State) : State :=
  s.forAll (List.range 16) fun u s => s.setRegN (swpAt u + 0x14) (if s.job.loaded then s.undoSlots u else 0)

/-- R202, R204: rings to slot 0, cursors IDLE, units idle. -/
def State.sweepReset (s : State) (rolled : Bool) : State :=
  let s := s.forAll (List.range s.idxCount) fun i s => s.cursorWrite i 0 0 0
  let s := s.forAll (List.range 16) fun u s =>
    let b := swpAt u
    let s := ((((s.setRegN b 0).setRegN (b + 4) 0xFFFF).setRegN (b + 8) 0).setRegN (b + 0xC) 0).setRegN (b + 0x10) 0
    if rolled then s.count (b + 0x28) 1 else s
  { s with sweep := {}, heat := { s.heat with sweepBegun := false } }

end Sys2Proof.Machine
end

