-- ==== Sys2Proof/Machine/Relay.lean ====
section
/-!
DEFINITION. Relay engines (R325 to R347, R357, R360, R588): collectives from trigger to done word, their
fragments, the landing area, the reduction order, the permutation collective, the gradient path and the
amax reduction.
-/
namespace Sys2Proof.Machine

/-- A collective's state. -/
def State.coll (s : State) (i : Nat) : Coll := Tab.get s.relay.colls i {}
/-- A collective's state changed. -/
def State.onColl (s : State) (i : Nat) (f : Coll → Coll) : State :=
  { s with relay := { s.relay with colls := Tab.set s.relay.colls i (f (s.coll i)) } }

/-- R329: DTYPE. -/
def State.cDtype (s : State) (i : Nat) : Nat := bits (s.collW i) 9 6
/-- R329: CUT. -/
def State.cCut (s : State) (i : Nat) : Nat := bits (s.collW i) 11 10
/-- R329: ENGINE. -/
def State.cEngine (s : State) (i : Nat) : Nat := bits (s.collW i) 13 12
/-- R329: TRIGGER. -/
def State.cTrigger (s : State) (i : Nat) : Nat := bits (s.collW i) 16 14
/-- R329: POOL. -/
def State.cPool (s : State) (i : Nat) : Bool := bit (s.collW i) 17
/-- R329: SHARD. -/
def State.cShard (s : State) (i : Nat) : Nat := s.word (s.collAddr i + 6) 2
/-- R329: COUNT. -/
def State.cCount (s : State) (i : Nat) : Nat := s.word (s.collAddr i + 8) 4
/-- R329: LAYER. -/
def State.cLayer (s : State) (i : Nat) : Nat := bits (s.word (s.collAddr i + 0xC) 4) 11 0
/-- R329: RELEASE. -/
def State.cRelease (s : State) (i : Nat) : Nat := bits (s.word (s.collAddr i + 0xC) 4) 23 12
/-- R329: SRC. -/
def State.cSrc (s : State) (i : Nat) : Nat := s.word (s.collAddr i + 0x10) 6
/-- R329: DST. -/
def State.cDst (s : State) (i : Nat) : Nat := s.word (s.collAddr i + 0x18) 6
/-- R329: AUX. -/
def State.cAux (s : State) (i : Nat) : Nat := s.word (s.collAddr i + 0x20) 6
/-- R329: TENSOR. -/
def State.cTensor (s : State) (i : Nat) : Nat := s.word (s.collAddr i + 0x28) 3
/-- R329: FLAG. -/
def State.cFlag (s : State) (i : Nat) : Nat := s.word (s.collAddr i + 0x30) 6
/-- R341: elements of a chunk with the pad of its last block. -/
def State.cPad (s : State) (i : Nat) : Nat :=
  if s.cDtype i = 2 ∨ s.cDtype i = 3 then ceilDiv (s.cCount i) 32 * 32 else s.cCount i
/-- R445: the world of a collective's engine. -/
def State.cWorld (s : State) (i : Nat) : World := s.relayWorld (s.cEngine i)
/-- Ranks of a collective's group. -/
def State.cN (s : State) (i : Nat) : Nat := s.ranks (s.cGroup i)
/-- This device's rank in a collective's group. -/
def State.cR (s : State) (i : Nat) : Nat := s.self (s.cGroup i)
/-- Columns of a collective's group. -/
def State.cC (s : State) (i : Nat) : Nat := s.gCols (s.cGroup i)
/-- The collective is a reduction. -/
def State.cReduce (s : State) (i : Nat) : Bool := s.cKind i == 1 || s.cKind i == 3
/-- R330: the collective runs outside heats. -/
def State.cIdle (s : State) (i : Nat) : Bool := s.cTrigger i == 4
/-- R337: blocks of a chunk of a reduction. -/
def State.cBlocks (s : State) (i : Nat) : Nat := s.cCount i / 32
/-- SOURCE of a relay engine's events. -/
def rlySource (e : Nat) : Nat := blkSource (edgeBlk e)

/-- R222, R341: bytes of a chunk, by DTYPE. -/
def chunkSize (dtype count : Nat) : Nat :=
  match dtype with
  | 0 => count
  | 1 => 2 * count
  | 4 => 4 * count
  | _ => align64 (ceilDiv count 32 * 32) + ceilDiv count 32

/-- R333: the done word of a collective. -/
def State.doneWord (s : State) (step status base : Nat) : List Byte :=
  leBytes 4 s.stamp.1 ++ leBytes 4 (s.stamp.2 + step * 256 + status * 65536) ++ leBytes 8 (base % 2 ^ 48)

/-- R359: open collectives of an engine. -/
def State.openCount (s : State) (e : Nat) : Nat :=
  (s.relay.colls.filter fun c => c.2.opened && !c.2.ended && s.cEngine c.1 == e).length

/-- R359: EDG_RLY_STATUS follows. -/
def State.rlyRefresh (s : State) (e : Nat) : State := s.setRegN (rlyAt e) (s.openCount e)

/-- R221, R336, R586: the check of a relay engine's access; a register address is refused (log 28). -/
def State.rlyCheck (s : State) (w : World) (a n : Nat) (read : Bool) : AccSt :=
  if (s.place a).isReg then .addrFault
  else if read then s.checkRead w a n else s.check w a n

/-- R333, R342: the collective ends: its done word, the counts; a done word that is refused is not written. -/
def State.collEnd (s : State) (i status : Nat) : State :=
  let e := s.cEngine i
  let c := s.coll i
  let base := if s.cKind i = 2 ∧ s.cPool i then c.base else s.cDst i
  let w := s.doneWord (if s.cKind i = 5 then c.step else 0xFF) status base
  let ok := s.rlyCheck (s.cWorld i) (s.cFlag i) 16 false == .ok
  let perm := s.cKind i == 6
  let s := if ok then s.arrive (s.cFlag i) w else s
  let s := (s.onColl i fun c => { c with ended := true }).count (rlyAt e + 0x24) 1
  let s := (s.setRegN (rlyAt e + 0xC) i).rlyRefresh e
  if perm then { s with relay := { s.relay with hrds := Tab.del s.relay.hrds 0xFFF } } else s

/-- R336: an access of a collective fails: LAND_REFUSED; in an attempt a void, else the IDLE collective ends
with the access's status. -/
def State.landRefused (s : State) (i a : Nat) (st : AccSt) : State :=
  let e := s.cEngine i
  let d := leBytes 8 i ++ leBytes 8 (a % 2 ^ 48)
  let s := s.raiseBits (rlyAt e + 8) 4
  let s := if st = .void then s.eccVoid (s.cWorld i) (rlySource e) a else s
  if s.cIdle i then (s.raise (s.edgeWorld e) 0x0214 1 (rlySource e) d).collEnd i st.code
  else s.ochre (s.edgeWorld e) 0x0214 2 (rlySource e) d

/-- R315, R336: a write for collective `i` in a world: that of the message that lands, else the engine's. -/
def State.rlyWrite (s : State) (w : World) (i a : Nat) (bs : List Byte) : State :=
  if bs.isEmpty ∨ (s.coll i).ended then s
  else match s.rlyCheck w a bs.length false with
    | .ok => (s.lateHome (rlySource (s.cEngine i)) a bs.length).arrive a bs
    | x => s.landRefused i a x

/-- R336: a read of a relay engine that `f` needs. -/
def State.rlyRead (s : State) (i a n : Nat) (f : List Byte → State → State) : State :=
  if (s.coll i).ended then s
  else if n = 0 then f [] s
  else match s.rlyCheck (s.cWorld i) a n true with
    | .ok => f (s.bytes a n) (s.readSeen a n)
    | x => s.landRefused i a x

/-- R334: payload bytes of an element, by DTYPE. -/
def elemBytes (dtype : Nat) : Nat :=
  match dtype with
  | 0 => 1
  | 1 => 2
  | _ => 4
/-- R334: largest COUNT of a payload, by DTYPE. -/
def maxCount (dtype : Nat) : Nat :=
  match dtype with
  | 0 => 176
  | 1 => 88
  | 4 => 44
  | 5 => 64
  | _ => 160

/-- R334: LEN of a fragment: 16 and the payload bytes in use by `count` elements, a block having 33 (log 29). -/
def fragLen (dtype count : Nat) : Nat :=
  match dtype with
  | 0 => 16 + count
  | 1 => 16 + 2 * count
  | 4 => 16 + 4 * count
  | 5 => 16 + 66 * (count / 32)
  | _ => 16 + 33 * (count / 32)

/-- R334: a fragment goes to rank `r`: header, payload, its LEN. -/
def State.sendFrag (s : State) (i r step dtype chunk elem count : Nat) (ready : Bool) (payload : List Byte) : State :=
  let e := s.cEngine i
  let data := leBytes 4 (i + step % 256 * 2 ^ 16 + dtype * 2 ^ 24 + b2n ready * 2 ^ 28) ++ leBytes 4 chunk
    ++ leBytes 4 elem ++ leBytes 4 (s.stamp.2 + count * 256 + s.stamp.1 % 65536 * 65536) ++ payload
  (s.sendRank (s.cGroup i) r { mtype := 7, sable := s.cWorld i == .sable
                               len := if ready then 16 else fragLen dtype count
                               srcId := rlySource e, data := data }).count64 (rlyAt e + 0x10) 1

/-- A block as scale code and element codes. -/
abbrev Blk := Nat × List Nat

/-- R334: payload of N8 blocks: the blocks, then from 0xB0 on their scale codes. -/
def blkPayload (l : List Blk) : List Byte :=
  fit 160 (l.flatMap fun b => packCodes 8 b.2) ++ l.map fun b => BitVec.ofNat 8 b.1

/-- R334: payload of q and h block pairs. -/
def pairPayload (l : List (Blk × Blk)) : List Byte :=
  fit 64 (l.flatMap fun p => packCodes 8 p.1.2) ++ fit 64 (l.flatMap fun p => packCodes 8 p.2.2)
    ++ fit 2 (l.map fun p => BitVec.ofNat 8 p.1.1) ++ l.map fun p => BitVec.ofNat 8 p.2.1

/-- R334: the N8 block `j` of a fragment's data area. -/
def fragBlk (d : List Byte) (j : Nat) : Blk := (fld d (0xB0 + j) 1, unpackCodes 8 (sub d (0x10 + 32 * j) 32))
/-- R334: the pair `j` of a fragment's data area. -/
def fragPair (d : List Byte) (j : Nat) : Blk × Blk :=
  ((fld d (0x90 + j) 1, unpackCodes 8 (sub d (0x10 + 32 * j) 32)),
   (fld d (0x92 + j) 1, unpackCodes 8 (sub d (0x50 + 32 * j) 32)))

/-- R337: dec of a block. -/
def decBlk (texp : Int) (b : Blk) : List Word := b.2.map fun c => (decodeF32 3 c b.1 texp).1

/-- R337: result(q, h). -/
def blkResult (texp : Int) (q h : Blk) : List Word :=
  let a := decBlk texp q
  let b := decBlk texp h
  (List.range 32).map fun j => fadd (a.getD j 0) (b.getD j 0)

/-- R337: quant(dec(q) + dec(g)) with the indicators raised. -/
def blkFold (texp : Int) (q g : Blk) : QBlock := quantiseBlock 3 texp none ((blkResult texp q g).map f32Val)

/-- R337: block `b` of chunk `k` of the gradient object at SRC, with the addresses that hold it. -/
def State.ownBlk (s : State) (i k b : Nat) : Blk :=
  s.vecBlock (s.cSrc i) 3 (s.cN i * s.cBlocks i) (k * s.cBlocks i + b)

/-- R336: the chunks that reach this rank from outside in a reduction, ascending. -/
def State.landChunks (s : State) (i : Nat) : List Nat :=
  let n := s.cN i
  let r := s.cR i
  (List.range n).filter fun k =>
    if s.cAlgo i = 0 then k != (r + n - 1) % n
    else r % s.cC i != (k % s.cC i + 1) % s.cC i || (r % s.cC i == k % s.cC i)

/-- R336: address of the landing slot of chunk `k`. -/
def State.landSlot (s : State) (i k : Nat) : Nat :=
  s.cAux i + chunkSize 3 (s.cCount i) * ((s.landChunks i).findIdx? (· == k)).getD 0

/-- R336: block `b` of chunk `k` in the landing area. -/
def State.landBlk (s : State) (i k b : Nat) : Blk := s.vecBlock (s.landSlot i k) 3 (s.cBlocks i) b

/-- R337: what happens to a block at this rank once its inputs are there: it goes to another rank (stage 0
row or ring, 1 column), or the pair is complete. -/
inductive RedAct where
  | send (rank : Nat) (b : Blk) (t : Trouble)
  | pair (q h : Blk) (t : Trouble)
  deriving DecidableEq, Repr

/-- R337: the indicators of a fold. -/
def RedAct.trouble (a : RedAct) : Trouble :=
  match a with
  | .send _ _ t => t
  | .pair _ _ t => t

/-- R334: this rank's position in the chain by which chunk `k` reaches rank `dst`: a reduction's chain begins behind the
holder, a distribution's or gather's (`spread`) at it. -/
def State.chainPos (s : State) (i k dst : Nat) (spread : Bool) : Nat :=
  let at_ := fun (x h n : Nat) => (x + 2 * n - h - b2n (!spread)) % n
  let n := s.cN i
  let r := s.cR i
  let cols := s.cC i
  if s.cAlgo i = 0 then at_ r k n
  else if dst / cols = r / cols then at_ (r % cols) (k % cols) cols
  else at_ (r / cols) (k / cols) (n / cols)

/-- R337: the step of block `b` of chunk `k`; none while an input is missing. -/
def State.redStep (s : State) (i k b : Nat) : Option RedAct :=
  let n := s.cN i
  let r := s.cR i
  let tx := s.sbTexp (s.cTensor i)
  let own := s.ownBlk i k b
  let c := s.coll i
  let landed := c.got.contains (0, k, b)
  if s.cAlgo i = 0 then
    let right := (r + 1) % n
    if r = (k + 1) % n ∧ r ≠ k then some (.send right own {})
    else if !landed then none
    else if r = k then some (.pair (s.landBlk i k b) own {})
    else
      let q := blkFold tx (s.landBlk i k b) own
      some (.send right (q.scale, q.codes) q.trouble)
  else
    let cols := s.cC i
    let rows := n / cols
    let row := r / cols
    let col := r % cols
    let hs := k / cols
    let hc := k % cols
    let right := row * cols + (col + 1) % cols
    let down := (row + 1) % rows * cols + col
    if col = (hc + 1) % cols ∧ col ≠ hc then some (.send right own {})
    else if !landed then none
    else
      let p := blkFold tx (s.landBlk i k b) own
      let pb : Blk := (p.scale, p.codes)
      if col ≠ hc then some (.send right pb p.trouble)
      else if row = (hs + 1) % rows ∧ row ≠ hs then some (.send down pb p.trouble)
      else match c.column.find? fun x => x.1 == k && x.2.1 == b with
        | none => none
        | some (_, _, qs, qc) =>
          if row = hs then some (.pair (qs, qc) pb p.trouble)
          else
            let q := blkFold tx (qs, qc) pb
            some (.send down (q.scale, q.codes) (p.trouble.or q.trouble))

/-- R339, R341: the ranks to which this rank passes chunk `k` of a distribution or gather. -/
def State.spread (s : State) (i k : Nat) : List Nat :=
  let n := s.cN i
  let r := s.cR i
  if s.cAlgo i = 0 then (if (r + 1) % n = k then [] else [(r + 1) % n])
  else
    let cols := s.cC i
    let rows := n / cols
    let row := r / cols
    let col := r % cols
    let right := row * cols + (col + 1) % cols
    let down := (row + 1) % rows * cols + col
    (if s.cAlgo i = 1 ∧ row = k / cols ∧ (col + 1) % cols ≠ k % cols then [right] else [])
      ++ (if (row + 1) % rows ≠ k / cols then [down] else [])

/-- R329, R339: where block `b` of chunk `k`'s sums go. -/
def State.sumAddr (s : State) (i k b : Nat) : Nat :=
  let pos := if s.cKind i = 1 then 0 else if s.cAlgo i = 2 then k / s.cC i else k
  s.shG (s.cShard i) + 4 * (pos * s.cCount i + 32 * b)

/-- R337: a quant that raises NANINF or BSCLAMP voids the attempt. -/
def State.redTrouble (s : State) (i k : Nat) (t : Trouble) : State :=
  if t.naninf || t.bsclamp then
    s.ochre s.job.world 0x0217 2 (rlySource (s.cEngine i))
      (leBytes 4 (s.cTensor i) ++ leBytes 4 k ++ leBytes 4 t.code)
  else s

/-- R339: the sums of pairs of a chunk are written, and the pairs are passed on. -/
def State.pairRun (s : State) (w : World) (i k b0 : Nat) (l : List (Blk × Blk)) : State :=
  let tx := s.sbTexp (s.cTensor i)
  let s := s.forAll (List.range l.length) fun j s =>
    let p := l.getD j ((0, []), (0, []))
    (s.rlyWrite w i (s.sumAddr i k (b0 + j)) ((blkResult tx p.1 p.2).flatMap fun x => leBytes 4 x.toNat)).onColl i
      fun c => { c with got := c.got ++ [(8, k, b0 + j)] }
  if s.cKind i = 3 then
    s.forAll (s.spread i k) fun r s =>
      s.forAll (List.range (ceilDiv l.length 2)) fun q s =>
        let part := (l.drop (2 * q)).take 2
        s.sendFrag i r (s.chainPos i k r true) 5 k (32 * (b0 + 2 * q)) (32 * part.length) false (pairPayload part)
  else s

/-- R336: the checked reads of a fold of `m` blocks: SRC, and the landing area where a partial has landed. -/
def State.redRead (s : State) (i k b0 m : Nat) (f : State → State) : State :=
  let nb := s.cBlocks i
  let g := k * nb + b0
  let src := s.cSrc i
  let slot := s.landSlot i k
  let n := if (s.coll i).got.contains (0, k, b0) then m else 0
  s.rlyRead i (src + 32 * g) (32 * m) fun _ s =>
  s.rlyRead i (scaleBase src 3 (s.cN i * nb) + g) m fun _ s =>
  s.rlyRead i (slot + 32 * b0) (32 * n) fun _ s =>
  s.rlyRead i (scaleBase slot 3 nb + b0) n fun _ s => f s

/-- R336, R337: `m` blocks whose inputs are there are folded and sent on, or complete the chunk's sums. -/
def State.redRun (s : State) (i k b0 m : Nat) : State :=
  s.redRead i k b0 m fun s =>
    let acts := (List.range m).filterMap fun j => s.redStep i k (b0 + j)
    let s := s.redTrouble i k (acts.foldl (fun t a => t.or a.trouble) {})
    match acts with
    | [] => s
    | .pair _ _ _ :: _ =>
      s.pairRun (s.cWorld i) i k b0 (acts.filterMap fun a => match a with
        | .pair q h _ => some (q, h)
        | .send _ _ _ => none)
    | .send r _ _ :: _ =>
      let bs := acts.filterMap fun a => match a with
        | .send _ b _ => some b
        | .pair _ _ _ => none
      let s := s.sendFrag i r (s.chainPos i k r false) 3 k (32 * b0) (32 * m) false (blkPayload bs)
      s.onColl i fun c => { c with got := c.got ++ (List.range m).map fun j => (9, k, b0 + j) }

/-- Runs of at most five neighbours in an ascending list: first and length. -/
def runs5 (l : List Nat) : List (Nat × Nat) :=
  (l.foldl (fun acc b => match acc with
    | (c, m) :: t => if b = c + m ∧ m < 5 then (c, m + 1) :: t else (b, 1) :: acc
    | [] => [(b, 1)]) []).reverse

/-- R337: a block whose inputs are there and that has not gone on yet. -/
def State.redReady (s : State) (i k b : Nat) : Bool :=
  let got := (s.coll i).got
  !got.contains (9, k, b) && !got.contains (8, k, b) && (s.redStep i k b).isSome

/-- R337: of `m` blocks of a chunk, those whose inputs are there go on, up to five to a fragment. -/
def State.redNow (s : State) (i k b0 m : Nat) : State :=
  (runs5 (((List.range m).map (b0 + ·)).filter (s.redReady i k))).foldl (fun s q => s.redRun i k q.1 q.2) s

/-- R337: every block that this rank can fold at the trigger. -/
def State.redOpen (s : State) (i : Nat) : State :=
  s.forAll (List.range (s.cN i)) fun k s => s.redNow i k 0 (s.cBlocks i)

/-- R341: elements of chunk data at `base` sent to a rank in fragments in ascending ELEM order. -/
def State.sendChunk (s : State) (i r step chunk base : Nat) : State :=
  let dt := s.cDtype i
  let n := s.cCount i
  let mx := maxCount dt
  s.forAll (List.range (ceilDiv n mx)) fun q s =>
    let m := min mx (n - q * mx)
    if dt = 2 ∨ dt = 3 then
      let nb := ceilDiv n 32
      let bl := (List.range (ceilDiv m 32)).map fun j => s.vecBlock base 3 nb (5 * q + j)
      s.rlyRead i (base + 160 * q) (32 * bl.length) fun _ s =>
      s.rlyRead i (scaleBase base 3 nb + 5 * q) bl.length fun _ s =>
        s.sendFrag i r step dt chunk (q * mx) (32 * bl.length) false (blkPayload bl)
    else
      s.rlyRead i (base + q * mx * elemBytes dt) (m * elemBytes dt) fun d s =>
        s.sendFrag i r step dt chunk (q * mx) m false d

/-- R341, R344: a payload lands in a chunk object at `base`. -/
def State.landData (s : State) (w : World) (i base elem count : Nat) (d : List Byte) : State :=
  let dt := s.cDtype i
  if dt = 2 ∨ dt = 3 then
    let nb := ceilDiv (s.cCount i) 32
    let m := count / 32
    (s.rlyWrite w i (base + elem) (sub d 0x10 (32 * m))).rlyWrite w i (scaleBase base 3 nb + elem / 32) (sub d 0xB0 m)
  else s.rlyWrite w i (base + elem * elemBytes dt) (sub d 0x10 (count * elemBytes dt))

/-- Elements landed so far under a stage and chunk. -/
def Coll.landed (c : Coll) (st k : Nat) : Nat := ((c.got.filter fun x => x.1 == st && x.2.1 == k).map (·.2.2)).sum

/-- R344, R345: the block of the next step goes out when the step before it has landed and its READY is here;
`n` bounds the steps. -/
def State.kvSend (i : Nat) : Nat → State → State
  | 0, s => s
  | n + 1, s =>
    let c := s.coll i
    let st := c.sentStep + 1
    if c.opened && !c.ended && decide (st < s.cN i) && decide (st ≤ c.step + 1)
        && (decide (st ≤ 2) || c.ready.contains st) then
      let sz := chunkSize (s.cDtype i) (s.cCount i)
      let base := if st = 1 then s.cSrc i else s.cDst i + (st - 1) % 2 * sz
      let s := s.sendChunk i ((s.cR i + 1) % s.cN i) st ((s.cR i + 2 * s.cN i - (st - 1)) % s.cN i) base
      State.kvSend i n (s.onColl i fun c => { c with sentStep := st })
    else s

/-- R344: after the last fragment of a step: the step has landed, the done word shows it. -/
def State.kvLanded (s : State) (i : Nat) : State :=
  let c := s.coll i
  let st := c.step + 1
  if c.landed 8 st = s.cPad i ∧ st < s.cN i then
    let s := s.onColl i fun c => { c with step := st }
    let s := if st + 1 = s.cN i then s else s.rlyWrite (s.cWorld i) i (s.cFlag i) (s.doneWord st 0 (s.cDst i))
    State.kvSend i 3 s
  else s

/-- R227, R342: the pool decides the request of a POOL gather: its grant, or the staging area. -/
def State.gatherBase (s : State) (i : Nat) : State :=
  let n := ceilDiv (s.cN i * chunkSize (s.cDtype i) (s.cCount i)) 65536
  match s.poolGrant 2 n nearFlags (some s.now) 0 0 0 with
  | (some e, t) => t.onColl i fun c => { c with ent := some e.id, base := 0x10000000000 + e.us.headD 0 * 65536 }
  | (none, t) => t.onColl i fun c => { c with base := s.cAux i }

/-- R342: a POOL gather whose request the pool has not decided. -/
def State.collWaits (s : State) (i : Nat) : Bool := s.pool.reqs.any fun r => r.client == 2 && r.key == i

/-- R341: a gather's payload lands in the result at `base`. -/
def State.gatherLand (s : State) (w : World) (i base : Nat) (d : List Byte) : State :=
  let k := fld d 4 4
  let count := fld d 0xD 1
  let s := s.landData w i (base + k * chunkSize (s.cDtype i) (s.cCount i)) (fld d 8 4) count d
  s.onColl i fun c => { c with got := c.got ++ [(8, k, count)] }

/-- R341: a gather's payload is passed on. -/
def State.gatherPass (s : State) (i : Nat) (d : List Byte) : State :=
  let k := fld d 4 4
  s.forAll (s.spread i k) fun r s =>
    s.sendFrag i r (s.chainPos i k r true) (s.cDtype i) k (fld d 8 4) (fld d 0xD 1) false (d.drop 16)

/-- R336, R341: a gather's fragment: it lands at once, but for a POOL gather whose place the pool has not given yet, and it
is passed on as soon as the gather is open (DESIGN CHOICE, log 158). -/
def State.gatherRx (s : State) (w : World) (i : Nat) (d : List Byte) : State :=
  let ready := (s.coll i).opened && !s.collWaits i
  let base := if s.cPool i then (s.coll i).base else s.cDst i
  let s := if s.cPool i && !ready then s else s.gatherLand w i base d
  if ready then s.gatherPass i d
  else s.onColl i fun c => { c with held := c.held ++ [(w == .sable, d)] }

/-- R346: an entry of a PERMUTE list: RANK, ADDR, STAGE_OFF, LEN. -/
def State.permEntry (s : State) (list q : Nat) : Nat × Nat × Nat × Nat :=
  let a := list + 16 + 32 * q
  (s.word a 2, s.word (a + 8) 6, s.word (a + 0x10) 6, s.word (a + 0x18) 6)

/-- R347: a piece of staging data arrives from a rank. -/
def State.stageRx (s : State) (w : World) (i r off : Nat) (bs : List Byte) : State :=
  (s.rlyWrite w i (s.cAux i + off) bs).onColl i fun c => { c with pieces := c.pieces ++ [(r, off, bs.length)] }

/-- R347, log 30: one outgoing piece; a fragment names the sender's rank and the staging offset. -/
def State.permSend (s : State) (i : Nat) (e : Nat × Nat × Nat × Nat) : State :=
  s.forAll (List.range (ceilDiv e.2.2.2 176)) fun q s =>
    let m := min 176 (e.2.2.2 - 176 * q)
    s.rlyRead i (e.2.1 + 176 * q) m fun d s =>
      if e.1 = s.cR i then s.stageRx (s.cWorld i) i e.1 (e.2.2.1 + 176 * q) d
      else s.sendFrag i e.1 0 0 (s.cR i) (e.2.2.1 + 176 * q) m false d

/-- R336, R346: `f` with the entries of a PERMUTE list, read under check. -/
def State.permList (s : State) (i list : Nat) (f : List (Nat × Nat × Nat × Nat) → State → State) : State :=
  s.rlyRead i list 16 fun _ s =>
    let n := s.word list 4
    s.rlyRead i (list + 16) (32 * n) fun _ s => f ((List.range n).map (s.permEntry list)) s

/-- R347: a stage of a PERMUTE that did not fail closes with the internal hurdle. -/
def State.permStage (s : State) (i st : Nat) : State :=
  if (s.coll i).ended then s else (s.onColl i fun c => { c with stage := st }).hrdArriveLocal 0xFFF

/-- R347: stage 1: every outgoing piece goes out; the first internal hurdle. -/
def State.permOpen (s : State) (i : Nat) : State :=
  s.permList i (s.cSrc i) fun l s => (l.foldl (fun s e => s.permSend i e) s).permStage i 1

/-- R347: the check before stage 2: every byte received lies in an incoming entry of its source rank, and the sums agree. -/
def permOk (inc : List (Nat × Nat × Nat × Nat)) (ps : List (Nat × Nat × Nat)) : Bool :=
  ps.all (fun p => inc.any fun e => e.1 == p.1 && decide (e.2.2.1 ≤ p.2.1 ∧ p.2.1 + p.2.2 ≤ e.2.2.1 + e.2.2.2))
    && ((ps.map fun p => p.2.2).sum == (inc.map fun e => e.2.2.2).sum)

/-- R347: a failed check ends the collective, with a status that the spec leaves open (log 7). -/
def State.permFault (s : State) (i : Nat) : State :=
  let e := s.cEngine i
  let f := ((s.raiseBits (rlyAt e + 8) 8).raise (s.edgeWorld e) 0x0208 1 (rlySource e) (leBytes 4 i)).freeWord
  f.2.collEnd i (f.1.toNat % 256)

/-- R347: stage 2 copies staging to its places; the second internal hurdle. -/
def State.permCopy (s : State) (i : Nat) : State :=
  s.permList i (s.cDst i) fun inc s =>
    if permOk inc (s.coll i).pieces then
      (inc.foldl (fun s e => s.rlyRead i (s.cAux i + e.2.2.1) e.2.2.2 fun d s =>
        s.rlyWrite (s.cWorld i) i e.2.1 d) s).permStage i 2
    else s.permFault i

/-- R341: a gather begins: its own chunk goes to BASE and on, then what came before it. -/
def State.gatherOpen (s : State) (i : Nat) : State :=
  let r := s.cR i
  let sz := chunkSize (s.cDtype i) (s.cCount i)
  let s := s.rlyRead i (s.cSrc i) sz fun d s => s.rlyWrite (s.cWorld i) i ((s.coll i).base + r * sz) d
  let s := s.onColl i fun c => { c with got := c.got ++ [(8, r, s.cPad i)] }
  let s := s.forAll (s.spread i r) fun q s => s.sendChunk i q (s.chainPos i r q true) r (s.cSrc i)
  let held := (s.coll i).held
  let s := s.onColl i fun c => { c with held := [] }
  held.foldl (fun s h =>
    let w : World := if h.1 then .sable else .ivory
    (if s.cPool i then s.gatherLand w i (s.coll i).base h.2 else s).gatherPass i h.2) s

/-- R227, R228: the pool controller decides one request, for its client. -/
def State.poolDecide (s : State) (r : PoolReq) : State :=
  let s := s.poolTakeReq r
  match r.client with
  | 0 => (s.pfDecide r.key).fillRefresh
  | 1 => s.stashDecide r.key
  | 2 => (s.gatherBase r.key).gatherOpen r.key
  | _ => s.scratchPin r.key r.us

/-- R215, R227: a waiting request asks for units that are pinned. -/
def State.reqPin (s : State) (r : PoolReq) : Bool :=
  r.client != 0 || bit (s.pfFlags (s.word (s.pfAddr r.key + 8) 6)) 3

/-- POOL_GRANT (R227, R228): the pool controller decides the request whose turn it is. The row names its client, its units
and whether they are pinned, and does nothing when another request comes first (log 4). -/
def execPoolGrant (cl n : Nat) (pin : Bool) (s : State) : Host.Outcome State Fault Refusal :=
  guarded (decide (cl < 4)) (match s.poolNext with
    | some r => if r.client = cl ∧ r.n = n ∧ s.reqPin r = pin then s.poolDecide r else s
    | none => s)

/-- R337, log 31: the element of the object at SRC of reduction `i` that stands for a whole-tensor element. -/
def State.gradIndex (s : State) (i e : Nat) : Option Nat :=
  let n := s.cN i
  let r := s.cR i
  let cnt := s.cCount i
  let first := s.shFirst (s.cShard i)
  let rows := n / s.cC i
  let base := if s.cKind i = 1 then first - r * cnt else if s.cAlgo i = 2 then first - r % s.cC i * rows * cnt else first
  let x := e - base
  let y := if s.cKind i ≠ 1 ∧ s.cAlgo i = 2 then (x / cnt % rows * s.cC i + x / (rows * cnt)) * cnt + x % cnt else x
  if base ≤ e ∧ y < n * cnt then some y else none

/-- R160: whole-tensor index of element (r, c) of tile `tile`; none beyond the tensor's edge. -/
def State.tileElem (s : State) (t tile r c : Nat) : Option Nat :=
  let rows := s.word (s.sbAddr t + 0x14) 4
  let cols := s.word (s.sbAddr t + 0x18) 8 % 2 ^ 42
  if rows = 0 then
    let e := 1024 * tile + 32 * r + c
    if e < cols then some e else none
  else
    let nb := ceilDiv cols 32
    let rr := 32 * (tile / nb) + r
    let cc := 32 * (tile % nb) + c
    if rr < rows ∧ cc < cols then some (rr * cols + cc) else none

/-- R184: one byte of a gradient object is written by the gradient path. -/
def State.gradByte (s : State) (a v : Nat) : State :=
  if !s.heat.voids.isEmpty then s
  else match s.check (s.edgeWorld 0) a 1 with
    | .ok => s.arrive a [BitVec.ofNat 8 v]
    | x => s.ochre s.job.world 0x0300 1 (blkSource 0x10) (leBytes 8 a ++ leBytes 4 x.code)

/-- R184: the N8e5 codes of one row of a tile go into the gradient object of every collective that reduces a shard of the
tensor. -/
def State.gradRow (s : State) (t tile r : Nat) (b : Blk) : State :=
  s.forAll ((List.range s.collCount).filter fun i => s.cReduce i && s.shTensor (s.cShard i) == t) fun i s =>
    s.forAll (List.range 32) fun c s =>
      match (s.tileElem t tile r c).bind (s.gradIndex i) with
      | none => s
      | some x =>
        (s.gradByte (s.cSrc i + x) (b.2.getD c 0)).gradByte
          (scaleBase (s.cSrc i) 3 (s.cN i * s.cBlocks i) + x / 32) b.1

/-- R160: tiles of a weight tensor. -/
def State.tileCount (s : State) (t : Nat) : Nat :=
  let rows := s.word (s.sbAddr t + 0x14) 4
  let cols := s.word (s.sbAddr t + 0x18) 8 % 2 ^ 42
  if rows = 0 then ceilDiv cols 1024 else ceilDiv rows 32 * ceilDiv cols 32

/-- R160: the home-list entries of a tensor. -/
def State.homesOf (s : State) (t : Nat) : List Nat := (List.range (s.jobF 0x24 4)).filter fun j => s.homeTensor j == t

/-- A block of zeros. -/
def zeroBlk : Blk := (0, List.replicate 32 0)

/-- R169, R184: the tiles of a tensor that have no home count as all +0. -/
def State.gradZero (s : State) (t : Nat) : State :=
  let have_ := (s.homesOf t).map s.homeTile
  s.forAll ((List.range (s.tileCount t)).filter fun x => !have_.contains x) fun x s =>
    s.forAll (List.range 32) fun r s => s.gradRow t x r zeroBlk

/-- R169: a tensor none of whose tiles has a home is all +0: its gradient is written as its reduction opens. -/
def State.gradNone (s : State) (t : Nat) : State := if (s.homesOf t).isEmpty then s.gradZero t else s

/-- R330, R332, R357: the trigger of collective `i` fires: it opens, or a 65th voids the attempt. -/
def State.collOpen (s : State) (i : Nat) : State :=
  let e := s.cEngine i
  if 64 ≤ s.openCount e then
    (s.raiseBits (rlyAt e + 8) 1).ochre (s.edgeWorld e) 0x0213 2 (rlySource e) (leBytes 4 (i + e * 4096))
  else
    let s := (s.onColl i fun c => { c with opened := true, base := s.cDst i }).rlyRefresh e
    let n := s.cN i
    let r := s.cR i
    let sum := resUnits (s.shG (s.cShard i)) (4 * s.shCount (s.cShard i))
    match s.cKind i with
    | 1 => ((s.gradNone (s.shTensor (s.cShard i))).poolAsk
        { client := 3, source := rlySource e, n := sum.length, us := sum, tick := 0 }).redOpen i
    | 3 => ((s.gradNone (s.shTensor (s.cShard i))).poolAsk
        { client := 3, source := rlySource e, n := sum.length, us := sum, tick := 0 }).redOpen i
    | 2 =>
      if s.cPool i then
        s.poolAsk { client := 2, source := rlySource e, n := ceilDiv (n * chunkSize (s.cDtype i) (s.cCount i)) 65536
                    key := i, tick := 0 }
      else s.gatherOpen i
    | 4 =>
      let cnt := s.cCount i
      let s := s.rlyRead i (s.cSrc i + r * cnt) cnt fun d s => s.rlyWrite (s.cWorld i) i (s.cDst i + r * cnt) d
      let s := s.onColl i fun c => { c with got := c.got ++ [(8, r, cnt)] }
      s.forAll ((List.range n).filter (· != r)) fun j s => s.sendChunk i j 0 r (s.cSrc i + j * cnt)
    | 5 => State.kvSend i 3 s
    | _ => s.permOpen i

/-- R187, R184: the homes of a gradient's weight tensor have all been read. -/
def State.homesDone (s : State) (t : Nat) : Bool :=
  (List.range (s.jobF 0x24 4)).all fun j => s.homeTensor j != t || s.gates.homesRead.contains j

/-- R330: the trigger condition of a collective holds. -/
def State.trigReady (s : State) (i : Nat) : Bool :=
  match s.cTrigger i with
  | 1 => s.pool.mark0.any fun m => decide (s.cLayer i ≤ m)
  | 2 => s.pool.mark1.any fun m => decide (s.cLayer i ≤ m)
  | 3 => (Tab.get s.gates.closed (s.shGate (s.cShard i)) []).length == s.laps
      && s.homesDone (s.shTensor (s.cShard i))
  | _ => false

/-- COLLECTIVE_TRIGGER (R330, R332): a mark or gate trigger fires, once per attempt; in RUN only (R503). -/
def execCollectiveTrigger (i : Nat) (s : State) : Host.Outcome State Fault Refusal :=
  .next (if s.heat.running && s.heat.voids.isEmpty && !s.heat.held && decide (i < s.collCount)
      && !(s.coll i).opened && s.regN pwrAt % 8 == 0 && s.trigReady i then s.collOpen i else s)

/-- R333, R337, R341: every input has landed and everything has been passed on. -/
def State.collComplete (s : State) (i : Nat) : Bool :=
  let c := s.coll i
  let n := s.cN i
  let r := s.cR i
  let nb := s.cBlocks i
  let all8 := fun k => (List.range nb).all fun b => c.got.contains (8, k, b)
  match s.cKind i with
  | 1 => (List.range n).all fun k => if k = r then all8 k else (List.range nb).all fun b => c.got.contains (9, k, b)
  | 3 => ((List.range n).all fun k => k == r || (List.range nb).all fun b => c.got.contains (9, k, b))
      && (List.range n).all fun k => (s.cAlgo i == 2 && k % s.cC i != r % s.cC i) || all8 k
  | 5 => c.step + 1 == n && c.sentStep + 1 == n
  | 6 => c.stage == 2 && decide (2 ≤ (s.hrd 0xFFF).epoch)
  | _ => (List.range n).all fun k => c.landed 8 k == s.cPad i

/-- R32, R340: every shard's gradient is present and every amax reduction is complete. -/
def State.rsReady (s : State) : Bool :=
  (List.range s.shardCount).all (fun i => s.freezeClass (s.shTensor i) == 1 || s.sweep.present.contains i)
    && (List.range (s.jobF 0x20 3)).all fun t =>
      s.word (s.sbAddr t + 0xA) 2 == 0 || s.sweep.amaxDone.contains (s.word (s.sbAddr t + 0xA) 2)

/-- R32, R348: the reduce-scatter phase ends once. -/
def State.rsCheck (s : State) : State :=
  if s.heat.running && !s.heat.rsDone && s.heat.bwdDone && s.rsReady then
    (({ s with heat := { s.heat with rsDone := true } }).progress).phaseEnd 2
  else s

/-- COLLECTIVE_END (R333, R339, R347): a collective whose work is complete ends, or a PERMUTE goes on to its
second stage. A reduction makes its shard's gradient present. -/
def execCollectiveEnd (i : Nat) (s : State) : Host.Outcome State Fault Refusal :=
  let c := s.coll i
  let live := s.cIdle i || (s.heat.running && s.heat.voids.isEmpty)
  .next (if !(c.opened && !c.ended && live) then s
    else if s.cKind i = 6 ∧ c.stage = 1 then (if 1 ≤ (s.hrd 0xFFF).epoch then s.permCopy i else s)
    else if !s.collComplete i then s
    else if s.rlyCheck (s.cWorld i) (s.cFlag i) 16 false != .ok then
      s.landRefused i (s.cFlag i) (s.rlyCheck (s.cWorld i) (s.cFlag i) 16 false)
    else
      let sum := s.cReduce i
      let sh := s.cShard i
      let s := s.collEnd i 0
      if sum then
        (({ s with sweep := { s.sweep with present := s.sweep.present ++ [sh] } }).progress).rsCheck
      else s)

/-- R360: a KICK that names no collective that it may start: BAD_KICK. -/
def State.badKick (s : State) (e : Nat) (v : Word) : State :=
  (s.raiseBits (rlyAt e + 8) 2).regIgnored (s.relayWorld e) (rlyAt e + 4) v

/-- R330: a KICK may run a collective again: one that has ended and starts by a KICK begins anew with the KICK or with
the first fragment of its next run (DESIGN CHOICE, log 153). -/
def State.freshColl (s : State) (i : Nat) : State :=
  if (s.coll i).ended ∧ (s.cTrigger i = 0 ∨ s.cTrigger i = 4) then s.onColl i fun _ => {} else s

/-- R330, R345, R360: a write to EDG_RLY_KICK. -/
def State.rlyKick (s : State) (e : Nat) (v : Word) : State :=
  let i := bits v.toNat 9 0
  let st := bits v.toNat 23 16
  let c := s.coll i
  if !s.job.loaded || decide (s.collCount ≤ i) || s.cEngine i != e then s.badKick e v
  else if bit v.toNat 24 then
    if s.cKind i = 5 ∧ c.opened ∧ ¬ c.ended then
      if st + 2 < s.cN i then
        s.sendFrag i ((s.cR i + s.cN i - 1) % s.cN i) (st + 2) (s.cDtype i) 0 0 0 true []
      else s
    else s.badKick e v
  else if s.cTrigger i = 4 then
    if s.heat.active then s.collEnd i 7
    else if c.opened ∧ ¬ c.ended then s.badKick e v
    else (s.freshColl i).collOpen i
  else if s.cTrigger i ≠ 0 ∨ (c.opened ∧ ¬ c.ended) then s.badKick e v
  else if s.heat.running ∧ ¬ s.heat.held then (s.freshColl i).collOpen i
  else s

/-- EDG_RLY_KICK (R330). -/
def execEdgRlyKick (e : Nat) (v : Word) (s : State) : Host.Outcome State Fault Refusal :=
  guarded (decide (e < 4)) (s.rlyKick e v)

/-- EDG_RLY_RELEASE (R345): a KICK with RELEASE set. -/
def execEdgRlyRelease (e : Nat) (v : Word) (s : State) : Host.Outcome State Fault Refusal :=
  guarded (decide (e < 4)) (s.rlyKick e (v ||| 0x1000000))

/-- R588: the fragment is malformed for its collective. -/
def State.fragBad (s : State) (i len : Nat) (d : List Byte) : Bool :=
  let w := fld d 0 4
  let dt := bits w 27 24
  let ready := bit w 28
  let count := fld d 0xD 1
  let kind := s.cKind i
  let chunk := fld d 4 4
  let elem := fld d 8 4
  let step := bits w 23 16
  let dtOk := dt == s.cDtype i || (kind == 3 && dt == 5)
  !dtOk || (ready && (kind != 5 || count != 0))
    || (kind == 5 && !ready && !decide (1 ≤ step ∧ step < s.cN i))
    || decide (s.cN i ≤ chunk)
    || ((dt == 2 || dt == 3 || dt == 5) && !ready && (elem % 32 != 0 || count % 32 != 0))
    || (!ready && (count == 0 || decide (maxCount dt < count)
        || (kind != 6 && decide (s.cPad i < elem + count))))
    || len != (if ready then 16 else fragLen dt count)

/-- R185: the shard of a reduction has begun its sweep. -/
def State.shardBegun (s : State) (i : Nat) : Bool :=
  let sh := s.cShard i
  let u := s.unit (s.shUnit sh)
  s.cReduce i && (u.cur == some sh || u.finished.contains sh)

/-- R336, R337: a fragment of a reduction lands: a pair of the distribution, a partial of the column, kept beside the slot
that the row's partial fills (DESIGN CHOICE, log 151), or a partial in its landing slot. -/
def State.redLand (s : State) (w : World) (i srcNode : Nat) (d : List Byte) : State :=
  let k := fld d 4 4
  let b0 := fld d 8 4 / 32
  let m := fld d 0xD 1 / 32
  if bits (fld d 0 4) 27 24 = 5 then s.pairRun w i k b0 ((List.range m).map fun j => fragPair d j)
  else
    let r := s.cR i
    let up := rNode (s.rankEntry (s.cGroup i) ((r + s.cN i - s.cC i) % s.cN i))
    let s := if s.cAlgo i ≠ 0 ∧ r % s.cC i = k % s.cC i ∧ srcNode = up then
        s.onColl i fun c => { c with column := c.column ++ (List.range m).map fun j =>
          let b := fragBlk d j
          (k, b0 + j, b.1, b.2) }
      else
        let slot := s.landSlot i k
        let s := s.rlyWrite w i (slot + 32 * b0) (sub d 0x10 (32 * m))
        let s := s.rlyWrite w i (scaleBase slot 3 (s.cBlocks i) + b0) (sub d 0xB0 m)
        s.onColl i fun c => { c with got := c.got ++ (List.range m).map fun j => (0, k, b0 + j) }
    if (s.coll i).opened then s.redNow i k b0 m else s

/-- R344, R345: a fragment of a KV_RING: READY, or the payload of a step. -/
def State.kvRx (s : State) (w : World) (i : Nat) (d : List Byte) : State :=
  let st := bits (fld d 0 4) 23 16
  let count := fld d 0xD 1
  if bit (fld d 0 4) 28 then State.kvSend i 3 (s.onColl i fun c => { c with ready := c.ready ++ [st] })
  else
    let sz := chunkSize (s.cDtype i) (s.cCount i)
    let s := s.landData w i (s.cDst i + st % 2 * sz) (fld d 8 4) count d
    (s.onColl i fun c => { c with got := c.got ++ [(8, st, count)] }).kvLanded i

/-- R315, R336: a well-formed fragment lands, its writes checked with the message's world. -/
def State.fragLand (s : State) (w : World) (i srcNode : Nat) (d : List Byte) : State :=
  let k := fld d 4 4
  let elem := fld d 8 4
  let count := fld d 0xD 1
  match s.cKind i with
  | 2 => s.gatherRx w i d
  | 4 =>
    (s.rlyWrite w i (s.cDst i + k * s.cCount i + elem) (sub d 0x10 count)).onColl i
      fun c => { c with got := c.got ++ [(8, k, count)] }
  | 5 => s.kvRx w i d
  | 6 => s.stageRx w i k elem (sub d 0x10 count)
  | _ => s.redLand w i srcNode d

/-- R335, R336, R588, R185: a received fragment: stale, malformed, late, or landed. -/
def State.fragRx (s : State) (m : Msg) : State :=
  let d := m.data
  let i := fld d 0 2
  let e := s.cEngine i
  let st := s.stamp
  let named := s.job.loaded && decide (i < s.collCount)
  let fresh := fld d 0xE 2 == st.1 % 65536 && fld d 0xC 1 == st.2
    && (s.cIdle i == !s.heat.running) && (s.heat.running || !s.heat.active)
  if !(named && fresh && s.heat.voids.isEmpty) then s.count (rlyAt (if named then e else 0) + 0x20) 1
  else if s.fragBad i m.len d then
    let s := s.raiseBits (rlyAt e + 8) 0x10
    let det := leBytes 4 (i + e * 2 ^ 16) ++ leBytes 4 m.src ++ leBytes 4 (fld d 4 4)
    if s.cIdle i then (s.raise (s.edgeWorld e) 0x021B 1 (rlySource e) det).collEnd i 7
    else s.ochre (s.edgeWorld e) 0x021B 2 (rlySource e) det
  else if s.shardBegun i then s.lateLap (rlySource e) (s.cShard i) 0
  else ((s.freshColl i).fragLand (if m.sable then .sable else .ivory) i m.src d).count64 (rlyAt e + 0x18) 1

/-- R548, R342: collectives of the attempt end with no done word; their grants are released. -/
def State.relayVoid (s : State) : State :=
  let s := s.poolDrop fun e => e.client != 2
  let s := { s with relay := { s.relay with colls := s.relay.colls.filter fun c => s.cIdle c.1 } }
  s.forAll (List.range 4) fun e s => s.rlyRefresh e

/-- R340: what this device gives a maximum reduction: group, the rank to its right on the ring of the group's table, and
AMAX_CUR of every entry of the group as F32. R340 gives these values no message form: they stand in State (DESIGN CHOICE,
log 152). -/
def State.amaxOwn (s : State) (g : Nat) : Nat × Nat × List (Nat × Nat) :=
  (g, (s.self g + 1) % s.ranks g, ((List.range (s.jobF 0x20 3)).filter fun t => s.word (s.sbAddr t + 0xA) 2 == g).map
    fun t => (t, s.word (s.sbAddr t + 0x10) 4))

/-- R340: one maximum reduction over a SHARE_GROUP: the device's AMAX_CUR goes out, and each entry's rises to the peers'
largest. -/
def State.amaxReduce (s : State) (g : Nat) (peers : List (Nat × Word)) : State :=
  let s := { s with sweep := { s.sweep with amaxOut := s.sweep.amaxOut ++ [s.amaxOwn g] } }
  let s := peers.foldl (fun s p =>
    if p.1 < s.jobF 0x20 3 ∧ s.word (s.sbAddr p.1 + 0xA) 2 = g then s.sbAmax p.1 [f32Val p.2] else s) s
  ({ s with sweep := { s.sweep with amaxDone := s.sweep.amaxDone ++ [g] } }).rsCheck

/-- AMAX_REDUCTION (R340): `peers` holds (entry, AMAX_CUR) of the other devices of the group. -/
def execAmaxReduction (g : Nat) (peers : List (Nat × Word)) (s : State) : Host.Outcome State Fault Refusal :=
  .next (if s.heat.running && s.heat.voids.isEmpty && g != 0 && !s.sweep.amaxDone.contains g
      && (List.range (s.jobF 0x24 4)).all s.gates.homesRead.contains && s.heat.bwdDone then
    s.amaxReduce g peers else s)

/-- R160, R169: the 32 × 32 values of home `i`, frozen elements and those beyond the tensor's edge as +0. -/
def State.homeRows (s : State) (i : Nat) : List (List FVal) :=
  let t := s.homeTensor i
  (List.range 32).map fun r => (List.range 32).map fun c =>
    match s.tileElem t (s.homeTile i) r c with
    | some e => if s.frozen t e then .fin false 0 0
        else f32Val (BitVec.ofNat 32 (s.word (s.homeAddr i + 4 * (32 * r + c)) 4))
    | none => .fin false 0 0

/-- R184: a GRAD_TROUBLE event's detail. -/
def gradDetail (t tile code : Nat) : List Byte := leBytes 4 (t + 1) ++ leBytes 4 tile ++ leBytes 4 code

/-- R184: row `r` of a tile raised TAMAX: counted on the unit that owns the shard of the row, and logged. -/
def State.gradTamax (s : State) (t tile r : Nat) : State :=
  let e := ((List.range 32).findSome? fun c => s.tileElem t tile r c).getD 0
  (s.count (swpAt (s.shUnit (s.shardOfElem t e)) + 0x2C) 1).raise s.job.world 0x0217 1 (blkSource 0x10) (gradDetail t tile 4)

/-- R184: the rows of a home that has been read are converted and written. -/
def State.homeTake (s : State) (i : Nat) : State :=
  let t := s.homeTensor i
  let tile := s.homeTile i
  let rows := s.homeRows i
  let qs := rows.map fun xs => quantiseBlock 3 (s.sbTexp (t + 1)) (some (s.sbHead (t + 1))) xs
  let tr : Trouble := qs.foldl (fun (x : Trouble) q => x.or q.trouble) {}
  let s := s.sbAmax (t + 1) rows.flatten
  let s := s.forAll (List.range 32) fun r s => if (qs.map (·.trouble.tamax)).getD r false then s.gradTamax t tile r else s
  if tr.stops then
    s.ochre s.job.world 0x0217 2 (blkSource 0x10) (gradDetail t tile (8 * b2n tr.naninf + 2 * b2n tr.bsclamp))
  else
    let s := s.forAll (List.range 32) fun r s =>
      let q := qs.getD r { scale := 0, codes := [], trouble := {} }
      s.gradRow t tile r (q.scale, q.codes)
    let s := { s with gates := { s.gates with homesRead := s.gates.homesRead ++ [i] } }
    if s.homesDone t then (s.gradZero t).progress else s

/-- R184: the gradient path reads home `i`, converts it and writes it. -/
def State.homeRead (s : State) (i : Nat) : State :=
  let a := s.homeAddr i
  let t := s.homeTensor i
  let src := blkSource 0x10
  let s := (s.raiseBits (gateAt + 0xC) 2)
  match s.checkRead (s.edgeWorld 0) a 4096 with
  | .void => s.eccVoid s.job.world src a
  | .ok =>
    if !s.sbOk (t + 1) then s.ochre s.job.world 0x0217 2 src (gradDetail t (s.homeTile i) 0)
    else (s.readSeen a 4096).homeTake i
  | x => s.ochre s.job.world 0x0300 1 src (leBytes 8 a ++ leBytes 4 x.code)

/-- GRADIENT_PATH_HOME_READ (R184): after the BWD phase has ended, each home once. -/
def execGradientPathHomeRead (i : Nat) (s : State) : Host.Outcome State Fault Refusal :=
  .next (if s.heat.running && s.heat.voids.isEmpty && s.heat.bwdDone && decide (i < s.jobF 0x24 4)
      && !s.gates.homesRead.contains i then s.homeRead i else s)

end Sys2Proof.Machine
end

