-- ==== Sys2Proof/Machine/Done.lean ====
section
/-!
DEFINITION. The ends of deferred commands (R390 to R393), the tray done ring (R392), the In-Band Interrupts of
the sideband (R582), and the tick of an idle step.
-/
namespace Sys2Proof.Machine

/-- R582: an In-Band Interrupt with data byte `b` may leave now: enabled, addressed, outside its holdoff. -/
def State.ibiOpen (s : State) (b : Nat) : Bool :=
  let gap := fun (t : Option DWord) => t.all fun t => decide (s.regN 0x28 % 2 ^ 16 ≤ (s.now - t).toNat)
  s.i3c.ibi && s.i3c.dyn.isSome && !s.pins.perst &&
    (match b with
      | 1 => gap s.i3c.last1
      | 3 => gap s.i3c.last3
      | _ => true)

/-- R582: the data byte leaves. -/
def State.ibiSend (s : State) (b : Nat) : State :=
  { s with i3c := { s.i3c with
      due := s.i3c.due.filter (· != b)
      sent := s.i3c.sent ++ [b]
      last1 := if b = 1 then some s.now else s.i3c.last1
      last3 := if b = 3 then some s.now else s.i3c.last3 } }

/-- R582: what is due leaves: 0x02, then 0x03, then 0x01. -/
def State.ibiFlush (s : State) : State :=
  if s.i3c.due.isEmpty then s
  else s.forAll [2, 3, 1] fun b s => if s.i3c.due.contains b && s.ibiOpen b then s.ibiSend b else s

/-- R582: an In-Band Interrupt is raised. -/
def State.ibi (s : State) (b : Nat) : State :=
  ({ s with i3c := { s.i3c with
      due := if s.i3c.due.contains b then s.i3c.due else s.i3c.due ++ [b] } }).ibiFlush

/-- One T-tick passes (log 3): a memory cell may be upset (log 147); the timebase slews (R301); ports in training send
(R304); an In-Band Interrupt whose holdoff ends leaves (R582). -/
def State.tick (s : State) : State := ({ s with now := s.now + 1 }).upset.slewTick.trainTick.ibiFlush

/-- R392: where the tray done ring lies in hub SRAM. -/
def trayRing : Nat := 0x1220000

/-- R392: an entry of the tray done ring is written, or waits for space. -/
def State.trayPut (s : State) (e : List Byte) : State :=
  if s.hub.trayTail - s.hub.trayHead < 16 ∧ s.hub.trayWait.isEmpty then
    ({ s with
      hubMem := Memory.writeN s.hubMem (trayRing + 16 * (s.hub.trayTail % 16)) e
      hub := { s.hub with trayTail := s.hub.trayTail + 1 } }).ibi 3
  else { s with hub := { s.hub with trayWait := s.hub.trayWait ++ [e] } }

/-- R392: waiting entries are written as space frees; `n` bounds the moves. -/
def State.trayDrain : Nat → State → State
  | 0, s => s
  | n + 1, s =>
    match s.hub.trayWait with
    | [] => s
    | e :: t =>
      if s.hub.trayTail - s.hub.trayHead < 16 then
        State.trayDrain n (({ s with
          hubMem := Memory.writeN s.hubMem (trayRing + 16 * (s.hub.trayTail % 16)) e
          hub := { s.hub with trayTail := s.hub.trayTail + 1, trayWait := t } }).ibi 3)
      else s

/-- R378: the world of a mailbox (the tray's requests belong to Ivory). -/
def mbxWorld (m : Nat) : World := if m = 8 ∨ m = 9 then .sable else .ivory

/-- R382: DEFER of a mailbox follows its pending deferred commands. -/
def State.deferRefresh (s : State) (m : Nat) : State :=
  s.putField (mbxAt m + 0x10) 1 1 (b2n (s.hub.deferred.any fun d => d.boxes.contains m))

/-- R412: STATUS values whose CMD_DONE carries the detail of R388. -/
def withDetail (st : Nat) : Bool := st == 5 || st == 6 || st == 7 || st == 9

/-- R390, R392, R412: the CMD_DONE of a deferred command, whose record leaves the list. -/
def State.cmdDone (s : State) (d : Deferred) (st : Nat) (detail : List Byte) : State :=
  let s := { s with hub := { s.hub with deferred := s.hub.deferred.filter fun x => !(x.mbx == d.mbx && x.pos == d.pos) } }
  let s := s.raise (mbxWorld d.mbx) 0x0001 0 s.hubSource
    (leBytes 4 (d.mbx + d.op * 2 ^ 16) ++ leBytes 4 d.tag ++ leBytes 4 (st + d.merged * 256) ++ leBytes 4 d.firstTag
      ++ (if withDetail st then fit 16 detail else []))
  let s := if d.boxes.contains 10 then
      s.trayPut (leBytes 2 d.op ++ leBytes 1 st ++ leBytes 1 d.merged ++ leBytes 4 d.tag ++ leBytes 4 d.firstTag
        ++ leBytes 4 s.now.toNat)
    else s
  s.forAll d.boxes fun m s => s.deferRefresh m

/-- R390: every begun deferred command of an opcode ends with a status. -/
def State.doneOf (s : State) (op st : Nat) : State :=
  (s.hub.deferred.filter fun d => d.begun && d.op == op).foldl (fun s d => s.cmdDone d st []) s

/-- R393: entry into the safe state ends every pending deferred command with ABORTED. -/
def State.abortDeferred (s : State) : State :=
  s.hub.deferred.foldl (fun s d => s.cmdDone d 0x10 []) s

end Sys2Proof.Machine
end

