-- ==== Sys2Proof/Machine/Twin.lean ====
section
/-!
DEFINITION. Twins (R552 to R571): twin-link slots, pairing, the baton map, digest comparison and its
resolution, pulls, the baton stream.
-/
namespace Sys2Proof.Machine

/-- The twin's state changed. -/
def State.onTwin (s : State) (f : Twin → Twin) : State := { s with twin := f s.twin }

/-- R552: this device's feed tag: that of TRAY_IDENT, else OWN_FEED. -/
def State.ownFeed (s : State) : Nat := (s.twin.tray.map (·.1)).getD s.twin.ownFeed
/-- R552: this device's tray ID; 0 before the first TRAY_IDENT. -/
def State.ownTray (s : State) : Nat := (s.twin.tray.map (·.2)).getD 0
/-- R552: the device pairs with TWIN_NODE. -/
def Twin.pairs (t : Twin) : Bool := t.given && t.paired

/-- R553: a twin-link slot. -/
def State.twinSlot (s : State) (op tag : Nat) (payload : List Byte) : List Byte :=
  leBytes 4 (op + 2 ^ 16 + Config.fwMinor.toNat * 2 ^ 20) ++ leBytes 4 tag
    ++ leBytes 4 (b2n (s.job.world == .sable)) ++ leBytes 4 32 ++ List.replicate 16 0 ++ fit 32 payload

/-- R553: a slot goes to a node by the lowest-indexed group that holds it; none is sent without a route. -/
def State.twinSend (s : State) (node op : Nat) (payload : List Byte) : State :=
  if (s.routeTo node).isNone then s
  else
    let tag := (s.twin.tag + 1) % 2 ^ 32
    (s.onTwin fun t => { t with tag := tag }).sendNode node 0
      { mtype := 9, sable := s.job.world == .sable, len := 64, mtag := tag, srcId := s.hubSource
        data := s.twinSlot op tag payload }

/-- R553, R554: TWIN_HELLO. -/
def State.sendHello (s : State) (node answer : Nat) : State :=
  s.twinSend node 0x780 (leBytes 4 s.ownFeed ++ leBytes 2 s.ownTray ++ leBytes 2 s.node ++ leBytes 4 s.lastHeat
    ++ leBytes 4 answer)

/-- R296, R554: after JOB_LOAD, JOB_REPLACE and TRAY_IDENT: a hello, when a route to the twin exists and none to it is
outstanding. -/
def State.helloStart (s : State) : State :=
  if s.twin.pairs && (s.routeTo s.twin.node).isSome && s.twin.helloAt.isNone then
    (s.sendHello s.twin.node 0).onTwin fun t => { t with helloAt := some s.now }
  else s

/-- R554: PAIRING; each change raises PAIRING_CHANGE. -/
def State.setPairing (s : State) (n : Nat) : State :=
  if s.twin.pairing = n then s
  else (s.onTwin fun t => { t with pairing := n }).raiseJob 0x0701 0 s.hubSource
    (leBytes 4 (n + s.twin.node * 2 ^ 16))

/-- R554: a start-list value that differs from the reported one. -/
def State.feedCheck (s : State) (which want got : Nat) : State :=
  if want = 0 ∨ want = got then s
  else s.raiseJob 0x0702 1 s.hubSource (leBytes 4 which ++ leBytes 4 want ++ leBytes 4 got)

/-- R554: a TWIN_HELLO arrives: the answer, the comparison, PAIRING. A feed tag of 0, and a tray ID of a
device that has had no TRAY_IDENT, is not reported (log 32). -/
def State.helloRx (s : State) (src : Nat) (p : List Byte) : State :=
  let feed := fld p 0 4
  let tray := fld p 4 2
  let node := fld p 6 2
  let s := if bit (fld p 0xC 4) 0 then s else s.sendHello src 1
  let s := s.onTwin fun t => { t with peer := some (feed, tray), helloAt := none }
  let s := match s.twin.tray with
    | some (f, _) => s.feedCheck 0 s.twin.ownFeed f
    | none => s
  let s := (s.feedCheck 1 s.twin.twinFeed feed).feedCheck 2 s.twin.twinTray tray
  if !s.twin.pairs then s.setPairing 0
  else if node ≠ s.twin.node then s.setPairing 3
  else if s.twin.tray.isSome ∧ s.ownTray = tray then
    (s.setPairing 0).raiseJob 0x0703 1 s.hubSource (leBytes 4 tray)
  else if s.ownFeed ≠ 0 ∧ s.ownFeed = feed then s.setPairing 2
  else s.setPairing 1

/-- TWIN_HELLO_TIMEOUT (R554): 10 ms without an exchange. -/
def execTwinHelloTimeout (s : State) : Host.Outcome State Fault Refusal :=
  .next (match s.twin.helloAt with
    | some t => if 1000000 ≤ (s.now - t).toNat then
        (s.onTwin fun x => { x with helloAt := none }).setPairing 3 else s
    | none => s)

/-- R556: the baton index that keeps the twin's shard. -/
def State.batonOf (s : State) (shard : Nat) : Option Nat :=
  ((List.range s.job.batonCount).map (· + s.shardCount)).find? fun i => s.shG i % 65536 == shard

/-- R555, R560: the job has a shard with TWIN set or a baton map. -/
def State.twinJob (s : State) : Bool :=
  s.job.loaded && (decide (0 < s.job.batonCount) || (List.range s.shardCount).any s.shTwin)

/-- R561: the reducing collective of a shard. -/
def State.shardColl (s : State) (i : Nat) : Option Nat :=
  (List.range s.collCount).find? fun c => s.cReduce c && s.cShard c == i

/-- R561: the nodes with which a digest of index `i` is compared. -/
def State.partners (s : State) (i : Nat) : List Nat :=
  if i < s.shardCount then
    let reps := match s.shardColl i with
      | none => []
      | some c =>
        if s.cKind c ≠ 3 then []
        else ((List.range (s.cN c)).filter fun q => q != s.cR c &&
            (s.cAlgo c != 2 || q % s.cC c == s.cR c % s.cC c)).map fun q => rNode (s.rankEntry (s.cGroup c) q)
    (reps ++ if s.shTwin i then [s.twin.node] else []).eraseDups
  else if i < s.idxCount then [s.twin.node]
  else if s.twin.pairing = 1 ∨ s.twin.pairing = 2 then [s.twin.node]
  else []

/-- R562: TENSOR of an index; 0xFF_FFFF names the scale-book group. -/
def State.digTensor (s : State) (i : Nat) : Nat := if i = s.idxCount then 0xFFFFFF else s.shTensor i
/-- R562: FIRST of an index. -/
def State.digFirst (s : State) (i : Nat) : Nat := if i = s.idxCount then 0 else s.shFirst i

/-- R562: the index that a tensor and FIRST name. -/
def State.digIndex (s : State) (tensor first : Nat) : Option Nat :=
  (List.range (s.idxCount + 1)).find? fun i => s.digTensor i == tensor && s.digFirst i == first

/-- R205: the blocks of a group. -/
def State.groupBlocks (s : State) (i g : Nat) : List Nat :=
  (List.range (min 16384 (s.shBlocks i - 16384 * g))).map (· + 16384 * g)

/-- R207, R566: the entries of the scale-book group: those with a slot of the attempt, or all of them for the
state of the last commit (log 33). -/
def State.bookTs (s : State) (attempt : Nat) : List Nat :=
  if attempt = 0xFF then List.range (s.jobF 0x20 3)
  else ((List.range (s.undoHead 0)).map fun n => s.undoBase 0 + 192 * n).filterMap fun a =>
    if bits (s.word (a + 0xC) 4) 9 8 = 2 then some (s.word (a + 4) 4) else none

/-- R205, R566: the image of a group. -/
def State.groupImage (s : State) (i g attempt : Nat) : List Byte :=
  if i = s.idxCount then (s.bookTs attempt).flatMap fun t => s.bytes (s.sbAddr t) 128
  else if g = 0xFFFF then s.bytes (s.shV i) (4 * (s.shRows i + s.shCols i))
  else (s.groupBlocks i g).flatMap fun k => s.blockDigestBytes i k

/-- R205, R567: the block of an image is copied into its objects. -/
def State.blockFrom (s : State) (i k : Nat) (b : List Byte) : State :=
  let nb := s.shBlocks i
  let put := fun (r : State × Nat) (use : Bool) (base f : Nat) =>
    if use then (((r.1.arrive (base + k * blockBytes f) (sub b r.2 32)).arrive (scaleBase base f nb + k)
      (sub b (r.2 + 32) 1)), r.2 + 33) else r
  let s := s.arrive (s.shW i + 64 * k) (sub b 0 64)
  let r := put (s, 64) (s.shUsesM i) (s.shM i) 2
  let r := put r (s.shUsesV i) (s.shV i) 3
  (put r true (s.shE i) 3).1

/-- R567: an image is copied into the objects. -/
def State.imageWrite (s : State) (i g attempt : Nat) (img : List Byte) : State :=
  if i = s.idxCount then
    ((s.bookTs attempt).foldl (fun (r : State × Nat) t => (r.1.arrive (s.sbAddr t) (sub img r.2 128), r.2 + 128)) (s, 0)).1
  else if g = 0xFFFF then s.arrive (s.shV i) img
  else
    let n := (s.blockDigestBytes i 0).length
    ((s.groupBlocks i g).foldl (fun (r : State × Nat) k => (r.1.blockFrom i k (sub img r.2 n), r.2 + n)) (s, 0)).1

/-- R562: this device's record of a group in a round. -/
def State.recOf (s : State) (i g r : Nat) : Option (Nat × Nat) :=
  (s.twin.recs.find? fun d => d.idx == i && d.group == g && d.round == r).map fun d => (d.blocks, d.crc)
/-- R562: a partner's digest of a group in a round. -/
def State.rxOf (s : State) (node i g r : Nat) : Option (Nat × Nat) :=
  (s.twin.rx.find? fun d => d.node == node && d.tensor == s.digTensor i && d.first == s.digFirst i
    && d.group == g && d.round == r).map fun d => (d.blocks, d.crc)
/-- R564: the group has been recomputed in the attempt, or is being so. -/
def State.redone (s : State) (i g : Nat) : Bool := s.twin.redo.contains (i, g)

/-- R562: a DIGEST slot for each record written, to each partner. -/
def State.sendMade (s : State) : State :=
  let made := s.sweep.made
  let s := { s with sweep := { s.sweep with made := [] } }
  made.foldl (fun (s : State) (q : Nat × Nat) =>
    let i := q.1
    let g := q.2
    let a := s.digestAddr i g
    let blocks := s.word (a + 0xC) 4
    let crc := s.word (a + 0x10) 8
    let rd := b2n (s.redone i g)
    let shadow := b2n (decide (s.shardCount ≤ i ∧ i < s.idxCount))
    let d := leBytes 4 (s.digTensor i + s.heat.attempt * 2 ^ 24) ++ leBytes 4 s.heat.num
      ++ leBytes 8 (s.digFirst i + g * 2 ^ 42 + shadow * 2 ^ 58 + rd * 2 ^ 59) ++ leBytes 4 blocks ++ leBytes 4 0
      ++ leBytes 8 crc
    let rec_ : DigRec := { idx := i, group := g, round := rd, blocks := blocks, crc := crc }
    let s := s.onTwin fun t => { t with recs := t.recs ++ [rec_] }
    (s.partners i).foldl (fun (s : State) n => s.twinSend n 0x781 d) s) s

/-- R200, R564: the unit restores a group's slots in ascending slot order. -/
def State.groupRestore (s : State) (i g : Nat) : State :=
  let u := if i = s.idxCount then 0 else s.shUnit i
  let mine := (List.range (s.undoHead u)).filter fun n =>
    let a := s.undoBase u + 192 * n
    let kind := bits (s.word (a + 0xC) 4) 9 8
    if i = s.idxCount then kind == 2
    else s.word a 2 == i && (if g = 0xFFFF then kind == 1 else kind == 0 && s.word (a + 4) 4 / 16384 == g)
  s.forAll mine fun n s => s.slotRestore u n

/-- R564: a block is swept again; no slot is written. -/
def State.sweepAgain (s : State) (i k : Nat) (gr : Grad) : State :=
  let o := s.blockOut i k gr
  if o.trouble.stops then s.sweepStop (s.shUnit i) i k o.trouble else s.blockWrite i k o

/-- R205, R564: the record of a recomputed group. -/
def State.groupRecord (s : State) (i g : Nat) : State :=
  s.digestWrite (s.shUnit i) i g (if g = 0xFFFF then s.shRows i + s.shCols i else (s.groupBlocks i g).length)
    (crc64 (s.groupImage i g 0))

/-- R209: a mirror record to the twin. -/
def State.sendMirror (s : State) (i k : Nat) (gr : Grad) : State :=
  s.sendNode s.twin.node 0 { mtype := 10, sable := s.edgeWorld (s.shUnit i / 4) == .sable, len := 96
                             srcId := blkSource (edgeBlk (s.shUnit i / 4)), data := s.mirrorBytes i k gr }

/-- R193, R564: the factors of a shard once more, from its state at the attempt's start. -/
def State.factorAgain (s : State) (i : Nat) : State :=
  let old := s.forAll (List.range (ceilDiv (s.shBlocks i) 16384)) fun g s => s.groupRestore i g
  let g := (List.range (s.shBlocks i)).flatMap fun k => (old.gradStage i k).g
  s.arrive (s.shV i) ((s.factorWords i g).flatMap fun w => leBytes 4 w.toNat)

/-- R61, R564: the scale-book group once more. -/
def State.bookAgain (s : State) : State :=
  let ts := s.bookTs s.heat.attempt
  let s := s.forAll ts fun t s => s.bookEntry t
  s.digestWrite 0 s.idxCount 0 ts.length (crc64 (s.groupImage s.idxCount 0 s.heat.attempt))

/-- R564: a group is recomputed; a baton group waits for its records to come again. -/
def State.recompute (s : State) (i g : Nat) : State :=
  let s := (s.onTwin fun t => { t with redo := t.redo ++ [(i, g)] }).groupRestore i g
  if i = s.idxCount then s.bookAgain
  else if s.shardCount ≤ i then s.onTwin fun t => { t with again := t.again ++ [(i, g, 16384 * g)] }
  else if g = 0xFFFF then (s.factorAgain i).groupRecord i g
  else
    (s.forAll (s.groupBlocks i g) fun k s =>
      let gr := s.gradStage i k
      let s := if s.shTwin i then s.sendMirror i k gr else s
      s.sweepAgain i k gr).groupRecord i g

/-- R564: a group whose digests disagree, or for which a ROUND 1 digest has come, is recomputed once. -/
def State.redoCheck (s : State) (i g : Nat) : State :=
  match s.recOf i g 0 with
  | none => s
  | some own =>
    let ps := s.partners i
    if !s.redone i g && (ps.any fun n => (s.rxOf n i g 0).any (· != own) || (s.rxOf n i g 1).isSome)
      then s.recompute i g else s

/-- R566: a PULL slot for the first pull that waits. -/
def State.pullNext (s : State) : State :=
  match s.twin.pulls with
  | [] => s
  | p :: t =>
    if p.sent then s
    else
      let d := leBytes 4 (s.digTensor p.idx + p.kind * 2 ^ 24) ++ leBytes 4 p.heat
        ++ leBytes 8 (s.digFirst p.idx + p.group * 2 ^ 42) ++ leBytes 8 (s.jobA 0xD0) ++ leBytes 8 p.attempt
      (s.onTwin fun x => { x with pulls := { p with sent := true, seals := [] } :: t }).twinSend p.node 0x782 d

/-- R566: KIND of a pull of index `i` from a node. -/
def State.pullKind (s : State) (i node : Nat) : Nat :=
  if i = s.idxCount then 2
  else if s.shardCount ≤ i then 1
  else if s.shTwin i ∧ node = s.twin.node then 0
  else 1

/-- R566: a pull joins the queue. -/
def State.pullStart (s : State) (p : Pull) : State :=
  (s.onTwin fun t => { t with pulls := t.pulls ++ [p] }).pullNext

/-- R565: how a dispute ends: agreement; a value that stands; no majority. -/
inductive Verdict where
  | equal
  | stands (v : Nat × Nat)
  | open_
  deriving DecidableEq, Repr

/-- R565: the verdict on the parties' ROUND 1 digests; each party is (ROUND 0, ROUND 1). -/
def verdict (ps : List (Option (Nat × Nat) × (Nat × Nat))) : Verdict :=
  let vals := ps.map (·.2)
  match vals with
  | [] => .equal
  | v :: t =>
    if t.all (· == v) then .equal
    else
      match vals.find? fun x => decide (2 ≤ vals.count x) && vals.all fun y => y == x || decide (vals.count y < vals.count x) with
      | none => .open_
      | some x => if ps.all fun p => p.2 == x || p.1 == some p.2 then .stands x else .open_

/-- R141, R548: a core stops: nothing queued or held, its sliver dropped. -/
def State.coreHalt (s : State) (c : Nat) : State :=
  let st := s.coreState c
  let s := if st = 1 ∨ st = 2 then s.setCoreState c 0 else s
  (s.onCore c fun k => { k with
    inSliver := false, trap := none, parked := false, vq := [], a0 := k.a0.afresh, a1 := k.a1.afresh }).showUnits c

/-- R19, R412: a pod is retired after a twin mismatch: its cores stop, POD_RETIRED; the core map stays as it is. The spec
does not say which pod a mismatch retires: that is open (DESIGN CHOICE, log 117). -/
def State.retirePod (s : State) : State :=
  let t := { s with free := s.free + 1 }
  match Config.mismatchPod s.free with
  | none => t
  | some p =>
    if 384 ≤ p ∨ s.podDark p then t
    else
      let t := t.forAll ((List.range (s.enCount p)).map (coreOf p)) fun c s => s.coreHalt c
      (t.onPod p fun q => { q with retired := true }).raise (s.podWorld p) 0x0604 1 (blkSource 0x10)
        (leBytes 4 (podDetail p))

/-- R565: a group whose ROUND 1 digests have all come is settled. -/
def State.settle (s : State) (i g : Nat) : State :=
  let ps := s.partners i
  match s.recOf i g 0, s.recOf i g 1 with
  | some r0, some r1 =>
    let rs := ps.filterMap fun n => (s.rxOf n i g 1).map fun v => (n, v)
    let busy := s.twin.pulls.any fun p => p.idx == i && p.group == g
    if rs.length ≠ ps.length ∨ s.twin.settled.contains (i, g) ∨ busy then s
    else
      let src := s.hubSource
      let done := fun (s : State) => s.onTwin fun t => { t with settled := t.settled ++ [(i, g)] }
      match verdict ((some r0, r1) :: rs.map fun q => (s.rxOf q.1 i g 0, q.2)) with
      | .equal => (done s).raiseJob 0x0705 1 src
          (leBytes 4 (s.digTensor i) ++ leBytes 4 g ++ leBytes 8 r0.2 ++ leBytes 8 r1.2)
      | .stands v =>
        if r1 = v then done s
        else
          let u := if i = s.idxCount then 0 else s.shUnit i
          let n := ((rs.find? fun q => q.2 == v).map (·.1)).getD s.twin.node
          let s := s.onTwin fun t => { t with retired := if t.retired.contains u then t.retired else t.retired ++ [u]
                                              stopAsked := true }
          let s := (s.raiseJob 0x0706 1 src (leBytes 4 u ++ leBytes 4 (s.digTensor i) ++ leBytes 4 g)).retirePod
          s.pullStart { why := .settle, idx := i, group := g, node := n, kind := s.pullKind i n, heat := s.heat.num
                        attempt := s.heat.attempt, expect := some v.2 }
      | .open_ =>
        let q := (rs.find? fun q => q.2 != r1).getD (s.twin.node, r1)
        (done s).ochre s.job.world 0x0707 2 src
          (leBytes 4 (s.digTensor i) ++ leBytes 4 (g + q.1 * 2 ^ 16) ++ leBytes 8 r1.2 ++ leBytes 8 q.2.2)
  | _, _ => s

/-- R561, R562: every own group, baton group and the scale-book group. -/
def State.allGroups (s : State) : List (Nat × Nat) :=
  (((List.range s.idxCount).filter fun i => s.freezeClass (s.shTensor i) != 1).flatMap fun i =>
    (List.range (ceilDiv (s.shBlocks i) 16384)).map (fun g => (i, g)) ++ if s.shOpt i = 4 then [(i, 0xFFFF)] else [])
  ++ [(s.idxCount, 0)]

/-- R562: a group agrees with every partner at its last round. -/
def State.agreed (s : State) (q : Nat × Nat) : Bool :=
  let r := b2n (s.redone q.1 q.2)
  match s.recOf q.1 q.2 r with
  | none => false
  | some v => s.twin.settled.contains q || (s.partners q.1).all fun n => s.rxOf n q.1 q.2 r == some v

/-- R562, R32, R502: the digest-comparison phase ends on the device, which then arrives at FINISH (R348); never in
FLOOR or PARK. -/
def State.digestEnd (s : State) : State :=
  if s.heat.running && s.heat.voids.isEmpty && s.heat.sweepDone && !s.heat.digestDone
      && s.regN pwrAt % 8 != 2 && s.regN pwrAt % 8 != 4 && s.allGroups.all s.agreed then
    (({ s with heat := { s.heat with digestDone := true } }).progress).phaseEnd 4
  else s

/-- R562 to R565: what follows from records and digests as they now stand. -/
def State.twinStep (s : State) : State :=
  if !(s.heat.running && s.heat.voids.isEmpty) then s
  else
    let s := s.sendMade
    let qs := (s.twin.recs.filter (·.round == 0)).map fun d => (d.idx, d.group)
    let s := (qs.foldl (fun (s : State) q => s.redoCheck q.1 q.2) s).sendMade
    (qs.foldl (fun (s : State) q => s.settle q.1 q.2) s).digestEnd

/-- R562: a DIGEST slot arrives; one of another attempt is dropped. -/
def State.digestRx (s : State) (node : Nat) (p : List Byte) : State :=
  let w := fld p 8 8
  let d : Digest := { node := node, tensor := fld p 0 3, first := w % 2 ^ 42, group := bits w 57 42
                      heat := fld p 4 4, attempt := fld p 3 1, round := b2n (bit w 59), blocks := fld p 0x10 4
                      crc := fld p 0x18 8 }
  if s.heat.running && s.heat.voids.isEmpty && d.heat == s.heat.num && d.attempt == s.heat.attempt then
    (s.onTwin fun t => { t with rx := if t.rx.contains d then t.rx else t.rx ++ [d] }).twinStep
  else s

/-- R566: SEAL slots to a requester: the four parts of a digest, or one refusal. -/
def State.sendSeals (s : State) (node : Nat) (slot : List Byte) (digest : Option (List Byte)) : State :=
  let head := fun part refused => leBytes 4 (fld slot 0 4 % 2 ^ 26 + part * 2 ^ 26 + refused * 2 ^ 28) ++ sub slot 4 12
  match digest with
  | none => s.twinSend node 0x783 (head 0 1)
  | some d => s.forAll (List.range 4) fun k s => s.twinSend node 0x783 (head k 0 ++ sub d (16 * k) 16)

/-- R566: the index that a PULL names here; none where the state is not held. -/
def State.pullIndex (s : State) (p : List Byte) : Option Nat :=
  let w := fld p 8 8
  let kind := bits (fld p 0 4) 25 24
  let heat := fld p 4 4
  let att := fld p 0x18 1
  let g := bits w 57 42
  match s.digIndex (fld p 0 3) (w % 2 ^ 42) with
  | none => none
  | some i =>
    let kindOk := match kind with
      | 0 => decide (s.shardCount ≤ i ∧ i < s.idxCount)
      | 1 => decide (i < s.shardCount)
      | 2 => i == s.idxCount
      | _ => false
    let held := if att = 0xFF then heat == s.lastHeat && !s.heat.sweepBegun && s.heat.voids.isEmpty && !s.heat.rolling
      else s.heat.running && s.heat.voids.isEmpty && heat == s.heat.num && att == s.heat.attempt && (s.recOf i g 0).isSome
    if s.job.loaded && kindOk && held && (i == s.idxCount || g == 0xFFFF || decide (16384 * g < s.shBlocks i))
      then some i else none

/-- R566: a PULL slot is served: the image in WRITE messages with WANT_ACK, or a refusal. -/
def State.pullRx (s : State) (node : Nat) (p : List Byte) : State :=
  match s.pullIndex p with
  | none => s.sendSeals node p none
  | some i =>
    let img := s.groupImage i (bits (fld p 8 8) 57 42) (fld p 0x18 1)
    let n := ceilDiv img.length 192
    let t0 := s.twin.mtag
    let tags := (List.range n).map fun k => (t0 + k) % 2 ^ 32
    let v : Serve := { node := node, slot := p, tags := tags, digest := sha512 img }
    let s := s.onTwin fun t => { t with mtag := (t0 + n) % 2 ^ 32, serves := t.serves ++ [v] }
    let s := s.forAll (List.range n) fun k s =>
      let part := (img.drop (192 * k)).take 192
      s.sendNode node 0 { mtype := 1, sable := s.relayWorld 0 == .sable, ack := true, len := part.length
                          mtag := (t0 + k) % 2 ^ 32, srcId := rlySource 0, addr := fld p 0x10 6 + 192 * k, data := part }
    if n = 0 then s.sendSeals node p (some (sha512 img)) else s

/-- R566: a WRITE_ACK of an image; after the last one the seals go out. -/
def State.ackRx (s : State) (node tag : Nat) : State :=
  match s.twin.serves.find? fun v => v.node == node && v.tags.contains tag with
  | none => s
  | some v =>
    let v' : Serve := { v with tags := v.tags.erase tag }
    if v'.tags.isEmpty then
      (s.onTwin fun t => { t with serves := t.serves.erase v }).sendSeals node v.slot (some v.digest)
    else s.onTwin fun t => { t with serves := t.serves.map fun x => if x = v then v' else x }

/-- The first pull leaves the queue, and the next one starts. -/
def State.pullPop (s : State) : State := (s.onTwin fun t => { t with pulls := t.pulls.drop 1 }).pullNext

/-- R569: a restore ends with a status; its other pulls are dropped. -/
def State.restoreEnd (s : State) (st : Nat) : State :=
  ((s.onTwin fun t => { t with
    restore := t.restore.map fun r => { r with status := some st }
    pulls := t.pulls.filter (·.why != .restore) }).pullNext).doneOf 0x0703 st

/-- R569: every index and the scale book stand at one heat: it becomes the last committed heat. -/
def State.restoreHeat (s : State) (heat : Nat) : State :=
  if (List.range (s.idxCount + 1)).all fun i => s.twin.restored.contains (i, heat) then
    ({ s with heat := { s.heat with last := some heat } }).onTwin fun t => { t with batonHeat := heat }
  else s

/-- R569: an index (or the scale book) is restored at a heat: its cursor is IDLE, its ring empty. -/
def State.restoreIdx (s : State) (i heat : Nat) : State :=
  let s := s.onTwin fun t => { t with restored := t.restored.filter (·.1 != i) ++ [(i, heat)] }
  let s := if i < s.idxCount then
      (s.cursorWrite i 0 0 0).setRegN (swpAt (s.shUnit i) + 0x10) 0 else s
  s.restoreHeat heat

/-- R569: after a group of a restore: the index is restored once none of its groups waits. -/
def State.restoreStep (s : State) (i heat : Nat) : State :=
  let s := if s.twin.pulls.any fun p => p.why == .restore && p.idx == i then s else s.restoreIdx i heat
  if s.twin.pulls.any (·.why == .restore) then s else s.restoreEnd 0

/-- R563: ROT_LOST: the state of a group cannot be had again. -/
def State.rotLost (s : State) (i g : Nat) : State :=
  s.jobCrimson 0x070C s.hubSource (leBytes 4 (s.digTensor i) ++ leBytes 4 g)

/-- R567: what follows a pull that has failed for good. The event of a void by a pull within a heat is not
given, nor what follows where lost state cannot be pulled: ROT_LOST (DESIGN CHOICE, log 34). -/
def State.pullLost (s : State) (p : Pull) (status : Nat) : State :=
  match p.why with
  | .settle =>
    let f := s.freeWord
    f.2.pullPop.ochre s.job.world (f.1.toNat % 65536) 2 s.hubSource []
  | .rot => s.pullPop.rotLost p.idx p.group
  | .lost => s.pullPop.rotLost p.idx p.group
  | .restore => s.restoreEnd status

/-- R567: a pull whose check fails is repeated once. -/
def State.pullFail (s : State) (p : Pull) : State :=
  if p.tries = 0 then
    (s.onTwin fun t => { t with pulls := { p with tries := 1, sent := false, seals := [] } :: t.pulls.drop 1 }).pullNext
  else s.pullLost p 0x0D

/-- R567: a sealed image is checked and copied. -/
def State.pullTake (s : State) (p : Pull) (digest : List Byte) : State :=
  let img := s.bytes (s.jobA 0xD0) (s.groupImage p.idx p.group p.attempt).length
  if sha512 img ≠ digest ∨ p.expect.any (· != crc64 img) then s.pullFail p
  else
    let s := (s.imageWrite p.idx p.group p.attempt img).pullPop
    match p.why with
    | .settle =>
      let s := s.arrive (s.digestAddr p.idx p.group + 0x10) (leBytes 8 (crc64 img))
      (s.onTwin fun t => { t with settled := t.settled ++ [(p.idx, p.group)] }).twinStep
    | .rot => s.raiseJob 0x070B 1 s.hubSource (leBytes 4 (s.digTensor p.idx) ++ leBytes 4 p.group)
    | .restore => s.restoreStep p.idx p.heat
    | .lost => s

/-- R205: the groups of index `i`, 0xFFFF a factor group; the scale book is one. -/
def State.groupsOf (s : State) (i : Nat) : List Nat :=
  if s.idxCount ≤ i then [0]
  else List.range (ceilDiv (s.shBlocks i) 16384) ++ if s.shOpt i = 4 then [0xFFFF] else []

/-- R237, R549: the indices whose state the void has lost. -/
def State.lostIdx (s : State) : List Nat := (s.twin.lost ++ s.twin.lostAt.filterMap s.ownerOf).eraseDups

/-- R202, R237, R549: before the rerun, lost state is pulled from the twin's baton copy or, where the index has no twin,
from the first replica, as of the last commit. -/
def State.lostPull (s : State) : State :=
  let is := s.lostIdx
  let s := s.onTwin fun t => { t with lost := [], lostAt := [] }
  s.forAll is fun i s =>
    let ps := s.partners i
    match (if ps.contains s.twin.node then some s.twin.node else ps.head?) with
    | none => s.rotLost i 0
    | some n => s.forAll (s.groupsOf i) fun g s =>
        s.pullStart { why := .lost, idx := i, group := g, node := n, kind := s.pullKind i n, heat := s.lastHeat
                      attempt := 0xFF }

/-- R566: a SEAL slot arrives. -/
def State.sealRx (s : State) (node : Nat) (d : List Byte) : State :=
  match s.twin.pulls with
  | [] => s
  | p :: t =>
    let w := fld d 0 4
    let x := fld d 8 8
    let same := p.sent && p.node == node && fld d 0 3 == s.digTensor p.idx && bits w 25 24 == p.kind
      && fld d 4 4 == p.heat && x % 2 ^ 42 == s.digFirst p.idx && bits x 57 42 == p.group
    if !same then s
    else if bit w 28 then (if p.why = .restore then s.pullLost p 0x0C else s.pullFail p)
    else
      let part := bits w 27 26
      let seals := p.seals.filter (·.1 != part) ++ [(part, sub d 0x10 16)]
      if seals.length < 4 then s.onTwin fun z => { z with pulls := { p with seals := seals } :: t }
      else s.pullTake p ((List.range 4).flatMap fun k => ((seals.find? (·.1 == k)).map (·.2)).getD [])

/-- R553: a slot that is dropped: an unknown opcode, a header that R553 does not give it, a reserved field. -/
def badSlot (b : List Byte) : Bool :=
  let op := fld b 0 2
  let p := b.drop 0x20
  let w8 := fld p 8 8
  bits (fld b 0 4) 19 16 != 1 || bits (fld b 0 4) 31 28 != 0 || bits (fld b 8 4) 31 1 != 0 || fld b 0xC 4 != 32
    || !allZero (sub b 0x10 16) ||
    (match op with
     | 0x780 => bits (fld p 0xC 4) 31 1 != 0 || !allZero (sub p 0x10 16)
     | 0x781 => bits w8 63 60 != 0 || fld p 0x14 4 != 0
     | 0x782 => bits (fld p 0 4) 31 26 != 0 || bits (fld p 0 4) 25 24 == 3 || bits w8 63 58 != 0
         || fld p 0x16 2 != 0 || !allZero (sub p 0x19 7)
     | 0x783 => bits (fld p 0 4) 31 29 != 0 || bits (fld p 0 4) 25 24 == 3 || bits w8 63 58 != 0
     | _ => true)

/-- R553: TWIN_SLOT_BAD. -/
def State.slotBad (s : State) (node op : Nat) : State :=
  s.raiseJob 0x0704 1 s.hubSource (leBytes 4 (node + op * 2 ^ 16))

/-- R553: a twin-link slot from a node. -/
def State.slotRx (s : State) (node : Nat) (b : List Byte) : State :=
  let p := sub b 0x20 32
  if badSlot b then s.slotBad node (fld b 0 2)
  else match fld b 0 2 with
    | 0x780 => s.helloRx node p
    | 0x781 => s.digestRx node p
    | 0x782 => s.pullRx node p
    | _ => s.sealRx node p

/-- MAIL (R296, R553): the slot of the first MAIL message of port `p` reaches the hub. -/
def execMail (p : Nat) (s : State) : Host.Outcome State Fault Refusal :=
  guarded (decide (p < 16)) (
    match s.headMsg p 0 with
    | none => s
    | some b =>
      let m := Msg.ofBytes b
      if m.hops = 0 ∧ m.mtype = 9 then (s.popMsg p 0).slotRx m.src (fit 64 m.data) else s)

/-- R558, R564: one record for a baton group that is recomputed. -/
def State.mirrorAgain (s : State) (i k : Nat) (gr : Grad) : State :=
  let g := k / 16384
  let s := (s.sweepAgain i k gr).onTwin fun t => { t with again := t.again.map fun x =>
    if x.1 = i ∧ x.2.1 = g then (i, g, k + 1) else x }
  if (k + 1) % 16384 = 0 ∨ k + 1 = s.shBlocks i then
    ((s.onTwin fun t => { t with again := t.again.filter fun x => !(x.1 == i && x.2.1 == g) }).groupRecord i g).twinStep
  else s

/-- R190, R558: the shadow sweep reads the parameter sets at the first record, if SWEEP has not begun (log 35). -/
def State.shadowParams (s : State) : State :=
  if s.sweep.params.isEmpty then { s with sweep := { s.sweep with params := s.bytes (s.jobA 0x70) 1024 } } else s

/-- R209, R558: a record of the attempt in progress is applied. -/
def State.mirrorApply (s : State) (i k : Nat) (d : List Byte) : State :=
  let s := s.shadowParams
  let gr := s.shadowStage i (fld d 0x30 1, unpackCodes 8 (sub d 0x10 32)) (fld d 0x31 1, unpackCodes 8 (sub d 0x40 32))
  if s.twin.again.any fun x => x.1 == i && x.2.1 == k / 16384 then s.mirrorAgain i k gr
  else (s.sweepOne (s.shUnit i) i k gr false).twinStep

/-- R558: the records of an attempt that lies ahead of this device. -/
def State.mirrorAhead (s : State) (heat att : Nat) : Bool :=
  if s.heat.active then decide (s.heat.num < heat) || (heat == s.heat.num && decide (s.heat.attempt < att))
  else decide (s.lastHeat < heat)

/-- MIRROR (R209, R558): the first mirror record of port `p` is applied, held or dropped. -/
def execMirror (p : Nat) (s : State) : Host.Outcome State Fault Refusal :=
  guarded (decide (p < 16)) (
    match s.headMsg p 3 with
    | none => s
    | some b =>
      let m := Msg.ofBytes b
      let d := m.data
      let heat := fld d 8 4
      let att := fld d 0xC 1
      let k := fld d 4 4
      if m.hops ≠ 0 ∨ m.mtype ≠ 10 ∨ s.sweepPaused then s
      else match (if s.job.loaded then s.batonOf (fld d 0 2) else none) with
        | none => (s.popMsg p 3).slotBad m.src 0xA
        | some i =>
          if s.mirrorAhead heat att || s.twin.stream.any (fun q => decide (q.2 ≤ i - s.shardCount + 1)) then s
          else if s.heat.running && s.heat.voids.isEmpty && heat == s.heat.num && att == s.heat.attempt then
            if s.shBlocks i ≤ k then (s.popMsg p 3).slotBad m.src 0xA else (s.popMsg p 3).mirrorApply i k d
          else (s.popMsg p 3).count (rlyAt 0 + 0x20) 1)

/-- JOG_DIGEST_PASS (R494, R563): the committed state of a group is compared with its own digest record. -/
def execJogDigestPass (idx group : Nat) (s : State) : Host.Outcome State Fault Refusal :=
  .next (
    let a := s.digestAddr idx group
    let crc := s.word (a + 0x10) 8
    let there := s.job.loaded && !s.sweepPaused && s.heat.last.isSome && decide (idx < s.idxCount)
      && (group == 0xFFFF || decide (16384 * group < s.shBlocks idx)) && s.word (a + 4) 4 == s.lastHeat
      && s.word a 2 == idx && !s.heat.sweepBegun && !s.heat.rolling && s.heat.voids.isEmpty
      && !(s.twin.pulls.any fun p => p.idx == idx && p.group == group)
    if !there || crc64 (s.groupImage idx group 0xFF) == crc then s
    else match s.partners idx with
      | [] => s.jobCrimson 0x070C s.hubSource (leBytes 4 (s.digTensor idx) ++ leBytes 4 group)
      | n :: _ => s.pullStart { why := .rot, idx := idx, group := group, node := n, kind := s.pullKind idx n
                                heat := s.lastHeat, attempt := 0xFF, expect := some crc })

/-- R222, R560: the bytes of an object, padded to 64. -/
def State.objBytes (s : State) (base f nb : Nat) (scaled : Bool) : List Byte :=
  let n := if scaled then scaleBase base f nb + nb - base else nb * blockBytes f
  s.bytes base n ++ List.replicate (align64 n - n) 0

/-- R560: the data of section `b` of the baton (the scale book's behind the last entry). -/
def State.sectionData (s : State) (b : Nat) : List Byte :=
  if b < s.job.batonCount then
    let i := s.shardCount + b
    let nb := s.shBlocks i
    s.objBytes (s.shW i) 1 nb false ++ (if s.shUsesM i then s.objBytes (s.shM i) 2 nb true else [])
      ++ (if s.shUsesV i then s.objBytes (s.shV i) 3 nb true else []) ++ s.objBytes (s.shE i) 3 nb true
  else s.bytes (s.sbAddr 0) (128 * s.jobF 0x20 3)

/-- R560: a section: header and data. -/
def State.section_ (s : State) (b : Nat) : List Byte :=
  let d := s.sectionData b
  let book := b == s.job.batonCount
  let i := s.shardCount + b
  leBytes 4 (if book then 0xFFFFFF else s.shTensor i) ++ leBytes 4 (if book then 0 else s.shG i % 65536)
    ++ leBytes 8 (if book then 0 else s.shFirst i) ++ leBytes 8 (if book then s.jobF 0x20 3 else s.shCount i)
    ++ leBytes 8 d.length ++ sha512 d ++ List.replicate 32 0 ++ d

/-- R560: bytes of a slot: its header and the sections below `b`. -/
def State.slotBytes (s : State) (b : Nat) : Nat :=
  64 + ((List.range b).map fun k => 128 + (s.sectionData k).length).sum

/-- R560: a slot's header. -/
def State.slotHeader (s : State) (heat complete : Nat) : List Byte :=
  leBytes 4 0x00014254 ++ leBytes 4 heat ++ leBytes 4 complete ++ leBytes 4 (s.job.batonCount + 1)
    ++ leBytes 8 (s.slotBytes (s.job.batonCount + 1)) ++ List.replicate 40 0

/-- R364: the device writes host memory. -/
def State.hostWrite (s : State) (a : Nat) (bs : List Byte) : State :=
  { s with hostMem := Memory.writeN s.hostMem a bs }

/-- BATON_STREAM (R560): the next part of the slot goes to host memory: the header, each section, the header
again; `ok` is false when the write fails. -/
def execBatonStream (ok : Bool) (s : State) : Host.Outcome State Fault Refusal :=
  .next (match s.twin.stream, s.twin.hostBuf with
    | some (h, n), some (addr, size) =>
      let a := addr + h % 2 * (size / 2)
      let bc := s.job.batonCount
      let at_ := if n = 0 ∨ bc + 1 < n then a else a + s.slotBytes (n - 1)
      if !ok then
        (s.onTwin fun t => { t with stream := none }).raiseJob 0x0709 1 s.hubSource (leBytes 8 h ++ leBytes 8 at_)
      else
        let bs := if n = 0 then s.slotHeader h 0 else if bc + 1 < n then s.slotHeader h 1 else s.section_ (n - 1)
        (s.hostWrite at_ bs).onTwin fun t => { t with stream := if bc + 1 < n then none else some (h, n + 1) }
    | _, _ => s)

/-- R559, R560: what a commit does for the twin. -/
def State.twinCommit (s : State) (heat : Nat) : State :=
  let s := s.onTwin fun t => { t with batonHeat := heat }
  if s.twin.pairing = 2 ∧ s.twinJob then
    if s.twin.hostBuf.isSome then s.onTwin fun t => { t with stream := some (heat, 0) }
    else s.raiseJob 0x070A 1 s.hubSource (leBytes 4 heat)
  else s

/-- R548: the attempt's digests and the pulls of its groups end. -/
def State.twinVoid (s : State) : State :=
  s.onTwin fun t => { t with
    rx := [], recs := [], redo := [], again := [], settled := []
    pulls := t.pulls.filter (·.why != .settle) }

end Sys2Proof.Machine
end

