-- ==== Sys2Proof/Machine/Power.lean ====
section
/-!
DEFINITION. The power controller (R477 to R510): samples, budgets, the path, the core allowance, the backstop,
power states, pods gating and turning on, the pacer, the energy ledger. What a sample measures and the
estimates that the controller draws from it are operands (log 13).
-/
namespace Sys2Proof.Machine

/-- The power controller changed. -/
def State.onPwr (s : State) (f : Pwr → Pwr) : State := { s with pwr := f s.pwr }
/-- R510: the power state of R502. -/
def State.pst (s : State) : Nat := s.regN pwrAt % 8
/-- R510: a field of EDG_PWR_STATE. -/
def State.pwrF (s : State) (hi lo : Nat) : Nat := bits (s.regN pwrAt) hi lo
/-- R481: budget mode. -/
def State.budgetMode (s : State) : Bool := s.pwrF 6 6 == 0
/-- R478: the effective operating point. -/
def State.effOp (s : State) : Nat := s.pwrF 10 8
/-- R477: VCORE target of an operating point in mV. -/
def opMv (op : Nat) : Nat := [640, 590, 550, 500, 470].getD op 470

/-- R458: the standing draw of the floor state in W. -/
def State.floorW (s : State) : Nat :=
  if (List.range 16).all fun p => s.linkMode p == 0 then 90 else 170

/-- R165: cores that hold a resident home which the gradient path has not read yet. -/
def State.homeCore (s : State) (c : Nat) : Bool :=
  s.heat.running && (List.range (s.jobF 0x24 4)).any fun i =>
    decide (coreBase c ≤ s.homeAddr i ∧ s.homeAddr i < coreBase c + 0xA0000) && !s.gates.homesRead.contains i

/-- Enabled cores of a pod that is not dark. -/
def State.podCores (s : State) (p : Nat) : List Nat :=
  if s.podDark p then [] else (List.range (s.enCount p)).map fun n => coreOf p n
/-- Every enabled core of the device. -/
def State.allCores (s : State) : List Nat := (List.range 384).flatMap s.podCores

/-- R485: an enabled core with sliver work queued. -/
def State.coreBusy (s : State) (c : Nat) : Bool := (s.core c).inSliver || (s.slvPick c).isSome

/-- R472, R515: the ceiling of a pod that is enforced. -/
def State.podCeil (s : State) (p : Nat) : Nat :=
  min (bits (s.regN (podPwrAt p + 4)) 4 0) (bits (s.regN (podThmAt p + 8)) 12 8)

/-- R490: PARK on a pod's non-home cores in descending logical order until at most `a` remain unparked. -/
def State.parkPod (s : State) (p a : Nat) : State :=
  let cs := s.podCores p
  let down := (cs.reverse.filter fun c => !s.homeCore c).take (cs.length - a)
  s.forAll cs fun c s => s.parkWrite c (down.contains c)

/-- R490: live pods in rank order, rotated by ROT. -/
def State.rankPods (s : State) : List Nat :=
  let l := ([0, 2, 5, 7, 8, 10, 1, 3, 4, 6, 9, 11].flatMap fun q => (List.range 32).map fun d => 12 * d + q).filter
    fun p => !s.podDark p && decide (0 < s.enCount p)
  let r := if l.length = 0 then 0 else s.pwr.rot % l.length
  l.drop r ++ l.take r

/-- R490: the allowance is shared among the live pods. -/
def State.shareAllow (s : State) (n : Nat) : State :=
  let l := s.rankPods
  s.forAll (List.range l.length) fun i s =>
    let p := l.getD i 0
    let a := n / l.length + b2n (decide (i < n % l.length))
    s.parkPod p (max ((s.podCores p).filter s.homeCore).length (min a (s.podCeil p)))

/-- R509: a power event. -/
def State.pwrEvent (s : State) (code shade : Nat) (detail : List Byte) : State :=
  s.raise (s.edgeWorld 0) code shade (blkSource 0x10) detail

/-- R32, R507: the phase in progress, 0 to 5. -/
def State.phaseNow (s : State) : Nat :=
  if !s.heat.fwdDone then (if s.gates.fwd.isEmpty then 0 else s.pool.lastMark)
  else if !s.heat.bwdDone then 1
  else if !s.heat.rsDone then 2
  else if !s.heat.sweepDone then 3
  else if !s.heat.digestDone then 4
  else 5

/-- R478, R510: the operating point of a class (0 FWD, 1 BWD, 2 SWEEP, 3 COLL) as the pacer has it. -/
def State.classOp (s : State) (k : Nat) : Nat := bits (s.regN (pwrAt + 0x10)) (3 * k + 2) (3 * k)
/-- R407: preferred OP of a class (4: IDLE). -/
def State.prefOp (s : State) (k : Nat) : Nat := s.jobF (0x10 + k) 1 % 8
/-- R407: slowest OP of a class. -/
def State.slowOp (s : State) (k : Nat) : Nat := bits (s.jobF (0x10 + k) 1) 5 3

/-- R478: slivers of a phase are on the device: in a core or in a queue. -/
def State.sliversOf (s : State) (bwd : Bool) : Bool :=
  s.allCores.any (fun c => (s.core c).inSliver && (s.core c).bwd == bwd) ||
  (List.range 384).any fun p =>
    (List.range (s.reg (slvAt p + 0xC) - s.reg (slvAt p + 8)).toNat).any fun i =>
      bit (s.word (s.slvRec p ((s.regN (slvAt p + 8) + i) % 2 ^ 32) + 4) 4) 21 == bwd

/-- R478: the phase demand. Phases with slivers count; where none has any, the phase in progress does (log 36). -/
def State.phaseDemand (s : State) : Nat :=
  if !s.job.loaded then 4
  else if !s.heat.running then s.prefOp 4
  else
    let f := s.sliversOf false
    let b := s.sliversOf true
    if f && b then min (s.classOp 0) (s.classOp 1)
    else if f then s.classOp 0
    else if b then s.classOp 1
    else match s.phaseNow with
      | 0 => s.classOp 0
      | 1 => s.classOp 1
      | 2 => s.classOp 3
      | 3 => s.classOp 2
      | 4 => s.classOp 3
      | _ => s.prefOp 4

/-- R478: the protective demand: the slower of the thermal and the coolant demand (R516, R521). -/
def State.protDemand (s : State) : Nat :=
  let st := s.regN thmAt
  max (bits st 23 21) (min 4 (bits st 27 24))

/-- R457: the effective operating point changes: a slower point divides at once and the rails slew after it;
a faster one waits for the rails (OP_SLEW_DONE). -/
def State.setOp (s : State) (op : Nat) : State :=
  let cur := s.effOp
  if cur < op then
    let s := (s.putField pwrAt 10 8 op).count (pwrAt + 0x20) 1
    let s := s.forAll (List.range 16) fun g s => s.setRegN (railAt g + 8) (opMv op)
    s.onPwr fun p => { p with slew := some (op, false) }
  else if op < cur then s.onPwr fun p => { p with slew := some (op, true) }
  else s.onPwr fun p => { p with slew := match p.slew with
    | some (_, true) => none
    | x => x }

/-- R478, R479: the demands are weighed anew. `now` tells a demand that acts at once: only a slower point. -/
def State.opUpdate (s : State) (boundary : Bool) : State :=
  let ph := if boundary then s.phaseDemand else s.pwrF 14 12
  let s := (((s.putField pwrAt 14 12 ph).putField pwrAt 18 16 s.protDemand).putField pwrAt 19 19
    (b2n (decide (0 < s.pwr.back))))
  let t := max ph (max s.protDemand s.pwr.back)
  if boundary || decide (s.effOp < t) then s.setOp t else s

/-- OP_SLEW_DONE (R457, R479): the rails have reached the new point. -/
def execOpSlewDone (s : State) : Host.Outcome State Fault Refusal :=
  .next (match s.pwr.slew with
    | none => s
    | some (op, up) =>
      let old := s.effOp
      let s := s.onPwr fun p => { p with slew := none }
      let move := fun (s : State) (v0 v1 : Nat) => s.forAll (List.range 16) fun g s =>
        (s.setRegN (railAt g + 8) v1).setRegN (railAt g + 4) (s.regN (railAt g + 4) + v1 - v0)
      if up then ((move s (opMv old) (opMv op)).putField pwrAt 10 8 op).count (pwrAt + 0x20) 1
      else s.forAll (List.range 16) fun g s =>
        s.setRegN (railAt g + 4) (max (opMv op + 10) (min (opMv op + 60) (s.regN (railAt g + 4)))))

/-- R502: a change of power state and its event. -/
def State.setPst (s : State) (n : Nat) : State :=
  (s.putField pwrAt 2 0 n).pwrEvent 0x0401 0 (leBytes 4 (n + 8 * s.pwr.cause))

/-- R483, R502, R517, R521: the state that commands, budget, heat and coolant ask for: 0 RUN, 2 FLOOR, 4 PARK. -/
def State.wantPst (s : State) : Nat :=
  if s.pwrF 5 5 = 1 ∨ s.pwr.auto = 2 then 4
  else if s.pwrF 4 4 = 1 ∨ s.pwr.auto = 1 ∨ s.pwr.thermHold ∨ s.pwr.coolHold then 2
  else 0

/-- R203: every unit stops at LO = LIMIT and reads paused; R505: it goes on as it was (DEDUCED, log 157). -/
def State.sweepPause (s : State) (pause : Bool) : State :=
  s.forAll (List.range 16) fun u s =>
    let st := s.unitState u
    if pause then (if st = 4 then s else (s.onUnit u fun x => { x with before := st }).setUnitState u 4)
    else if st ≠ 4 then s
    else match (s.unit u).cur with
      | some i => s.setUnitState u (if s.cursorSt i = 2 then 3 else 2)
      | none => s.setUnitState u (s.unit u).before

/-- R503: entry to FLOOR or PARK begins: every core is parked, the sweep pauses. -/
def State.pwrEnter (s : State) (n : Nat) : State :=
  let s := s.forAll s.allCores fun c s => s.parkWrite c true
  ((s.sweepPause true).onPwr fun p => { p with since := s.now, late := false, exempt := true }).setPst n

/-- R502: the move that the asked-for state needs now, if no other move is in progress. -/
def State.pwrMove (s : State) (cause : Nat) : State :=
  let t := s.wantPst
  let set := fun (s : State) => s.onPwr fun p => { p with cause := cause }
  match s.pst with
  | 0 => if t = 2 then (set s).pwrEnter 1 else if t = 4 then (set s).pwrEnter 3 else s
  | 1 => if t = 4 then (set s).setPst 3 else s
  | 2 => if t = 4 then (set s).pwrEnter 3 else if t = 0 then (set s).setPst 5 else s
  | 4 => if t = 2 then (set s).setPst 2 else if t = 0 then (set s).setPst 5 else s
  | _ => s

/-- R502: a commanded floor (PWR_FLOOR). -/
def State.cmdFloor (s : State) : State := ((s.putField pwrAt 4 4 1).putField pwrAt 5 5 0).pwrMove 0
/-- R502, R541: a commanded park. -/
def State.cmdPark (s : State) : State := ((s.putField pwrAt 5 5 1).putField pwrAt 4 4 0).pwrMove 0
/-- R502: PWR_RESUME lifts the commanded holds. -/
def State.cmdResume (s : State) : State := ((s.putField pwrAt 5 5 0).putField pwrAt 4 4 0).pwrMove 0

/-- R483: the automatic state of a budget. -/
def State.autoState (s : State) : State :=
  let b := s.pwr.budget
  let a := if !s.budgetMode then 0 else if b < s.floorW then 2 else if b < s.floorW + 80 then 1 else 0
  let s := (s.onPwr fun p => { p with auto := a }).putField pwrAt 3 3 (b2n (a != 0))
  s.pwrMove 1

/-- R503: steps 2 to 4 are done: no core is in a sliver, no shuttle holds an accepted descriptor. -/
def State.quiet (s : State) : Bool := s.cores.all (fun c => !c.2.inSliver) && s.shu.all fun x => x.2.active.isNone

/-- R503: FLOOR or PARK holds: every pod gates. -/
def State.pwrHold (s : State) (n : Nat) : State :=
  let s := s.forAll ((List.range 384).filter fun p => s.regN (podPwrAt p) % 4 != 3) fun p s => s.putField (podPwrAt p) 1 0 0
  (s.setPst n).pwrMove s.pwr.cause

/-- R484: the allowance of peak guard, in µW. -/
def State.guardAllow (s : State) : Int :=
  (16 * s.pwr.ceiling : Int) * 1000000 - 24000000 - (((s.pwr.samples.take 15).sum : Nat) : Int)

/-- R484, R489: the mean of the last 16 samples, when there are 16. -/
def State.mean16 (s : State) : Option Nat :=
  if s.pwr.samples.length < 16 then none else some ((s.pwr.samples.take 16).sum / 16)

/-- R485: cores of the device that hold homes. -/
def State.homeCount (s : State) : Nat := (s.allCores.filter s.homeCore).length

/-- R507: a sample of `uw` µW is booked; everything that decides where was noted at its start. -/
def State.bookSample (s : State) (uw : Nat) : State :=
  let e := uw * 125 / 1000000
  let j := min (s.pwr.jogW * 125 / 1000000) e
  let s := (s.count64 (pwrAt + 0x30) e).count64 (pwrAt + 0x38) j
  match s.pwr.bookHeat with
  | none => s
  | some h =>
    let k := s.pwr.bookLine
    let put := fun (l : Ledger) =>
      if l.heat ≠ h then l
      else
        let l := { l with jog := l.jog + j, samples := l.samples + 1, peak := max l.peak (uw / 1000000)
                          wideE := l.wideE + (if s.pwr.bookWide then e else 0) }
        if s.pwr.bookSuspend then { l with suspend := l.suspend + (e - j) }
        else { l with lines := setAt 0 l.lines k (l.lines.getD k 0 + (e - j)) }
    s.onPwr fun p => { p with cur := put p.cur, past := p.past.map put, attE := p.attE + e }

/-- R488, R489: a sample above its path by more than 24 W, or not. -/
def State.backCheck (s : State) (uw path : Nat) : State :=
  let p := s.pwr
  let s := s.onPwr fun p => { p with capQuiet := p.capQuiet + 1 }
  if path + 24000000 < uw then
    let mean := s.mean16.getD 0
    if p.back < 4 then
      let before := s.effOp
      let after := min 4 (before + 1)
      let s := (s.onPwr fun p => { p with back := after, backGood := 0, exempt := true }).count (pwrAt + 0x24) 1
      ((s.raiseBits (pwrAt + 0x1C) 0x10).pwrEvent 0x0404 1 (leBytes 4 (before + after * 16))).opUpdate false
    else if s.homeCount < s.regN (pwrAt + 8) then s
    else
      let s := s.raiseBits (pwrAt + 0x1C) 1
      let due := decide (16 ≤ s.pwr.capQuiet)
      let s := if due then
          (s.onPwr fun p => { p with capQuiet := 0 }).pwrEvent 0x0402 1
            (leBytes 4 (path / 1000000 + uw / 1000000 * 65536))
        else s
      if !s.budgetMode && decide (s.pwr.ceiling * 1000000 < mean) && (due || !s.pwr.breach) then
        ((s.onPwr fun p => { p with breach := true }).raiseBits (pwrAt + 0x1C) 2).pwrEvent 0x0403 1
          (leBytes 4 (mean / 1000000 + s.pwr.ceiling * 65536))
      else s
  else if uw ≤ path ∧ 0 < p.back then
    if 1 ≤ p.backGood then s.onPwr fun p => { p with back := 0, backGood := 0 }
    else s.onPwr fun p => { p with backGood := 1 }
  else s.onPwr fun p => { p with backGood := 0 }

/-- R482 to R484: what ends with the sample: a budget or a ceiling that has settled. -/
def State.settleCheck (s : State) : State :=
  let t := s.wantPst
  let s := match s.pwr.settling with
    | none => s
    | some id =>
      if (t = 0 ∧ s.pst = 0 ∧ s.pwr.path = some s.pwr.want) ∨ (t ≠ 0 ∧ s.pst = t) then
        (s.onPwr fun p => { p with settling := none }).pwrEvent 0x0400 0 (leBytes 4 s.pwr.budget ++ leBytes 4 id)
      else s
  let low := s.mean16.any fun m => decide (m ≤ s.pwr.ceiling * 1000000)
  s.onPwr fun p => { p with ceilWait := p.ceilWait && !low
                            breach := p.breach && !(low || s.pwr.samples.length < 16) }

/-- R482, R484: a budget or ceiling that waits takes effect at this boundary. -/
def State.limitsDue (s : State) : State :=
  let s := match s.pwr.nextBudget with
    | some (w, id) =>
      if s.pwr.budgetTick.all fun t => decide (100000 ≤ (s.now - t).toNat) then
        (s.onPwr fun p => { p with nextBudget := none, budget := w, budgetTick := some s.now, settling := some id }).autoState
      else s
    | none => s
  match s.pwr.nextCeil with
  | some w => s.onPwr fun p => { p with nextCeil := none, ceiling := w, ceilWait := true }
  | none => s

/-- R493, R577: stagger_hold. -/
def State.staggerHold (s : State) : Bool :=
  s.pst == 0 && (s.pins.wakeHold || s.pwr.stagger.any fun t => decide (s.now.toNat < t.toNat))

/-- R510: EDG_PWR_PATH: a path, and the limit that is in force: B, or the allowance of R484. -/
def State.pathReg (s : State) (path : Nat) : State :=
  let limit := if s.budgetMode then s.pwr.budget else s.guardAllow.toNat / 1000000
  s.setRegN (pwrAt + 4) (path / 1000000 % 65536 + limit % 65536 * 65536)

/-- R485, R486, R494, R496: the path, the allowance and the jog level of the sample that begins. -/
def State.pathStep (s : State) (uw pnc pcore : Nat) : State :=
  let p := s.pwr
  let busy := (s.allCores.filter s.coreBusy).length
  let enabled := s.allCores.length
  let step := bits (s.regN (pwrAt + 0x18)) 31 16 * 125000
  let want0 := min (pnc + pcore * busy) 1200000000
  let want := if s.budgetMode then min want0 (p.budget * 1000000) else want0
  let path := match p.path with
    | none => uw
    | some q =>
      let x := max (q - step) (min want (q + step))
      if s.staggerHold then min x q else x
  let path := if s.budgetMode then path else min path s.guardAllow.toNat
  let path := if p.exempt then min path uw else path
  let homes := s.homeCount
  let n := max homes (min (if pcore = 0 then enabled else (path - pnc) / pcore) enabled)
  let quietJog := s.protDemand != 0
  let jog := if quietJog then 0 else path - (pnc + pcore * min n busy)
  let f := s.freeWord
  let s := f.2
  let s := s.pathReg path
  let s := (s.setRegN (pwrAt + 8) n).setRegN (pwrAt + 0xC)
    (jog / 1000000 % 65536 + (if jog = 0 then 0 else f.1.toNat % 4 + 1) * 65536)
  let s := s.putField pwrAt 7 7 (b2n s.staggerHold)
  (s.onPwr fun p => { p with path := some path, want := want, jogW := jog, exempt := false }).shareAllow n

/-- R507: where the sample that begins is booked. -/
def State.bookOpen (s : State) : State :=
  s.onPwr fun p => { p with
    bookHeat := if s.heat.running then some s.heat.num else none
    bookLine := s.phaseNow
    bookSuspend := s.pst != 0
    bookWide := decide (0 < max s.heat.wideFwd s.heat.wideBwd) }

/-- R480, R507: the measurement of the sample that ends: `uw` is its mean input power. -/
def State.sampleTake (s : State) (uw : Nat) : State :=
  let s := (s.setRegN (railInAt + 4) (uw / 1000000 % 65536)).setReg64 (pwrAt + 0x40) (s.now.toNat - 12500)
  let s := s.bookSample uw
  s.onPwr fun p => { p with samples := (uw :: p.samples).take 16
                            top := if s.heat.running then max p.top uw else p.top }

/-- R480, R485, R503: the controller acts on the sample and opens the next one. -/
def State.sample (s : State) (uw pnc pcore : Nat) : State :=
  let s := match s.pst, s.pwr.path with
    | 0, some q => s.backCheck uw q
    | _, _ => s
  let whole := decide (s.pwr.since.toNat + 12500 ≤ s.now.toNat) && s.quiet
  let s := match s.pst with
    | 1 => if whole && decide (uw ≤ (s.floorW + 10) * 1000000) then s.pwrHold 2 else s
    | 3 => if whole && decide (uw ≤ 100000000) then s.pwrHold 4 else s
    | _ => s
  let s := s.settleCheck.limitsDue.opUpdate true
  let s := if s.pst = 0 then s.pathStep uw pnc pcore
    else (((s.onPwr fun p => { p with path := none, jogW := 0 }).pathReg 0).setRegN (pwrAt + 8) 0).setRegN (pwrAt + 0xC) 0
  s.bookOpen

/-- R390, R403, R482, R484, R503, R505: the power commands that have begun end when what they asked for
holds. -/
def State.pwrDone (s : State) : State :=
  let s := if s.pst = 2 ∨ (s.pst = 4 ∧ s.wantPst = 4) then s.doneOf 0x0401 0 else s
  let s := if s.pst = 4 then s.doneOf 0x0402 0 else s
  let s := if s.pst = 0 then s.doneOf 0x0403 0 else s
  let s := if s.pwr.settling.isNone && s.pwr.nextBudget.isNone then s.doneOf 0x0400 0 else s
  if s.pwr.ceilWait || s.pwr.nextCeil.isSome then s else s.doneOf 0x0404 0

/-- R480: a sample ends now that has not been taken; R484: samples before commit are measured too. -/
def State.sampleDue (s : State) : Bool :=
  s.pins.powered && !s.pins.perst && decide (s.now.toNat % 12500 = 0 ∧ 12500 ≤ s.now.toNat)
    && (s.pwr.samples.isEmpty || s.reg64 (pwrAt + 0x40) + 12500 != s.now.toNat)

/-- POWER_SAMPLE (R480, R485): a sample boundary: the measured mean of the sample, p_nc and p_core, in µW. The controller
acts from the commit on (R481) and outside the safe state. -/
def execPowerSample (uw pnc pcore : Nat) (s : State) : Host.Outcome State Fault Refusal :=
  .next (if s.sampleDue then
    let s := s.sampleTake uw
    if s.regN 4 % 8 = 6 || !s.committed then s else (s.sample uw pnc pcore).pwrDone else s)

/-- FLOOR_LATE (R503): FLOOR has not been reached within 5 ms. -/
def execFloorLate (s : State) : Host.Outcome State Fault Refusal :=
  .next (
    let d := (s.now - s.pwr.since).toNat
    if (s.pst = 1 ∨ s.pst = 3) ∧ 500000 ≤ d ∧ ¬ s.pwr.late then
      ((s.onPwr fun p => { p with late := true }).raiseBits (pwrAt + 0x1C) 4).pwrEvent 0x0405 1
        (leBytes 4 (d - 500000))
    else s)

/-- R493: a stagger delay from tick `t` on. -/
def State.staggerFrom (s : State) (t : DWord) : State :=
  let n := s.regN (pwrAt + 0x18) % 16
  let s := s.onPwr fun p => { p with stagger := some (t + BitVec.ofNat 64 (n * 25000)) }
  s.putField pwrAt 7 7 (b2n s.staggerHold)

/-- LEAVING_DONE (R505): RUN holds: the sweep goes on, ports send all traffic, the stagger begins. -/
def execLeavingDone (s : State) : Host.Outcome State Fault Refusal :=
  .next (if s.pst = 5 then
    let s := ((s.setPst 0).sweepPause false).onPwr fun p => { p with path := none, exempt := true }
    let s := (s.staggerFrom s.now).pwrMove s.pwr.cause
    ((s.forAll (List.range 16) fun p s => s.pump p).twinStep).pwrDone
  else s)

/-- STAGGER_END (R493, R577): the delay has ended; the hold stays while WAKE_HOLD_N is low. -/
def execStaggerEnd (s : State) : Host.Outcome State Fault Refusal :=
  .next (match s.pwr.stagger with
    | some t => if t.toNat ≤ s.now.toNat then
        let s := s.onPwr fun p => { p with stagger := none }
        s.putField pwrAt 7 7 (b2n s.staggerHold)
      else s
    | none => s)

/-- WAKE_HOLD_N (R577): the pin's level. -/
def execWakeHoldN (level : Bool) (s : State) : Host.Outcome State Fault Refusal :=
  .next (
    let s := { s with pins := { s.pins with wakeHold := !level } }
    s.putField pwrAt 7 7 (b2n s.staggerHold))

/-- LONG_SLIVER (R504): a sliver has run longer than 1 ms. -/
def execLongSliver (c : Nat) (s : State) : Host.Outcome State Fault Refusal :=
  guarded (coreOk c) (
    let k := s.core c
    if k.inSliver && !k.longTold && decide (100000 < (s.now - k.tookAt).toNat) then
      ((s.onCore c fun k => { k with longTold := true }).raiseBits (pwrAt + 0x1C) 8).pwrEvent 0x0406 1
        (leBytes 4 c ++ leBytes 4 (s.regN (ctlAt c + 0x20)))
    else s)

/-- R491: nothing keeps the pod on: its cores are parked and idle, it has no home core, its shuttle holds no
accepted descriptor. -/
def State.podIdle (s : State) (p : Nat) : Bool :=
  (s.podCores p).all (fun c => s.parkBit c && !(s.core c).inSliver && !s.homeCore c)
    && (List.range 18).all fun k => (Tab.get s.shu (18 * p + k) {}).active.isNone

/-- POD_GATE_OFF (R491): the pod gates. -/
def execPodGateOff (p : Nat) (s : State) : Host.Outcome State Fault Refusal :=
  guarded (decide (p < 384)) (
    if s.regN (podPwrAt p) % 4 = 2 ∧ s.podIdle p then s.putField (podPwrAt p) 1 0 0 else s)

/-- R473: the pods next to pod `p` of the same die. -/
def adjacentPods (p : Nat) : List Nat :=
  (List.range 12).filterMap fun q =>
    let r := max (p % 12 / 4) (q / 4) - min (p % 12 / 4) (q / 4)
    let c := max (p % 4) (q % 4) - min (p % 4) (q % 4)
    if r + c = 1 then some (p / 12 * 12 + q) else none

/-- POD_TURN_ON (R473, R491, R492): a gated pod whose allowance has become nonzero turns on with a wake token;
one that finds none waits and is counted. -/
def execPodTurnOn (p : Nat) (s : State) : Host.Outcome State Fault Refusal :=
  guarded (decide (p < 384)) (
    let d := p / 12
    let allowed := (s.podCores p).any fun c => !s.parkBit c
    let spent := Tab.get s.pwr.tokens d []
    if !(s.regN (podPwrAt p) % 4 == 0 && s.pst == 0 && allowed && s.committed && s.regN 4 % 8 != 6) || s.rails.droop == some (d / 2) then s
    else if 2 ≤ spent.length then
      if s.pwr.tokenWait.contains p then s
      else (s.onPwr fun x => { x with tokenWait := x.tokenWait ++ [p] }).count (pwrAt + 0x28) 1
    else
      let slow := (adjacentPods p).any fun q =>
        decide (9 * s.regN (podPwrAt q + 0xC) ≤ 10 * (s.regN (podPwrAt q + 8) % 2 ^ 13)) || s.regN (podPwrAt q) % 4 == 1
      let s := s.onPwr fun x => { x with
        tokens := Tab.set x.tokens d (spent ++ [s.now]), tokenWait := x.tokenWait.filter (· != p) }
      let s := ((s.putField (podPwrAt p) 1 0 1).putField (podPwrAt p) 2 2 (b2n slow)).count (podPwrAt p + 0x34) 1
      if slow then s.count (podPwrAt p + 0x38) 1 else s)

/-- SOFT_START_DONE (R473): the pod is on. -/
def execSoftStartDone (p : Nat) (s : State) : Host.Outcome State Fault Refusal :=
  guarded (decide (p < 384)) (
    if s.regN (podPwrAt p) % 4 = 1 then s.putField (podPwrAt p) 1 0 2 else s)

/-- WAKE_TOKEN_RETURN (R491): a token returns 3,200 T-ticks after it was spent. -/
def execWakeTokenReturn (die : Nat) (s : State) : Host.Outcome State Fault Refusal :=
  guarded (decide (die < 32)) (
    match Tab.get s.pwr.tokens die [] with
    | t :: rest => if 3200 ≤ (s.now - t).toNat then
        s.onPwr fun x => { x with tokens := Tab.set x.tokens die rest } else s
    | [] => s)

/-- SYNTHETIC_ARRAY_PASS (R494, R495, R496): a jog pass ends: its products count; nothing else changes. -/
def execSyntheticArrayPass (c arr products : Nat) (s : State) : Host.Outcome State Fault Refusal :=
  guarded (coreOk c && decide (arr < 2)) (
    if s.coreExists c && s.podOn (corePod c) && s.pst == 0 && s.protDemand == 0 && !s.parkBit c && !s.coreBusy c then
      (s.count64 (arrAt c arr + 0x20) products).onPwr fun p => { p with jogProd := p.jogProd + products }
    else s)

/-- R499: class of a PHASE of R348. -/
def paceClass (phase : Nat) : Nat :=
  match phase with
  | 0 => 0
  | 1 => 1
  | 3 => 2
  | _ => 3

/-- R499: slack and phase time of the PHASE entries of the attempt, with their classes. -/
def State.slacks (s : State) : List (Nat × Nat × Nat) :=
  let es := (List.range s.hrdCount).filter fun e => s.hrdKind e == 1 && decide (0 < (s.hrd e).epoch)
  es.map fun e =>
    let h := s.hrd e
    let prev := (es.map fun x => (s.hrd x).doneTick.toNat).foldl
      (fun m t => if t < h.doneTick.toNat then max m t else m) s.heat.startTick.toNat
    (paceClass (s.hrdPhase e), h.lastLatest.toNat - h.lastA.toNat, h.doneTick.toNat - prev)

/-- R500: one class after a commit. -/
def State.paceOne (s : State) (k : Nat) : State :=
  let xs := s.slacks.filter (·.1 == k)
  if xs.isEmpty then s
  else
    let op := s.classOp k
    let cnt := bits (s.regN (pwrAt + 0x10)) (17 + 2 * k) (16 + 2 * k)
    let setCnt := fun (s : State) (n : Nat) => s.putField (pwrAt + 0x10) (17 + 2 * k) (16 + 2 * k) n
    let step := fun (s : State) (n : Nat) =>
      if n = op then s
      else (s.putField (pwrAt + 0x10) (3 * k + 2) (3 * k) n).pwrEvent 0x0407 0 (leBytes 4 (k + n * 16))
    if xs.any fun x => decide (100 * x.2.1 < x.2.2) then step (setCnt s 0) (max (s.prefOp k) (op - 1))
    else if xs.all fun x => decide (x.2.2 < 20 * x.2.1) then
      if cnt = 2 then step (setCnt s 0) (min (s.slowOp k) (op + 1)) else setCnt s (cnt + 1)
    else setCnt s 0

/-- R500: JOB_LOAD and JOB_REPLACE reset the pacer. -/
def State.paceReset (s : State) : State :=
  s.setRegN (pwrAt + 0x10) (s.prefOp 0 + s.prefOp 1 * 8 + s.prefOp 2 * 64 + s.prefOp 3 * 512)

/-- R508: the array counters of the device: products, zero-gated, idle. -/
def State.arrayCounts (s : State) : Nat × Nat × Nat :=
  let sum := fun o => (s.allCores.map fun c => s.reg64 (arrAt c 0 + o) + s.reg64 (arrAt c 1 + o)).sum
  (sum 0x20 - s.pwr.jogProd, sum 0x28, sum 0x30)

/-- R508: the ledger record of the heat in progress as it stands. -/
def State.ledgerNow (s : State) : Ledger :=
  let n := s.arrayCounts
  let b := s.pwr.startCnt
  { s.pwr.cur with
    attempts := s.heat.attempt + 1, wide := max s.heat.wideFwd s.heat.wideBwd
    products := n.1 - b.1, zeroGated := n.2.1 - b.2.1, idleSlots := n.2.2 - b.2.2 }

/-- R507: a heat's ledger opens. -/
def State.ledgerOpen (s : State) : State :=
  s.onPwr fun p => { p with cur := { heat := s.heat.num, world := s.job.world }, startCnt := s.arrayCounts, attE := 0, top := 0 }

/-- R490, R493, R500, R501, R507: what a commit at tick `c` does in the power controller. -/
def State.pwrCommit (s : State) (c : DWord) : State :=
  let critical := s.slacks.any fun x => decide (100 * x.2.1 < x.2.2)
  let freed := if !s.budgetMode || critical then 0 else s.pwr.budget - s.pwr.top / 1000000
  let l := { s.ledgerNow with committed := true }
  let s := s.onPwr fun p => { p with past := (p.past ++ [l]).drop (p.past.length + 1 - 256), cur := {}, rot := p.rot + 1 }
  let s := s.forAll (List.range 4) fun k s => s.paceOne k
  (s.setRegN (pwrAt + 0x14) freed).staggerFrom c

/-- R472, R515: a pod's ceilings are enforced; one that would park a home core voids the attempt and stops the
job. -/
def State.enforceCeil (s : State) (p : Nat) : State :=
  let a := s.podCeil p
  let homes := ((s.podCores p).filter s.homeCore).length
  let open_ := ((s.podCores p).filter fun c => !s.parkBit c).length
  let s := s.onPwr fun x => { x with exempt := true }
  if s.pst ≠ 0 then s
  else if open_ ≤ a then s
  else s.parkPod p (max homes a)

end Sys2Proof.Machine
end

