-- ==== Sys2Proof/Machine/Heat.lean ====
section
/-!
DEFINITION. Heats and attempts (R32 to R37): the sweep's blocks (R194), the start of an attempt, the void and its
rollback (R548), the commit, the progress timer (R536), the stop of a job (R401, R541).
-/
namespace Sys2Proof.Machine

/-- The heat changed. -/
def State.onHeat (s : State) (f : Heat → Heat) : State := { s with heat := f s.heat }

/-- R209, R558: a mirror record of a TWIN shard can leave at once: a credit of the mirror VC, none queued. -/
def State.mirrorOpen (s : State) (i : Nat) : Bool :=
  !s.shTwin i || (match s.routeTo s.twin.node with
    | some e =>
      let x := s.port (rPort e)
      decide (0 < x.credit.getD 3 0) && !x.outq.any fun m => m.1 == 3
    | none => true)

/-- R194, R209: the next block of unit `u`: undo slot, update, writes, and the mirror record. -/
def State.sweepBlock (s : State) (u : Nat) : State :=
  match (s.unit u).cur with
  | none => s
  | some i =>
    if !(s.heat.running && s.heat.voids.isEmpty && !s.sweepPaused && s.unitState u == 3 && s.mirrorOpen i) then s
    else
      let k := s.cursorLo i
      let gr := s.gradStage i k
      let s := s.sweepOne u i k gr true
      let s := if s.shTwin i && s.heat.voids.isEmpty then s.sendMirror i k gr else s
      s.twinStep

/-- SWEEP_BLOCK (R194). -/
def execSweepBlock (u : Nat) (s : State) : Host.Outcome State Fault Refusal :=
  guarded (decide (u < 16)) (s.sweepBlock u)

/-- SCALE_BOOK_WRITE (R207). -/
def execScaleBookWrite (s : State) : Host.Outcome State Fault Refusal :=
  .next (if s.bookReady && !s.sweepPaused then s.bookWrite.twinStep else s)

/-- R105, R153: CORE_HEAT and CORE_WIDE of every enabled core. -/
def State.coreLevels (s : State) : State :=
  s.forAll s.allCores fun c s =>
    (s.setRegN (ctlAt c + 0x1C) s.heat.num).setRegN (ctlAt c + 0x44) (s.heat.wideFwd + 4 * s.heat.wideBwd)

/-- R162: every element of every home is +0. -/
def State.homesClear (s : State) : State :=
  s.forAll (List.range (s.jobF 0x24 4)) fun i s => s.arrive (s.homeAddr i) (List.replicate 4096 0)

/-- R139: the dies load TEXP and ERR_SCALE of the first 65,536 entries. -/
def State.bookLoad (s : State) : State :=
  { s with job := { s.job with
      book := (List.range (min 65536 (s.jobF 0x20 3))).map fun t => (t, s.sbTexp t, s.sbErr t) } }

/-- R357: a port that no rerun could use is a Crimson fault; one that is down or training holds the attempt. -/
def State.portsCheck (s : State) : State :=
  match s.jobPorts.find? fun p => s.linkState p == 5 || s.linkState p == 0 with
  | some p => s.jobCrimson 0x021A s.hubSource (leBytes 4 (p + s.linkState p * 16))
  | none => s.onHeat fun h => { h with held := !s.portsWait.isEmpty }

/-- R36, R237, R411: an attempt may start: no lost state is still being pulled. -/
def State.attemptDue (s : State) : Bool :=
  !(s.twin.pulls.any (·.why == .lost)) &&
  s.job.loaded && s.heat.active && !s.heat.running && !s.heat.rolling && !s.heat.stopNow && !s.shuBusy
    && decide (s.heat.attempt < 3) && decide (s.evt.queue.length ≤ 448)

/-- R103, R146: the untaken records of one pod's ring whose sliver belongs to a phase. -/
def State.podSlivers (s : State) (p : Nat) (bwd : Bool) : Nat :=
  let head := s.reg (slvAt p + 8)
  let n := if s.regN (slvAt p + 4) = 0 then 0 else (s.reg (slvAt p + 0xC) - head).toNat
  ((List.range n).filter fun i =>
    let pos := (head.toNat + i) % 2 ^ 32
    !(s.pod p).taken.contains pos && bit (s.word (s.slvRec p pos + 4) 4) 21 == bwd).length

/-- R103: the slivers of a phase that are queued on the device. -/
def State.queuedSlivers (s : State) (bwd : Bool) : Nat :=
  ((List.range 384).map fun p => s.podSlivers p bwd).sum

/-- R32, R35, R103, R105, R139, R162, R173, R181, R232, R349, R357, R536: an attempt starts. -/
def State.attemptStart (s : State) : State :=
  let s := s.onHeat fun h => { h with
    running := true, ochres := 0, unrec := 0, startTick := s.now, finish := none, held := false
    fwdDone := false, bwdDone := false, rsDone := false, sweepBegun := false, sweepDone := false, digestDone := false
    fwdPlanned := s.queuedSlivers false, fwdRepeated := 0, bwdPlanned := s.queuedSlivers true, bwdRepeated := 0
    fwdN8 := false, bwdN8 := false, levelFwd := h.wideFwd, levelBwd := h.wideBwd, stormFwd := false, stormBwd := false }
  let s := s.relayVoid.gatesReset.hurdlesReset.twinVoid
  let s := { s with sweep := {}, stash := {}, pool := { s.pool with
      issued := [], mark0 := none, mark1 := none, lastMark := 0, reqs := [] } }
  let s := if s.heat.attempt = 0 then s.ledgerOpen else s
  let s := ((s.scratchPin 1 s.homeUnits).scratchPin 0 s.cursorUnits).coreLevels.homesClear.bookLoad
  s.ringShow.progress.stashWalk.portsCheck

/-- ATTEMPT_START (R35). -/
def execAttemptStart (s : State) : Host.Outcome State Fault Refusal :=
  .next (if s.attemptDue then s.attemptStart else s)

/-- R548 step 2: every core that has run stops. -/
def State.coresHalt (s : State) : State := s.forAll (s.cores.map (·.1)) fun c s => s.coreHalt c

/-- R530: the first fault of the attempt: by stamp, then SOURCE. -/
def State.firstFault (s : State) : Option VoidFault :=
  s.heat.voids.foldl (fun m v => match m with
    | none => some v
    | some x => if v.tick.toNat < x.tick.toNat ∨ (v.tick = x.tick ∧ v.source < x.source) then some v else some x) none

/-- R37: a fault of the attempt is stamped before its commit tick. -/
def State.voidDue (s : State) : Bool :=
  s.heat.voids.any fun v => s.heat.finish.all fun c => decide (v.tick.toNat < c.toNat)

/-- R548 steps 2 to 6: what the units let go of. -/
def State.voidUnits (s : State) : State :=
  let s := s.coresHalt.shuVoid.relayVoid
  let s := (s.forAll (List.range 16) fun u s => s.unitRestore u).amaxClear
  let s := ({ s with pool := { s.pool with reqs := [] } }).stashClear.poolDrop fun e =>
    !(e.client == 0 || (e.client == 3 && e.tag == 0))
  s.twinVoid.progressOff

/-- R548: the attempt is voided: HEAT_VOID (which reports a fault, so not for a JOB_STOP, log 38), the broadcast,
steps 2 to 6. -/
def State.heatVoid (s : State) (f : VoidFault) : State :=
  let s := if f.cmd then s else s.raiseJob 0x0201 2 s.hubSource (leBytes 4 f.code ++ leBytes 4 s.heat.unrec)
  let s := if f.code = 0x0219 then s
    else s.voidSend 0 (s.self (s.hrdGroup s.finishEntry)) s.heat.num s.heat.attempt
  let s := s.onHeat fun h => { h with
    running := false, rolling := true, held := false, voids := [], finish := none
    causes := h.causes ++ [f.code], rollbacks := h.rollbacks + 1
    resSlots := h.resSlots ++ [s.stash.resSlots], peaks := h.peaks ++ [s.stash.peak] }
  let s := s.onPwr fun p => { p with
    cur := { p.cur with voided := p.cur.voided + p.attE }, attE := 0 }
  s.voidUnits

/-- HEAT_VOID (R548; held until RUN entry, R506). -/
def execHeatVoid (s : State) : Host.Outcome State Fault Refusal :=
  .next (match s.firstFault with
    | some f => if s.heat.running && s.voidDue && s.pst == 0 then s.heatVoid f else s
    | none => s)

/-- R401, R541: the job stops: JOB_STOPPED, the pending JOB_STOP ends, a park that a Crimson fault asks for. -/
def State.jobStopped (s : State) : State :=
  let park := s.heat.parkAsked
  let s := s.onHeat fun h => { h with
    active := false, stopping := false, stopNow := false, parkAsked := false, endless := false, left := 0, voids := [] }
  let s := (s.raiseJob 0x0209 0 s.hubSource (leBytes 4 s.lastHeat)).doneOf 0x0202 0
  let s := s.onTwin fun t => { t with stopAsked := false }
  if park then s.cmdPark else s

/-- R202, R237, R548 step 7: the rollback is done: cursors and rings reset, the attempt count rises, lost state is
pulled; the third void
raises HEAT_LIMIT (R36, R541), also where a JOB_STOP caused it. -/
def State.rollbackDone (s : State) : State :=
  let s := ((s.sweepReset true).onHeat fun h => { h with rolling := false, attempt := h.attempt + 1 }).lostPull
  if 3 ≤ s.heat.attempt ∧ s.heat.active then s.jobCrimson 0x020A s.hubSource (leBytes 4 (s.heat.causes.getD 2 0)) else s

/-- ROLLBACK_DONE (R202, R271, R36): the end of a rollback, and of a stop that waits for it. -/
def execRollbackDone (s : State) : Host.Outcome State Fault Refusal :=
  .next (
    let s := if s.heat.rolling && !s.shuBusy then s.rollbackDone else s
    if s.heat.active && !s.heat.running && !s.heat.rolling && s.heat.stopNow then s.jobStopped else s)

/-- R408: the record of the heat in progress. -/
def State.heatRec (s : State) : HeatRec :=
  let h := s.heat
  { heat := h.num, world := s.job.world, attempts := min 3 (h.attempt + b2n h.running), wide := max h.wideFwd h.wideBwd
    fwdPlanned := h.fwdPlanned, fwdRepeated := h.fwdRepeated, bwdPlanned := h.bwdPlanned, bwdRepeated := h.bwdRepeated
    fullSlots := s.stash.fullSlots, anchorSlots := s.stash.anchorSlots
    resSlots := h.resSlots ++ (if h.running then [s.stash.resSlots] else [])
    peaks := h.peaks ++ (if h.running then [s.stash.peak] else [])
    rollbacks := h.rollbacks, restarts := h.restartsAt, causes := h.causes }

/-- R410, R414: an event of the job with the tick of its happening. -/
def State.raiseJobAt (s : State) (t : DWord) (code shade : Nat) (detail : List Byte) : State :=
  let w := s.job.world
  let e := { s.event code shade s.hubSource detail with tick := t }
  (s.logEvent (w == .ivory) (w == .sable) e).ringPut w e

/-- R37: the commit may be written: the tick is reached and no fault precedes it. -/
def State.commitDue (s : State) : Option DWord :=
  match s.heat.finish with
  | some c => if s.heat.running && decide (c.toNat ≤ s.now.toNat) && !s.voidDue then some c else none
  | none => none

/-- R35, R37, R105, R204, R225, R559: the heat commits at tick `c`. -/
def State.heatCommit (s : State) (c : DWord) : State :=
  let n := s.heat.num
  let s := s.raiseJobAt c 0x0200 0 (leBytes 8 c.toNat)
  let r := { s.heatRec with committed := true, tick := c }
  let s := ({ s with pool := { s.pool with reqs := [] } }).sweepReset false
  let s := s.stashClear.poolDrop fun e => e.client != 3
  let s := s.progressOff
  let s := (s.pwrCommit c).onHeat fun h => { h with
    running := false, finish := none, last := some n, lastTick := c
    recs := (h.recs ++ [r]).drop (h.recs.length + 1 - 256)
    num := (n + 1) % 2 ^ 32, attempt := 0, left := h.left - b2n (!h.endless)
    wideFwd := 0, wideBwd := 0, causes := [], resSlots := [], peaks := [], rollbacks := 0, restartsAt := 0, startTick := c
    ochres := 0, unrec := 0 }
  let s := (s.forAll s.allCores fun k s => s.setRegN (ctlAt k + 0x44) 0).twinCommit n
  if s.heat.stopping || s.heat.stopNow || s.twin.stopAsked || n == 0xFFFFFFFF || (!s.heat.endless && s.heat.left == 0) then
    s.jobStopped
  else s

/-- HEAT_COMMIT (R37, R353). -/
def execHeatCommit (s : State) : Host.Outcome State Fault Refusal :=
  .next (match s.commitDue with
    | some c => s.heatCommit c
    | none => s)

/-- PROGRESS_TIMEOUT (R536, R357). -/
def execProgressTimeout (s : State) : Host.Outcome State Fault Refusal :=
  .next (
    let e := s.reg64 (safAt s.actHub + 0x20)
    if !(s.heat.running && e != 0 && decide (e ≤ s.now.toNat)) then s
    else
      let s := s.progressOff
      match s.heat.held, s.portsWait with
      | true, p :: _ => s.jobCrimson 0x021A s.hubSource (leBytes 4 (p + s.linkState p * 16))
      | _, _ => s.ochre s.job.world 0x0627 2 s.hubSource
          (leBytes 8 (s.phaseNow + 1) ++ leBytes 8 (e - s.hrdTicks)))

end Sys2Proof.Machine
end

