-- ==== Sys2Proof/Machine/Safe.lean ====
section
/-!
DEFINITION. The safe state (R523, R538, R539), a pod that goes dark (R471), the loss of power (R454, R524, R535).
-/
namespace Sys2Proof.Machine

/-- R370: HIF_STATE. -/
def State.hif (s : State) : Nat := s.regN 4 % 8
/-- R370: HIF_STATE set. -/
def State.setHif (s : State) (n : Nat) : State := s.setRegN 4 n
/-- R539: the device is in the safe state. -/
def State.safe (s : State) : Bool := s.hif == 6

/-- R546: a safety function has reacted; both hubs' monitors show it. -/
def State.latchSf (s : State) (n : Nat) : State :=
  if n = 0 then s else s.forAll [0, 1] fun h s => s.raiseBits (safAt h + 4) (2 ^ (n - 1))

/-- R523: what every unit does at safe-state entry: cores and shuttles stop, the VOID broadcast leaves, every port goes
down with cause 8 and holds down, every pod gates. The voided attempt is not rolled back. -/
def State.safeUnits (s : State) : State :=
  let s := { s.coresHalt with shu := [], cqs := [] }
  let s := if s.heat.running then
      s.voidSend 0 (s.self (s.hrdGroup s.finishEntry)) s.heat.num s.heat.attempt else s
  let s := s.onHeat fun h => { h with
    active := false, running := false, rolling := false, held := false, stopNow := false, stopping := false
    parkAsked := false, voids := [], finish := none, left := 0, endless := false }
  let s := s.forAll (List.range 16) fun p s => s.setHold p true
  (s.forAll ((List.range 384).filter fun p => s.regN (podPwrAt p) % 4 != 3) fun p s =>
    s.putField (podPwrAt p) 1 0 0).progressOff

/-- R538, R539, R393: the device enters the safe state with a cause; a cause that comes later is latched only. -/
def State.safeEnter (s : State) (cause sf : Nat) : State :=
  let s := s.latchSf sf
  if s.safe then s
  else
    let s := s.forAll [0, 1] fun h s => s.setRegN (safAt h + 8) (3 + cause * 2 ^ 16)
    let s := ((s.setHif 6).raiseHub 0x0600 3 (leBytes 4 cause)).safeUnits
    s.abortDeferred.ibi 2

/-- R538: a Crimson fault of the device: its event, then the safe state. -/
def State.devCrimson (s : State) (code sf src : Nat) (w : World) (detail : List Byte) : State :=
  (s.raise w code 3 src detail).safeEnter code sf

/-- R401, R471: the job stops as JOB_STOP with NOW set would, after a fault that voids the attempt. -/
def State.stopJobNow (s : State) : State :=
  s.onHeat fun h => { h with stopping := true, stopNow := true, left := 0, endless := false }

/-- R471: the pod goes dark: gate open, cores stop with their work discarded, POD_DARK, the attempt void and the job
stopped. -/
def State.goDark (s : State) (p : Nat) : State :=
  if s.podDark p then s
  else
    let s := s.forAll (s.podCores p) fun c s => s.coreHalt c
    let s := ((s.onPod p fun q => { q with dark := true }).putField (podPwrAt p) 1 0 3).shuDark p
    let ran := s.heat.running
    let s := s.ochre (s.podWorld p) 0x0603 1 (blkSource 0x10) (leBytes 4 (podDetail p))
    if ran then s.stopJobNow else s

/-- R454, R524, R535: every rail is removed: the device holds no state; the pins, the host's memory, the sideband's
latch and the clock of the model stay. -/
def State.powerOff (s : State) (trip : Bool) : State :=
  { State.reset with
    pending := s.pending, now := 0, hostMem := s.hostMem, free := s.free
    pins := { s.pins with powered := false, pwrGood := false, tripped := s.pins.tripped || trip, uvWarn := false } }

end Sys2Proof.Machine
end

