-- ==== Sys2Proof/Machine/Rails.lean ====
section
/-!
DEFINITION. Rails, droop, phases, slices, cracks, the input (R450 to R476, R533, R534). What a sensor or monitor
measures is the command's operand (log 13).
-/
namespace Sys2Proof.Machine

/-- The rails' record changed. -/
def State.onRails (s : State) (f : Rails → Rails) : State := { s with rails := f s.rails }

/-- R475: the target of a group in mV. -/
def State.railTarget (s : State) (g : Nat) : Nat := s.regN (railAt g + 8) % 1024

/-- R462: a reading at tick `t` enters the group's two records of the lowest reading. -/
def State.minv (s : State) (g mv sensor : Nat) (t : DWord) : State :=
  let b := railAt g
  let s := if mv < s.regN (b + 0xC) % 1024 then
      (s.setRegN (b + 0xC) (mv + sensor * 2 ^ 16)).setReg64 (b + 0x10) t.toNat
    else s
  if mv < s.regN (b + 0x1C) % 1024 then s.setRegN (b + 0x1C) mv else s

/-- R460, R474: the reading of a VCORE sensor shows in its pod's register. -/
def State.sense (s : State) (g sensor mv : Nat) : State :=
  if g < 16 then s.setRegN (podPwrAt (24 * g + sensor / 4) + 0x10 + 4 * (sensor % 4)) mv else s

/-- R461: the set point after a window whose lowest reading is `mv`. -/
def nextSetPoint (target sp mv : Nat) : Nat :=
  if mv < target + 5 then min (target + 60) (sp + 2)
  else if target + 15 < mv then max (target + 10) (sp - 2)
  else sp

/-- RAIL_SETPOINT_WINDOW (R461, R462): the window that ends now; the tick of its lowest reading is a free value
of the window. -/
def execRailSetpointWindow (g mv sensor : Nat) (s : State) : Host.Outcome State Fault Refusal :=
  guarded (decide (g < 26) && decide (sensor < railSensors g) && decide (mv < 1024)) (
    let again := (Tab.get? s.rails.wins g).any fun w => w.2 == s.now
    if !s.pins.powered || s.now.toNat % 1000 != 0 || s.now == 0 || s.railTarget g == 0 || again then s
    else
      let f := s.freeWord
      let s := f.2.minv g mv sensor (s.now - 1000 + BitVec.ofNat 64 (f.1.toNat % 1000))
      let s := s.onRails fun r => { r with wins := Tab.set r.wins g (mv, s.now) }
      if decide (g < 16) && s.pwr.slew.isSome then s
      else
        let t := s.railTarget g
        let sp := s.regN (railAt g + 4) % 1024
        let s := if mv < t + 5 ∧ sp = t + 60 then s.raiseBits (railAt g + 0x30) 8 else s
        s.setRegN (railAt g + 4) (nextSetPoint t sp mv))

/-- FAST_DROOP_START (R464, R465). -/
def execFastDroopStart (g sensor mv : Nat) (s : State) : Host.Outcome State Fault Refusal :=
  guarded (decide (g < 16) && decide (sensor < 96) && decide (mv < 1024)) (
    if s.pins.powered && s.rails.droop.isNone && decide (mv + 25 < s.railTarget g) then
      (((s.minv g mv sensor s.now).sense g sensor mv).onRails fun r => { r with droop := some g }).count (railAt g + 0x24) 1
    else s)

/-- FAST_DROOP_END (R464, R465): with the root edges that the event has added, at most 64. -/
def execFastDroopEnd (skips : Nat) (s : State) : Host.Outcome State Fault Refusal :=
  guarded (decide (skips ≤ 64)) (
    match s.rails.droop with
    | some g => (s.onRails fun r => { r with droop := none }).count64 (railAt g + 0x28) skips
    | none => s)

/-- R412: DETAIL of a rail's reading. -/
def floorDetail (g sensor mv : Nat) : List Byte := leBytes 4 (g + sensor * 2 ^ 16) ++ leBytes 4 mv

/-- R534, R545: DROOP_FLOOR, Ochre in a heat and Grey otherwise. -/
def State.droopEvent (s : State) (g sensor mv : Nat) : State :=
  s.ochre (s.edgeWorld 0) 0x0622 1 (blkSource 0x10) (floorDetail g sensor mv)

/-- R534: a VCORE reading below floor: the third within 100,000,000 ticks puts the device in the safe state. -/
def State.vcoreFloor (s : State) (g sensor mv : Nat) : State :=
  let s := s.forAll [0, 1] fun h s => s.count (safAt h + 0x1C) 1
  let old := s.rails.floors
  let third := decide (2 ≤ old.length) && decide ((s.now - old.getD (old.length - 2) 0).toNat < 100000000)
  let s := s.onRails fun r => { r with floors := (r.floors ++ [s.now]).drop (r.floors.length + 1 - 3) }
  let s := (s.droopEvent g sensor mv).latchSf 4
  if third then s.safeEnter 0x0622 4 else s

/-- DROOP_FLOOR (R463, R534). -/
def execDroopFloor (g sensor mv : Nat) (s : State) : Host.Outcome State Fault Refusal :=
  guarded (decide (g < 26) && decide (sensor < railSensors g) && decide (mv < 1024)) (
    if !(s.pins.powered && decide (mv + 60 < s.railTarget g)) then s
    else
      let s := ((s.minv g mv sensor s.now).sense g sensor mv).raiseBits (railAt g + 0x30) 4
      if g < 16 then s.vcoreFloor g sensor mv
      else (s.droopEvent g sensor mv).safeEnter 0x0622 4)

/-- R472: a pod's electrical ceiling is the lowest that applies. -/
def State.elecCeil (s : State) (p : Nat) : State :=
  let w := s.regN (podPwrAt p + 4)
  let low := [bits w 9 5, bits w 14 10, bits w 19 15].foldl (fun m x => if x = 0 then m else min m x) 16
  s.putField (podPwrAt p + 4) 4 0 low

/-- R472: the ceiling of a pod would park a home core. -/
def State.ceilShort (s : State) (p : Nat) : Bool :=
  decide (s.podCeil p < ((s.podCores p).filter s.homeCore).length)

/-- R472: an event that lowers the ceilings of some pods: where a home core would have to park it voids the attempt and
stops the job; the ceilings are enforced. -/
def State.ceilEvent (s : State) (ps : List Nat) (w : World) (code : Nat) (detail : List Byte) : State :=
  let short := s.heat.running && ps.any s.ceilShort
  let s := if short then (s.ochre w code 1 (blkSource 0x10) detail).stopJobNow
    else s.raise w code 1 (blkSource 0x10) detail
  s.forAll ps fun p s => s.enforceCeil p

/-- PHASE_LOST (R456). -/
def execPhaseLost (g ph : Nat) (s : State) : Host.Outcome State Fault Refusal :=
  guarded (decide (g < 26) && decide (ph < railPhases g)) (
    if !s.pins.powered || s.rails.lost.contains (32 * g + ph) then s
    else
      let s := s.onRails fun r => { r with lost := r.lost ++ [32 * g + ph] }
      let n := (s.rails.lost.filter fun x => x / 32 == g).length
      let k := railPhases g - n
      let s := (s.raiseBits (railAt g + 0x30) 1).putField (railAt g) 15 8 k
      let d := leBytes 4 (g + ph * 256)
      if k = 0 ∨ (16 ≤ g ∧ 1 < n) then (s.raise (s.edgeWorld 0) 0x0410 1 (blkSource 0x10) d).safeEnter 0x0410 0
      else if 16 ≤ g then s.raise (s.edgeWorld 0) 0x0410 1 (blkSource 0x10) d
      else
        let ps := (List.range 24).map fun i => 24 * g + i
        let s := s.forAll ps fun p s => (s.putField (podPwrAt p + 4) 19 15 (4 * k)).elecCeil p
        s.ceilEvent ps (s.edgeWorld 0) 0x0410 d)

/-- RAIL_OVERCURRENT (R455, R531 SF2): `da` is the group's current in 0.1 A. -/
def execRailOvercurrent (g da : Nat) (s : State) : Host.Outcome State Fault Refusal :=
  guarded (decide (g < 26) && decide (da < 65536)) (
    if s.pins.powered && decide (11 * railCap g < da) then
      let s := ((s.setRegN (railAt g + 0x20) da).raiseBits (railAt g + 0x30) 2).setRegN (railAt g + 4) 0
      s.devCrimson 0x0620 2 (blkSource 0x10) (s.edgeWorld 0) (leBytes 4 g ++ leBytes 4 da)
    else s)

/-- R533: the limit that SF2 compares with: the previous one until the lowered ceiling holds on every core. -/
def State.podLimit (s : State) (p : Nat) : Nat :=
  let now := s.regN (podPwrAt p + 0xC) % 8192
  let busy := (s.podCores p).filter fun c => !s.parkBit c || (s.core c).inSliver
  match Tab.get? s.rails.prev p with
  | some (l, _) => if busy.length ≤ s.podCeil p then now else l
  | none => now

/-- POD_OVERCURRENT (R531 SF2, R533): `ma` is the pod's current in mA. -/
def execPodOvercurrent (p ma : Nat) (s : State) : Host.Outcome State Fault Refusal :=
  guarded (decide (p < 384) && decide (ma < 8192)) (
    if s.pins.powered && !s.podDark p && decide (s.podLimit p < ma) then
      let s := ((s.setRegN (podPwrAt p + 8) ma).raiseBits (podPwrAt p + 0x30) 8).latchSf 2
      (s.raise (s.podWorld p) 0x0621 1 (blkSource 0x10) (leBytes 4 (podDetail p) ++ leBytes 4 ma)).goDark p
    else s)

/-- R469: the pod's current limit, from its good slices and a suspected crack; the old one is kept for R533. -/
def State.lowerLimit (s : State) (p : Nat) : State :=
  let old := s.regN (podPwrAt p + 0xC)
  let l := 600 * (8 - Tab.get s.rails.slices p 0)
  let l := if bits (s.regN (podPwrAt p + 4)) 14 10 = 0 then l else min l 2400
  if l < old then
    (s.onRails fun r => { r with prev := Tab.set r.prev p (old, s.now) }).setRegN (podPwrAt p + 0xC) l
  else s

/-- SLICE_LOST (R470). -/
def execSliceLost (p : Nat) (s : State) : Host.Outcome State Fault Refusal :=
  guarded (decide (p < 384)) (
    if !s.pins.powered || s.podDark p then s
    else
      let lost := Tab.get s.rails.slices p 0 + 1
      let good := 8 - lost
      let s := s.onRails fun r => { r with slices := Tab.set r.slices p lost }
      let s := ((s.putField (podPwrAt p) 11 8 good).raiseBits (podPwrAt p + 0x30) 1).lowerLimit p
      let s := (s.putField (podPwrAt p + 4) 9 5 (2 * good)).elecCeil p
      let d := leBytes 4 (podDetail p + good * 2 ^ 16)
      if good < 4 then (s.raise (s.podWorld p) 0x0411 1 (blkSource 0x10) d).goDark p
      else s.ceilEvent [p] (s.podWorld p) 0x0411 d)

/-- POD_DARK (R471): the regulator controller of the pod fails. -/
def execPodDark (p : Nat) (s : State) : Host.Outcome State Fault Refusal :=
  guarded (decide (p < 384)) (
    if !s.pins.powered || s.podDark p then s else (s.raiseBits (podPwrAt p + 0x30) 2).goDark p)

/-- CRACK_MEASURE (R467): a static drop in mV in one current bin; eight high ones in a row are a suspected crack. -/
def execCrackMeasure (p bin drop : Nat) (s : State) : Host.Outcome State Fault Refusal :=
  guarded (decide (p < 384) && decide (bin < 4) && decide (drop < 256)) (
    if !(s.committed && s.podOn p && !s.podDark p && s.now.toNat % 100 == 0) then s
    else
      let a := podPwrAt p + 0x20 + 4 * bin
      let base := s.regN a % 256
      let n := if base + 12 < drop then Tab.get s.rails.cracks (4 * p + bin) 0 + 1 else 0
      let s := (s.putField a 15 8 drop).onRails fun r => { r with cracks := Tab.set r.cracks (4 * p + bin) n }
      if n < 8 ∨ bits (s.regN (podPwrAt p + 4)) 14 10 ≠ 0 then s
      else
        let s := (((s.putField (podPwrAt p + 4) 14 10 8).elecCeil p).lowerLimit p).raiseBits (podPwrAt p + 0x30) 4
        s.ceilEvent [p] (s.podWorld p) 0x0412
          (leBytes 4 (podDetail p + bin * 2 ^ 16) ++ leBytes 4 (base + drop * 256)))

/-- R462: MINV_RESET restarts the record. -/
def State.minvReset (s : State) (g : Nat) : State :=
  (s.setRegN (railAt g + 0xC) 0x3FF).setReg64 (railAt g + 0x10) 0

/-- EDG_RAIL_MINV_RESET (R462, R475). -/
def execEdgRailMinvReset (g : Nat) (s : State) : Host.Outcome State Fault Refusal :=
  guarded (decide (g < 26)) (s.minvReset g)

/-- INPUT_UV_WARN (R451): `cv` is the input in 10 mV. -/
def execInputUvWarn (cv : Nat) (s : State) : Host.Outcome State Fault Refusal :=
  guarded (decide (cv < 65536)) (
    if s.pins.powered && decide (cv < 3200) then
      let s := { s with pins := { s.pins with uvWarn := true } }
      ((s.putField railInAt 15 0 cv).raiseBits (railInAt + 8) 1).raise (s.edgeWorld 0) 0x0413 1 (blkSource 0x10)
        (leBytes 4 cv)
    else s)

/-- INPUT_UV_RECOVER (R451). -/
def execInputUvRecover (cv : Nat) (s : State) : Host.Outcome State Fault Refusal :=
  guarded (decide (cv < 65536)) (
    if s.pins.powered && decide (3250 ≤ cv) then
      ({ s with pins := { s.pins with uvWarn := false } }).putField railInAt 15 0 cv
    else s)

/-- INPUT_TRIP (R451, R535): every rail is removed. -/
def execInputTrip (cv : Nat) (s : State) : Host.Outcome State Fault Refusal :=
  guarded (decide (cv < 65536)) (
    if s.pins.powered && (decide (cv < 3000) || decide (4200 < cv)) then s.powerOff false else s)

/-- R452: nominal voltage of a group, VCORE at OP4 (R454). -/
def railNominal (g : Nat) : Nat := if g < 16 then 470 else if g < 18 then 700 else 750

/-- R454, R461: the rails are up: targets, and set points at a free place in their band. -/
def State.railsUp (s : State) : State :=
  s.forAll (List.range 26) fun g s =>
    let f := s.freeWord
    (f.2.setRegN (railAt g + 8) (railNominal g)).setRegN (railAt g + 4) (railNominal g + 10 + f.1.toNat % 51)

/-- RAIL_BRING_UP (R454, R576, R578): power comes up unless the trip's latch is set. -/
def execRailBringUp (cv : Nat) (s : State) : Host.Outcome State Fault Refusal :=
  guarded (decide (cv < 65536)) (
    if !s.pins.powered && !s.pins.tripped && decide (3200 ≤ cv) && decide (cv ≤ 4200) then
      ({ State.reset with
          pending := s.pending, hostMem := s.hostMem, free := s.free
          pins := { s.pins with powered := true, pwrGood := true } }).railsUp.putField railInAt 15 0 cv
    else s)

/-- PREVIOUS_LIMIT_END (R533): 100 ms after the limit was lowered. -/
def execPreviousLimitEnd (p : Nat) (s : State) : Host.Outcome State Fault Refusal :=
  guarded (decide (p < 384)) (
    match Tab.get? s.rails.prev p with
    | some (_, t) => if 10000000 ≤ (s.now - t).toNat then s.onRails fun r => { r with prev := Tab.del r.prev p } else s
    | none => s)

end Sys2Proof.Machine
end

