-- ==== Sys2Proof/Machine/Scrub.lean ====
section
/-!
DEFINITION. The HBM scrubber (R236, R238, R240): one sector of a stack at a time, in ascending stack-offset order.
-/
namespace Sys2Proof.Machine

/-- R220, R238: bytes of one stack. -/
def stackBytes : Nat := 0xA000000000 / 8

/-- R238: the scrubber moves on; behind the last sector of a stack a new pass begins. -/
def State.scrubMove (s : State) (k : Nat) : State :=
  let o := Tab.get s.scrub.next k 0 + 32
  let last := decide (stackBytes ≤ o)
  { s with scrub := {
      next := Tab.set s.scrub.next k (if last then 0 else o)
      hits := if last then s.scrub.hits.filter fun h => h.1.stack != k else s.scrub.hits } }

/-- R236, R238, R240: the scrubber reads the next sector of a stack: what it corrects it writes back, and a sector beyond
correction fails as under any read. -/
def State.scrubRead (s : State) (k : Nat) : State :=
  let a := s.stackAddr k (Tab.get s.scrub.next k 0)
  let s := if s.badEcc.contains a then s.eccVoid (s.memWorld a) (s.memSource a) a else s.mend a 32
  s.scrubMove k

/-- R236, R238: what the read of a sector meets besides the errors that the state holds (log 147). -/
def State.sectorMet (s : State) (a : Nat) : SectorMet → State
  | .sound => s
  | .corrected => if s.soft.contains a then s else s.strike false a
  | .lost => s.strike true a

/-- HBM_SCRUB (R236, R238, R240): the row names the sector by its stack offset, and does nothing when the scrubber is at
another (log 4). -/
def execHbmScrub (stack off : Nat) (met : SectorMet) (s : State) : Host.Outcome State Fault Refusal :=
  guarded (decide (stack < 8)) (if !s.pins.powered || Tab.get s.scrub.next stack 0 != off then s
    else (s.sectorMet (s.stackAddr stack off) met).scrubRead stack)

end Sys2Proof.Machine
end

