-- ==== Sys2Proof/Machine/Boot.lean ====
section
/-!
DEFINITION. Power-up (R416 to R430): the boot window's image, the checks of the boot ROM, the device identity, and
self-test (R15 to R19, R422 to R425, R239, R241, R466).
-/
namespace Sys2Proof.Machine

/-- What power-up left, changed. -/
def State.onBoot (s : State) (f : Boot → Boot) : State := { s with boot := f s.boot }

/-- The ASCII bytes of a text. -/
def ascii (t : String) : List Byte := t.toList.map fun c => BitVec.ofNat 8 c.toNat

/-- R365: where the boot window lies in BAR0. -/
def bootWin : Nat := 0x800000

/-- R418: HIF_BOOT_IMG_LEN and HIF_BOOT_HELPER_OFF. -/
def State.imgLen (s : State) : Nat := s.regN bootAt
/-- R418: HIF_BOOT_HELPER_OFF. -/
def State.helperOff (s : State) : Nat := s.regN (bootAt + 4)

/-- R420 check 1, R428: the lengths. -/
def bootLenOk (len off : Nat) (enrol : Bool) : Bool :=
  decide (len % 8 = 0 ∧ 0x100 ≤ len ∧ len ≤ 6 * 2 ^ 20)
    && (off == 0 || (decide (off % 64 = 0 ∧ len ≤ off ∧ off + 1152 ≤ 0x7FF000) && !enrol))

/-- R420 check 2: the header. -/
def bootHeadOk (img : List Byte) : Bool :=
  let w := fld img 4 4
  fld img 0 4 == 0x00014257 && bits w 3 0 == 1 && bits w 15 8 == 1 && bits w 7 4 == 0 && bits w 31 16 == 0
    && allZero (sub img 0x18 8) && allZero (sub img 0xC0 64) && 0x100 + fld img 0x10 4 == img.length
    && decide (fld img 0x14 4 < fld img 0x10 4)

/-- R420, R421: the RESULT of checks 2 to 6 of an image, in order. -/
def bootChecks (floor : Nat) (img : List Byte) : Nat :=
  if !bootHeadOk img then 3
  else if sha512 (sub img 0x20 32) ≠ leBytes 64 Config.vendorKeyHash.toNat then 4
  else if !edVerify (sub img 0x20 32) (sub img 0 0x80) (sub img 0x80 64) then 5
  else if sha512 (img.drop 0x100) ≠ sub img 0x40 64 then 6
  else if fld img 0xC 4 < floor then 7
  else 1

/-- R420: the RESULT of the checks of an image, in order. -/
def bootResult (len off floor : Nat) (enrol : Bool) (img : List Byte) : Nat :=
  if !bootLenOk len off enrol then 2 else bootChecks floor img

/-- R421, R538: HB's boot ROM refuses the copy: RESULT 0x08 and the safe state, with a cause that the spec gives no code
(log 24). -/
def State.standbyRefuses (s : State) : State :=
  let c := s.freeWord
  (c.2.setRegN (bootAt + 0xC) 8).safeEnter (c.1.toNat % 65536) 0

/-- R427: CHECK of a secret. -/
def secretCheck (sec : List Byte) : List Byte := sha512 (ascii "LMZ40 check" ++ sec)

/-- R427: the private seed that follows from a secret. -/
def identitySeed (sec : List Byte) : List Byte := (sha512 (sec ++ ascii "LMZ40 identity")).take 32

/-- R426, R427: the secret that a helper blob gives on this module, if its CHECK holds. -/
def blobSecret (b : List Byte) : Option (List Byte) :=
  let sec := fit 32 (Config.pufReconstruct (sub b 0x40 0x400))
  if fld b 0 4 = 0x00014850 ∧ fld b 4 4 = 1 ∧ allZero (sub b 8 0x38) ∧ secretCheck sec = sub b 0x440 64 then some sec
  else none

/-- R426, R428: the helper blob of a fresh secret. -/
def freshBlob (sec : List Byte) : List Byte :=
  leBytes 4 0x00014850 ++ leBytes 4 1 ++ List.replicate 0x38 0 ++ fit 0x400 (Config.pufOffset sec) ++ secretCheck sec

/-- R427 to R429: the identity: ID_STATE, and the seed in the key stores. -/
def State.identity (s : State) (enrol : Bool) (blob : List Byte) : State :=
  let set := fun (s : State) (st : Nat) (seed : Option (List Byte)) =>
    (s.putField (bootAt + 0xC) 9 8 st).onBoot fun b => { b with seed := seed }
  if enrol then
    let sec := leBytes 32 (Config.noise s.free).toNat
    let s := { s with free := s.free + 1
                      hubMem := Memory.writeN s.hubMem (bootAt + 0x40) (freshBlob sec) }
    set s 3 (some (identitySeed sec))
  else if s.helperOff = 0 then set s 2 none
  else match blobSecret blob with
    | some sec => set s 1 (some (identitySeed sec))
    | none => set s 2 none

/-- R416 steps 2 and 3, R420, R421, R427: GO: the copy of the image is verified by HA, then (checks 2 to 6) by HB, and the
firmware starts, or the image is refused. Ignored outside HIF_STATE 1 and 7 (R419). -/
def State.bootGo (s : State) (enrol : Bool) : State :=
  if s.hif ≠ 1 ∧ s.hif ≠ 7 then s
  else
    let off := s.helperOff
    let img := Memory.readN s.hubMem bootWin (min s.imgLen (6 * 2 ^ 20))
    let blob := Memory.readN s.hubMem (bootWin + off) 1152
    let r := bootResult s.imgLen off (s.regN (bootAt + 0x14)) enrol img
    let s := s.setRegN (bootAt + 0xC) r
    if r ≠ 1 then s.setHif 7
    else if bootChecks (s.regN (bootAt + 0x14)) img ≠ 1 then s.standbyRefuses
    else
      let s := (s.identity enrol blob).setRegN (bootAt + 0x10) (fld img 8 4)
      (s.onBoot fun b => { b with fwDigest := sha512 img, t3 := s.now }).setHif 3

/-- BOOT_GO (R416, R420): GO with ENROL clear. -/
def execBootGo (s : State) : Host.Outcome State Fault Refusal := .next (s.bootGo false)

/-- BOOT_ENROL (R428): GO with ENROL set. -/
def execBootEnrol (s : State) : Host.Outcome State Fault Refusal := .next (s.bootGo true)

/-- R418, R419: a write to a register of the boot control page. -/
def State.bootPut (s : State) (o : Nat) (v : Word) : State :=
  if s.hif ≠ 1 ∧ s.hif ≠ 7 then s
  else if o = bootAt + 8 then (if bit v.toNat 0 then s.bootGo (bit v.toNat 1) else s)
  else s.plainWrite o v

/-- SELFTEST_WINDOW_EXPIRY (R425): self-test starts with an empty hand-back list. -/
def execSelftestWindowExpiry (s : State) : Host.Outcome State Fault Refusal :=
  .next (if s.hif == 3 && !s.boot.testing && !(s.hub.deferred.any fun d => d.op == 0x900)
      && decide (100000000 ≤ (s.now - s.boot.t3).toNat) then
    s.onBoot fun b => { b with testing := true, handback := [] } else s)

/-- R15 to R18: the map word of a pod: the first 16 passing slots are enabled; a failing pod unit or no passing
slot makes the pod dark. -/
def mapWord (bad : List Nat) (dark : Bool) : Nat :=
  let l := ((List.range 17).filter fun k => !bad.contains k).take 16
  if dark ∨ l.isEmpty then 2 * 2 ^ 22
  else (l.map (2 ^ ·)).sum + l.length * 2 ^ 17 + (if l.length < 16 then 1 else 0) * 2 ^ 22

/-- R239: the entry of a row that self-test takes out of service: a spare of its pseudo-channel takes it, or with no spare
left its whole frame retires. -/
def retireEntry (l : List RetEntry) (r : RowId) (origin : Nat) : RetEntry :=
  if spareLeft l r then { row := r, kind := 0, origin := origin, frame := 0 }
  else { row := r, kind := 1, origin := origin, frame := Config.rowFrame r.stack r.pc r.bank r.row % 40960 }

/-- R239, R241, R424: the retirement list at the end of self-test: the handed-back rows (KIND 2 is ignored), which are not
tested, then the rows that failed a pattern; which of them get the spares is the model's choice (log 93). -/
def State.retireList (s : State) (r : SelfTest) : State :=
  let hand := s.boot.handback.filter fun e => e.kind != 2
  let own := r.rows.filter fun x => !hand.any fun e => e.row == x.row
  let add := fun (o : Nat) (l : List RetEntry) (e : RetEntry) =>
    if l.any fun x => x.row == e.row then l else insertRet (retireEntry l e.row o) l
  { s with retired := own.foldl (add 0) (hand.foldl (add 1) []) }

/-- R17, R422, R466, R474: a pod at the end of self-test: its slices and baselines, or dark with its event. -/
def State.podTested (s : State) (r : SelfTest) (p : Nat) : State :=
  if s.mapDark p then
    (s.putField (podPwrAt p) 1 0 3).raise (s.podWorld p) 0x0603 1 (blkSource 0x10) (leBytes 4 (podDetail p))
  else
    let s := s.putField (podPwrAt p) 11 8 8
    (r.baseline.filter fun b => b.1 == p).foldl (fun s b => s.putField (podPwrAt p + 0x20 + 4 * b.2.1) 7 0 b.2.2) s

/-- SELFTEST_DONE (R422, R423): the core map and the retirement list stand; HIF_STATE becomes 4, or the safe state
follows a failed unit; the SELFTEST command ends. -/
def execSelftestDone (r : SelfTest) (s : State) : Host.Outcome State Fault Refusal :=
  guarded (r.wf) (
    if !(s.hif == 3 && s.boot.testing) then s
    else
      let s := { s with coreMap := (List.range 384).map fun p =>
        (p, BitVec.ofNat 32 (mapWord ((r.badSlots.filter fun (x : Nat × Nat) => x.1 == p).map fun (x : Nat × Nat) => x.2) (r.badPods.contains p))) }
      let s := s.forAll (List.range 384) fun p s => s.podTested r p
      let s := s.retireList r
      match r.failed with
      | some u => s.devCrimson 0x062A 0 s.hubSource .ivory (leBytes 4 u)
      | none => (s.setHif 4).doneOf 0x900 0)

end Sys2Proof.Machine
end

