-- ==== Sys2Proof/Machine/Thermal.lean ====
section
/-!
DEFINITION. Temperature and coolant (R511 to R527): sensor pairs, the control loop, the coolant level, the sudden stop,
the critical trip. Readings are in 0.1 °C and are the commands' operands (log 13).
-/
namespace Sys2Proof.Machine

/-- The thermal controller changed. -/
def State.onThm (s : State) (f : Thm → Thm) : State := { s with thm := f s.thm }
/-- A hotspot. -/
def State.hot (s : State) (h : Nat) : Hot := Tab.get s.thm.hots h {}
/-- A hotspot changed. -/
def State.onHot (s : State) (h : Nat) (f : Hot → Hot) : State :=
  s.onThm fun t => { t with hots := Tab.set t.hots h (f (s.hot h)) }

/-- R511, R410: the world of a hotspot's block. -/
def State.hotWorld (s : State) (h : Nat) : World :=
  if h < 384 then s.podWorld h
  else if h < 392 then s.edgeWorld ((h - 384) / 2)
  else if h < 394 then .ivory
  else s.rvWorld (h - 394)

/-- R516, R527: THROTTLE, θ, DISAGREE. -/
def State.thrLimit (s : State) : Nat := bits (s.regN (thmAt + 0xC)) 11 0
/-- R516: the junction target. -/
def State.theta (s : State) : Nat := bits (s.regN (thmAt + 0xC)) 23 12
/-- R514: DISAGREE. -/
def State.disagree (s : State) : Nat := bits (s.regN (thmAt + 0xC)) 31 24
/-- R516: thermal demand. -/
def State.thmDemand (s : State) : Nat := bits (s.regN thmAt) 23 21
/-- R521: derate level. -/
def State.coolLevel (s : State) : Nat := bits (s.regN thmAt) 27 24

/-- R513: the control reading: the higher of the valid readings; none when nothing valid was read. -/
def Hot.control (h : Hot) : Option Nat :=
  if !h.read || (h.failA && h.failB) then none
  else some (max (if h.failA then 0 else h.a) (if h.failB then 0 else h.b))

/-- R527: EDG_THM_SEL_READ follows the selected hotspot. -/
def State.selRefresh (s : State) : State :=
  let n := s.regN (thmAt + 0x10) % 512
  let h := s.hot n
  s.setRegN (thmAt + 0x14) (if n < 396 then
    h.a % 4096 + h.b % 4096 * 2 ^ 12 + b2n h.flagged * 2 ^ 24 + b2n h.failA * 2 ^ 25 + b2n h.failB * 2 ^ 26 else 0)

/-- R513, R527: T_ctl and the hottest hotspot. -/
def State.tctlRefresh (s : State) : State :=
  let m := s.thm.hots.foldl (fun (m : Nat × Nat) h =>
    match h.2.control with
    | some c => if m.1 < c then (c, h.1) else m
    | none => m) (0, 0)
  let top := s.thm.hbm.foldl (fun x h => max x h.2) m.1
  (s.putField thmAt 11 0 (min top 4095)).putField thmAt 20 12 m.2

/-- R514: what the bands compare: a flagged hotspot outside the pods counts 5.0 °C more. -/
def State.tBand (s : State) : Nat :=
  let m := s.thm.hots.foldl (fun x h =>
    match h.2.control with
    | some c => max x (c + (if h.2.flagged && decide (384 ≤ h.1) then 50 else 0))
    | none => x) 0
  s.thm.hbm.foldl (fun x h => max x h.2) m

/-- R520: derate ceiling of a level. -/
def derateCeil (level : Nat) : Nat := match level with
  | 5 => 12
  | 6 => 8
  | 7 => 4
  | 8 => 0
  | _ => 16

/-- R515: a pod's thermal ceiling: the lower of flag and derate ceiling, never below its home cores. -/
def State.thmCeil (s : State) (p : Nat) : State :=
  let low := min (derateCeil s.coolLevel) (if (s.hot p).flagged then 12 else 16)
  let homes := ((s.podCores p).filter s.homeCore).length
  s.putField (podThmAt p + 8) 12 8 (max homes low)

/-- R514: the pair is flagged. -/
def State.flagPair (s : State) (h : Nat) : State :=
  if (s.hot h).flagged then s
  else
    let s := (s.onHot h fun x => { x with flagged := true }).raiseBits (thmAt + 0x18) 1
    let x := s.hot h
    let s := s.raise (s.hotWorld h) 0x0611 1 (blkSource 0x10) (leBytes 4 h ++ leBytes 4 (x.a % 4096 + x.b % 4096 * 2 ^ 16))
    if h < 384 then ((s.raiseBits (podThmAt h + 8) 1).thmCeil h).enforceCeil h else s

/-- R512: sensor A (0) or B (1) of a hotspot has failed. -/
def State.sensorFail (s : State) (h ab : Nat) : State :=
  let s := s.raiseBits (thmAt + 0x18) 2
  let s := if h < 384 then s.raiseBits (podThmAt h + 8) (2 + 2 * ab) else s
  s.raise (s.hotWorld h) 0x0612 1 (blkSource 0x10) (leBytes 4 (h + ab * 2 ^ 16))

/-- R511, R512, R514, R524: a reading of both sensors of a hotspot, with their converters' fault reports. -/
def State.reading (s : State) (h ra rb : Nat) (fa fb : Bool) : State :=
  let old := s.hot h
  let failA := old.failA || fa || (decide (1500 < ra) && decide (rb < 1000))
  let failB := old.failB || fb || (decide (1500 < rb) && decide (ra < 1000))
  let apart := decide (s.disagree < max ra rb - min ra rb)
  let new : Hot := { old with
    a := ra, b := rb, read := true, failA := failA, failB := failB
    since := if apart then some (old.since.getD s.now) else none
    tripA := if 1100 ≤ ra then old.tripA + 1 else 0
    tripB := if 1100 ≤ rb then old.tripB + 1 else 0
    hist := ((s.now, ra, rb) :: old.hist).take 27 }
  let s := s.onHot h fun _ => new
  let s := if h < 384 then
      (s.setRegN (podThmAt h) (ra + b2n (!failA) * 4096)).setRegN (podThmAt h + 4) (rb + b2n (!failB) * 4096)
    else s
  let s := if failA && !old.failA then s.sensorFail h 0 else s
  let s := if failB && !old.failB then s.sensorFail h 1 else s
  let long := new.since.any fun t => decide (1000000 < (s.now - t).toNat)
  let s := if long || failA || failB then s.flagPair h else s
  let s := s.selRefresh.tctlRefresh
  if failA && failB && !(old.failA && old.failB) then
    s.devCrimson 0x0629 0 (blkSource 0x10) (s.hotWorld h) (leBytes 4 h)
  else s

/-- SENSOR_READING (R511, R512, R514): every 1,000 T-ticks. -/
def execSensorReading (h ra rb : Nat) (fa fb : Bool) (s : State) : Host.Outcome State Fault Refusal :=
  guarded (decide (h < 396) && decide (ra < 4096) && decide (rb < 4096)) (
    if s.pins.powered && s.now.toNat % 1000 == 0 && !((s.hot h).hist.head?.any fun x => x.1 == s.now) then
      s.reading h ra rb fa fb else s)

/-- HBM_TEMPERATURE_READOUT (R513): the refresh that follows is the JEDEC standard's. -/
def execHbmTemperatureReadout (stack t : Nat) (s : State) : Host.Outcome State Fault Refusal :=
  guarded (decide (stack < 8) && decide (t < 4096)) (
    if s.pins.powered then (s.onThm fun x => { x with hbm := Tab.set x.hbm stack t }).tctlRefresh else s)

/-- R478, R479, R486: the protective demand has changed; the samples it lowers are exempt. -/
def State.protect (s : State) : State :=
  if s.safe || !s.committed then s
  else (s.onPwr fun p => { p with exempt := true }).opUpdate false

/-- R516, R525: the thermal demand steps to `n`. -/
def State.thmStep (s : State) (n : Nat) : State :=
  let old := s.thmDemand
  if n = old then s
  else
    let s := s.putField thmAt 23 21 n
    let s := if old < n then s.count (thmAt + 0x1C) 1 else s
    (s.raise (s.edgeWorld 0) 0x0610 0 (blkSource 0x10) (leBytes 4 (n + s.regN thmAt % 4096 * 2 ^ 16))).protect

/-- R517: the thermal floor begins or ends. -/
def State.thmFloor (s : State) (on : Bool) : State :=
  let s := s.onThm fun t => { t with cool200 := 0 }
  let s := (s.putField thmAt 28 28 (b2n on)).onPwr fun p => { p with thermHold := on }
  let s := if on then s.raiseBits (thmAt + 0x18) 0x10 else s
  let s := s.raise (s.edgeWorld 0) 0x0613 1 (blkSource 0x10) (leBytes 4 (b2n on))
  if s.safe || !s.committed then s else (s.pwrMove 0).pwrDone

/-- R516: the bands at a period's end. -/
def State.bands (s : State) : State :=
  let t := s.tBand
  let d := s.thmDemand
  let x := s.thm
  if s.thrLimit ≤ t then (s.onThm fun y => { y with warm := 0, cool := 0 }).thmStep (min 4 (d + 1))
  else if s.theta + 20 ≤ t then
    if 19 ≤ x.warm then (s.onThm fun y => { y with warm := 0, cool := 0 }).thmStep (min 4 (d + 1))
    else s.onThm fun y => { y with warm := y.warm + 1, cool := 0 }
  else if s.theta ≤ t + 30 then s.onThm fun y => { y with warm := 0, cool := 0 }
  else if 199 ≤ x.cool then (s.onThm fun y => { y with warm := 0, cool := 0 }).thmStep (d - 1)
  else s.onThm fun y => { y with warm := 0, cool := y.cool + 1 }

/-- R517: the counts behind the thermal floor. -/
def State.floorBands (s : State) : State :=
  let t := s.tBand
  let s := s.onThm fun y => { y with
    hot40 := if s.thmDemand = 4 ∧ s.thrLimit ≤ t then y.hot40 + 1 else 0
    cool200 := if s.pwr.thermHold && decide (t + 30 < s.theta) then y.cool200 + 1 else 0 }
  if 40 ≤ s.thm.hot40 ∧ ¬ s.pwr.thermHold then s.thmFloor true
  else if 200 ≤ s.thm.cool200 ∧ s.pwr.thermHold then s.thmFloor false
  else s

/-- R522: a sensor's reading now lies at least 0.8 °C above its own reading 250 µs earlier. -/
def Hot.rises (h : Hot) : Nat :=
  match h.hist with
  | [] => 0
  | (t, a, b) :: _ =>
    match h.hist.find? fun x => decide (x.1.toNat + 25000 ≤ t.toNat) with
    | some (_, a0, b0) => b2n (!h.failA && decide (a0 + 8 ≤ a)) + b2n (!h.failB && decide (b0 + 8 ≤ b))
    | none => 0

/-- R522, R523, R531 SF3: a sudden coolant stop; recognised once. -/
def State.coolStop (s : State) (how first : Nat) : State :=
  if bit (s.regN (safAt s.actHub + 4)) 2 then s
  else s.devCrimson 0x0617 3 (blkSource 0x10) (s.edgeWorld 0) (leBytes 4 how ++ leBytes 4 first)

/-- R522: two sensors rise together. -/
def State.rateCheck (s : State) : State :=
  let up := s.thm.hots.filter fun h => decide (0 < h.2.rises)
  if 2 ≤ (up.map fun h => h.2.rises).sum then s.coolStop 2 ((up.map (·.1)).headD 0) else s

/-- THERMAL_PERIOD (R516, R517, R522): the end of a control period. -/
def execThermalPeriod (s : State) : Host.Outcome State Fault Refusal :=
  .next (if s.pins.powered && s.now.toNat % 5000 == 0 && s.thm.period != some s.now then
    ((s.onThm fun t => { t with period := some s.now }).bands.floorBands).rateCheck else s)

/-- R518: required flow at an inlet temperature. -/
def State.flowReq (s : State) (inlet : Nat) : Nat :=
  s.thm.flowMin + 100 * ceilDiv (inlet - 400) 10

/-- R520: target level of a flow. -/
def flowTarget (flow req : Nat) : Nat :=
  ([100, 95, 90, 85, 80, 75, 70, 65].findIdx? fun k => decide (k * req ≤ flow * 100)).getD 8

/-- R521: the derate level moves toward a target, at a report or while reports are missing. -/
def State.derate (s : State) (target : Nat) : State :=
  let l := s.coolLevel
  let x := s.thm
  let gap := fun (t : Option DWord) (n : Nat) => t.all fun t => decide (n ≤ (s.now - t).toNat)
  let next := if l < target ∧ gap x.stepTick 10000000 then l + 1
    else if target < l ∧ x.below.isSome ∧ gap x.below 100000000 then l - 1 else l
  let s := s.onThm fun t => { t with
    below := if next ≤ target then none else if next < l then some s.now else some (t.below.getD s.now)
    stepTick := if next = l then t.stepTick else some s.now }
  if next = l then s
  else
    let s := ((s.putField thmAt 27 24 next).count (thmAt + 0x20) 1).raiseBits (thmAt + 0x18) 4
    let s := s.raise (s.edgeWorld 0) 0x0614 1 (blkSource 0x10)
      (leBytes 4 next ++ leBytes 4 (s.regN (thmAt + 4) % 65536 + s.regN (thmAt + 8) % 65536 * 65536))
    let s := s.forAll (List.range 384) fun p s => (s.thmCeil p).enforceCeil p
    let s := s.onPwr fun p => { p with coolHold := decide (next = 8) }
    if s.safe || !s.committed then s else (s.protect.pwrMove 0).pwrDone

/-- R518 to R521: COOLANT_REPORT's effect. -/
def State.coolReport (s : State) (flow inlet : Nat) : State :=
  let req := s.flowReq inlet
  let s := (s.setRegN (thmAt + 4) (flow + inlet * 65536)).setRegN (thmAt + 8) req
  let out := decide (inlet < 250) || decide (450 < inlet)
  let told := s.thm.inletTold
  let s := (s.putField thmAt 29 29 0).onThm fun t => { t with report := some s.now, inletTold := out }
  let s := if out && !told then
      (s.raiseBits (thmAt + 0x18) 0x20).raise (s.edgeWorld 0) 0x0616 1 (blkSource 0x10) (leBytes 4 inlet)
    else s
  s.derate (min 8 (flowTarget flow req + ceilDiv (inlet - 450) 10))

/-- COOLANT_STALE (R519): no report for 1 s: a target level of 4 until the next report. -/
def execCoolantStale (s : State) : Host.Outcome State Fault Refusal :=
  .next (
    let last := s.thm.report.getD 0
    if !(s.pins.powered && decide (100000000 ≤ (s.now - last).toNat)) then s
    else
      let s := if bit (s.regN thmAt) 29 then s
        else ((s.putField thmAt 29 29 1).raiseBits (thmAt + 0x18) 8).raise (s.edgeWorld 0) 0x0615 1 (blkSource 0x10)
          (leBytes 8 last.toNat)
      s.derate 4)

/-- FLOW_FAIL_N (R522, R575): the pin's level now; low for 500 T-ticks is a sudden stop. -/
def execFlowFailN (level : Bool) (s : State) : Host.Outcome State Fault Refusal :=
  .next (
    if level || !s.pins.powered then s.onThm fun t => { t with flowLow := none }
    else
      let t0 := s.thm.flowLow.getD s.now
      let s := s.onThm fun t => { t with flowLow := some t0 }
      if 500 ≤ (s.now - t0).toNat then s.coolStop 1 0 else s)

/-- R574, R578: the level of PWR_ALERT_N: low while an input warning or a guard breach lasts. -/
def State.pwrAlertN (s : State) : Bool := !(s.pins.uvWarn || s.pwr.breach)
/-- R574, R576: the level of THERM_TRIP_N: low once the critical trip has acted. -/
def State.thermTripN (s : State) : Bool := !s.pins.tripped

/-- CRITICAL_TRIP (R524, R531 SF1): four readings in a row at or above 110.0 °C remove every rail. -/
def execCriticalTrip (h : Nat) (s : State) : Host.Outcome State Fault Refusal :=
  guarded (decide (h < 396)) (
    if s.pins.powered && (decide (4 ≤ (s.hot h).tripA) || decide (4 ≤ (s.hot h).tripB)) then s.powerOff true else s)

/-- THERM_TRIP_N_CLEAR (R576): the input (10 mV units) falls below 5 V. -/
def execThermTripNClear (cv : Nat) (s : State) : Host.Outcome State Fault Refusal :=
  guarded (decide (cv < 65536)) (
    if cv < 500 ∧ ¬ s.pins.powered then { s with pins := { s.pins with tripped := false } } else s)

end Sys2Proof.Machine
end

