-- ==== Sys2Proof/Machine/Vector.lean ====
section
/-!
DEFINITION. The vector engine (R126 to R134): the effect of each operation. Its rows are in Units.lean.
-/
namespace Sys2Proof.Machine

/-- R128: the two-operand functions of VOP 0x00 to 0x06, with the old destination for VFMA. -/
def vBin (op : Nat) (a b d : Word) : Word :=
  match op with
  | 0 => fadd a b
  | 1 => fsub a b
  | 2 => fmul a b
  | 3 => ffma a b d
  | 4 => fmax a b
  | 5 => fmin a b
  | _ => b

/-- R128: the one-operand functions of VOP 0x08 to 0x0D. -/
def vUn (op : Nat) (a : Word) : Word :=
  match op with
  | 0x08 => fabs a
  | 0x09 => fneg a
  | 0x0A => vexp a
  | 0x0B => vlog a
  | 0x0C => vrsqrt a
  | _ => vrcp a

/-- R110: address of tile buffer `n` of a core. -/
def tileBase (c n : Nat) : Nat := coreBase c + 0xA8000 + 0x1000 * n

/-- R110: the 1,024 elements of a tile buffer. -/
def State.tile (s : State) (c n : Nat) : List Word :=
  (List.range 1024).map fun i => BitVec.ofNat 32 (s.word (tileBase c n + 4 * i) 4)

/-- R110: a tile buffer written. -/
def State.setTile (s : State) (c n : Nat) (t : List Word) : State := s.store (tileBase c n) (tileBytes t)

/-- R109: element `i` of V. -/
def Core.vAt (k : Core) (i : Nat) : Word := k.v.getD i 0

/-- R109: a mask register. -/
def Core.mask (k : Core) (m : Nat) : BitVec 1024 := k.masks.getD m 0

/-- R109: a mask register written. -/
def State.setMask (s : State) (c m : Nat) (v : BitVec 1024) : State :=
  s.onCore c fun k => { k with masks := setAt 0 k.masks m v }

/-- A mask from its bits. -/
def maskOf (f : Nat → Bool) : BitVec 1024 :=
  BitVec.ofNat 1024 ((List.range 1024).foldl (fun n i => n + b2n (f i) * 2 ^ i) 0)

/-- R126: operand B at element `e`, x[RS] being `x`. -/
def State.vBx (s : State) (c w : Nat) (x : Word) (tb : List Word) (e : Nat) : Word :=
  match vBc w with
  | 0 => tb.getD e 0
  | 1 => (s.core c).vAt (e % 32)
  | 2 => (s.core c).vAt (e / 32)
  | _ => x

/-- R126: operand B at element `e` as the core's registers stand. -/
def State.vB (s : State) (c w : Nat) (tb : List Word) (e : Nat) : Word := s.vBx c w (s.x c (vRs w)) tb e

/-- R127: the element is written: MEN clear, or its mask bit 1. -/
def State.vOn (s : State) (c w e : Nat) : Bool := !vMen w || ((s.core c).mask (vMk w)).getLsbD e

/-- R133: CORE_CNT_VLANE counts the lane operations of an instruction (log 19). -/
def State.lanes (s : State) (c n : Nat) : State := s.count64 (ctlAt c + 0x48) n

/-- R126, R127: a tile result: each element that is on takes its new value. -/
def State.vTile (s : State) (c w : Nat) (f : Nat → Word) : State :=
  let old := s.tile c (vTd w)
  (s.setTile c (vTd w) ((List.range 1024).map fun e =>
    if s.vOn c w e then f e else old.getD e 0)).lanes c 1024

/-- R126, R128: V written. With MEN set, which mask bit governs an element of V is not stated: each element
takes its new value or keeps its old one by a free choice that the mask register fixes (log 20; R150: never
by the order of instructions). -/
def State.vSetV (s : State) (c w : Nat) (f : Nat → Word) : State :=
  (s.onCore c fun k => { k with v := (List.range 32).map fun i =>
    if (!vMen w || Config.vElem (k.mask (vMk w)) i) then f i else k.vAt i }).lanes c 32

/-- VOP 0x00 to 0x06 (R128); the addend of the V form of VFMA is V itself. -/
def State.vBinary (s : State) (c : Nat) (q : QIns) : State :=
  let w := q.w
  let op := vOp w
  if vVr w then s.vSetV c w fun i => vBin op ((s.core c).vAt i) q.x1 ((s.core c).vAt i)
  else
    let ta := s.tile c (vTa w)
    let tb := s.tile c (vTb w)
    let td := s.tile c (vTd w)
    s.vTile c w fun e => vBin op (ta.getD e 0) (s.vBx c w q.x1 tb e) (td.getD e 0)

/-- VOP 0x08 to 0x0D (R128, R131). -/
def State.vUnary (s : State) (c : Nat) (q : QIns) : State :=
  let w := q.w
  let op := vOp w
  if vVr w then s.vSetV c w fun i => vUn op ((s.core c).vAt i)
  else
    let ta := s.tile c (vTa w)
    s.vTile c w fun e => vUn op (ta.getD e 0)

/-- VSEL (R128). -/
def State.vSelect (s : State) (c : Nat) (q : QIns) : State :=
  let w := q.w
  let ta := s.tile c (vTa w)
  let tb := s.tile c (vTb w)
  let m := (s.core c).mask (vMk w)
  s.vTile c w fun e => if m.getLsbD e then ta.getD e 0 else s.vBx c w q.x1 tb e

/-- A mask result. -/
def State.vMask (s : State) (c w : Nat) (f : Nat → Bool) : State :=
  (s.setMask c (vMk w) (maskOf f)).lanes c 1024

/-- The three comparisons (R128). -/
def State.vCompare (s : State) (c : Nat) (q : QIns) (cmp : Word → Word → Bool) : State :=
  let w := q.w
  let ta := s.tile c (vTa w)
  let tb := s.tile c (vTb w)
  s.vMask c w fun e => cmp (ta.getD e 0) (s.vBx c w q.x1 tb e)

/-- MAND, MOR, MXOR, MNOT (R128): a bitwise function of M[MK] and M[RS[3:0]]. RS[4] is ignored (DESIGN CHOICE: the
table uses RS[3:0] and names no outcome for the fifth bit, log 145). -/
def State.vMaskOp (s : State) (c w : Nat) (f : BitVec 1024 → BitVec 1024 → BitVec 1024) : State :=
  let k := s.core c
  (s.setMask c (vMk w) (f (k.mask (vMk w)) (k.mask (vRs w % 16)))).lanes c 1024

/-- MTRI (R128): bit (i, j) = 1 when j ≤ i + x[RS], signed. -/
def State.vTri (s : State) (c : Nat) (q : QIns) : State :=
  s.vMask c q.w fun e => decide (((e % 32 : Nat) : Int) ≤ ((e / 32 : Nat) : Int) + q.x1.toInt)

/-- MBOX (R128): bit (i, j) = 1 when i < x[RS][5:0] and j < x[RS][13:8]. -/
def State.vBox (s : State) (c : Nat) (q : QIns) : State :=
  s.vMask c q.w fun e => decide (e / 32 < bits q.x1.toNat 5 0 ∧ e % 32 < bits q.x1.toNat 13 8)

/-- R130: a reduction over rows (`rows`) or columns, masked elements as `z`. -/
def State.vReduce (s : State) (c w : Nat) (rows : Bool) (op : Word → Word → Word) (z : Word) : State :=
  let ta := s.tile c (vTa w)
  let v := (List.range 32).map fun i => tree32 op ((List.range 32).map fun j =>
    let e := if rows then 32 * i + j else 32 * j + i
    if s.vOn c w e then ta.getD e 0 else z)
  (s.onCore c fun k => { k with v := v }).lanes c 1024

/-- R63: a scale-book access of a core: the fault 26 where the entry is forbidden. -/
def State.withBook (s : State) (c t : Nat) (f : State → State) : State :=
  if s.sbOk t then f s else s.exception c 26 t

/-- VAMAX (R128, R60). -/
def State.vAmax (s : State) (c : Nat) (q : QIns) : State :=
  let t := q.x1.toNat
  if s.sbOk t then
    let ta := s.tile c (vTa q.w)
    let xs := (List.range 1024).filterMap fun e =>
      if s.vOn c q.w e then some (f32Val (ta.getD e 0)) else none
    (s.sbAmax t xs).lanes c 1024
  else s.exceptionAt c 26 t q.pc.toNat

/-- VGETR, VGETC (R128). -/
def State.vGet (s : State) (c : Nat) (q : QIns) (row : Bool) : State :=
  let ta := s.tile c (vTa q.w)
  let k := q.x1.toNat % 32
  s.vSetV c q.w fun i => ta.getD (if row then 32 * k + i else 32 * i + k) 0

/-- VPUTR, VPUTC (R128). -/
def State.vPut (s : State) (c : Nat) (q : QIns) (row : Bool) : State :=
  let td := s.tile c (vTd q.w)
  let k := q.x1.toNat % 32
  let core := s.core c
  s.vTile c q.w fun e =>
    if row then (if e / 32 = k then core.vAt (e % 32) else td.getD e 0)
    else (if e % 32 = k then core.vAt (e / 32) else td.getD e 0)

/-- VTRN (R128). -/
def State.vTrn (s : State) (c w : Nat) : State :=
  let ta := s.tile c (vTa w)
  s.vTile c w fun e => ta.getD (32 * (e % 32) + e / 32) 0

/-- R132: the random word of element `e` for a purpose and stream; `l` holds CORE_HEAT and CORE_RNG_TENSOR, LAP,
BASE_LO, BASE_HI and PITCH. -/
def State.randomOf (s : State) (l : List Nat) (purpose stream e : Nat) : Nat :=
  let r := fun i => l.getD i 0
  let idx := (r 3 + bits (r 4) 9 0 * 2 ^ 32 + e / 32 * r 5 + e % 32) % 2 ^ 42
  randomWord (s.jobF 0x8 8) (r 0) (bits (r 1) 23 0) purpose stream (bits (r 2) 11 0) idx

/-- R132: the random word of element `e` with the counter fields as the core's registers stand. -/
def State.vRandom (s : State) (c purpose stream e : Nat) : Nat :=
  s.randomOf ([0x1C, 0x30, 0x34, 0x38, 0x3C, 0x40].map fun o => s.regN (ctlAt c + o)) purpose stream e

/-- VDROP (R70, R132). The counter fields are those of the instruction's issue (log 136). -/
def State.vDrop (s : State) (c : Nat) (q : QIns) : State :=
  s.vMask c q.w fun e => decide (s.randomOf q.rng 2 0 e < q.x1.toNat)

/-- R132: (word >> 8) × 2^−24 as F32. -/
def unitWord (r : Nat) : Word := (FVal.fin false (r / 256) (-24)).toF32

/-- VRAND (R132). -/
def State.vRand (s : State) (c : Nat) (q : QIns) : State :=
  s.vTile c q.w fun e => unitWord (s.randomOf q.rng 3 (bits (q.rng.getD 2 0) 19 12) e)

end Sys2Proof.Machine
end

