-- ==== Sys2Proof/Machine/Units.lean ====
section
/-!
DEFINITION. The unit queues at work (R116, R117, R121): issue, the order in which queued instructions run, the rows of
the array and vector instructions, HEAD_RELEASE (R94 to R96), and the scale-book instructions (R139).
-/
namespace Sys2Proof.Machine

/-- R128: the effect of a vector instruction by its VOP. -/
def State.vecEffect (s : State) (c : Nat) (q : QIns) : State :=
  match vOp q.w with
  | 0x00 => s.vBinary c q
  | 0x01 => s.vBinary c q
  | 0x02 => s.vBinary c q
  | 0x03 => s.vBinary c q
  | 0x04 => s.vBinary c q
  | 0x05 => s.vBinary c q
  | 0x06 => s.vBinary c q
  | 0x07 => s.vSelect c q
  | 0x08 => s.vUnary c q
  | 0x09 => s.vUnary c q
  | 0x0A => s.vUnary c q
  | 0x0B => s.vUnary c q
  | 0x0C => s.vUnary c q
  | 0x0D => s.vUnary c q
  | 0x10 => s.vCompare c q flt
  | 0x11 => s.vCompare c q fle
  | 0x12 => s.vCompare c q feq
  | 0x18 => s.vMaskOp c q.w (· &&& ·)
  | 0x19 => s.vMaskOp c q.w (· ||| ·)
  | 0x1A => s.vMaskOp c q.w (· ^^^ ·)
  | 0x1B => s.vMaskOp c q.w fun _ b => ~~~ b
  | 0x1C => s.vMask c q.w fun _ => true
  | 0x1D => s.vTri c q
  | 0x1E => s.vBox c q
  | 0x20 => s.vReduce c q.w true fadd 0
  | 0x21 => s.vReduce c q.w true fmax 0xFF800000
  | 0x22 => s.vReduce c q.w false fadd 0
  | 0x23 => s.vReduce c q.w false fmax 0xFF800000
  | 0x24 => s.vAmax c q
  | 0x28 => s.vGet c q true
  | 0x29 => s.vGet c q false
  | 0x2A => s.vPut c q true
  | 0x2B => s.vPut c q false
  | 0x2C => s.vTrn c q.w
  | 0x30 => s.vDrop c q
  | 0x31 => s.vRand c q
  | _ => s

/-- R121, R128: the effect of an instruction in unit `u` of a core. -/
def State.unitEffect (s : State) (c u : Nat) (q : QIns) : State :=
  match kop q.w with
  | .acfg => s.acfgRun c u q
  | .lds => s.ldsRun c u q
  | .stream => s.streamExec c u q
  | .promote => s.promoteRun c u q
  | .drain => s.drainExec c u q
  | .qstore => s.qstoreExec c u q
  | .vec _ => s.vecEffect c q
  | _ => s

/-- R94, R95: the bank of the pass that is held at the head. -/
def Arr.heldBank (r : Arr) : Option Nat :=
  match r.tok, r.held with
  | some k, _ => some k.bank
  | none, some h => some (bits h.ctrl 13 13)
  | none, none => none

/-- R84, R92, R94: an instruction at the front of an array's queue may run: an LDS once the on-deck set is free; behind a
pass held at the head everything but a STREAM and what uses the bank of that pass (DESIGN CHOICE, log 10). -/
def Arr.ready (r : Arr) (q : QIns) : Bool :=
  match kop q.w with
  | .lds => !r.onDeck.valid
  | .stream => r.heldBank.isNone
  | .promote => !bit q.w 30 || r.heldBank != some (bits q.w 29 29)
  | .drain => r.heldBank != some (bits q.w 30 30)
  | _ => true

/-- R116, R117: the instruction may run now, being the first of its unit: its unit is ready for it, no earlier access of
the core blocks it, and no repeat trap or halt is pending. -/
def State.mayRun (s : State) (c u : Nat) (q : QIns) : Bool :=
  let k := s.core c
  k.trap.isNone && s.coreState c != 3 && (u == 2 || (s.arr c u).ready q) && k.clear q.seq q.reads q.writes

/-- R116: the queued instruction that runs next: the earliest-issued first of a unit that may run. -/
def State.nextRun (s : State) (c : Nat) : Option (Nat × QIns) :=
  ([0, 1, 2].filterMap fun u => match s.unitQ c u with
    | q :: _ => if s.mayRun c u q then some (u, q) else none
    | [] => none).foldl (fun m x => match m with
      | some y => if x.2.seq < y.2.seq then some x else some y
      | none => some x) none

/-- R116: queued instructions run while one may; `n` bounds their number. -/
def State.unitsRunN (c : Nat) : Nat → State → State
  | 0, s => s
  | n + 1, s =>
    match s.nextRun c with
    | none => s
    | some (u, q) => State.unitsRunN c n ((s.setUnitQ c u (s.unitQ c u).tail).unitEffect c u q)

/-- R116, R154: what the queues of a core can do now; a stop that waited for it takes effect. -/
def State.unitsRun (s : State) (c : Nat) : State :=
  (State.unitsRunN c ((s.unitQ c 0).length + (s.unitQ c 1).length + (s.unitQ c 2).length) s).stopIfDone c

/-- R116: an instruction joins its unit's queue. -/
def State.enqueue (s : State) (c u : Nat) (q : QIns) : State :=
  (s.setUnitQ c u (s.unitQ c u ++ [q])).onCore c fun k => { k with seq := k.seq + 1 }

/-- R116, R120: the instruction retires unless it halted the core or set the repeat trap. -/
def State.retireUnit (s : State) (c : Nat) : State :=
  if s.coreState c = 3 ∨ (s.core c).trap.isSome then s else s.retire c 0 0

/-- R116, R117: an array or vector instruction issues: it runs at once when its unit's queue is empty and nothing holds
it; else it is queued, and the core goes on; with eight queued the core stalls. A full queue behind a starved head
ends in handoff empty (R96). -/
def State.issue (s : State) (c u w : Nat) : State :=
  let q := s.qins c w
  if (s.unitQ c u).isEmpty && s.mayRun c u q then (s.unitEffect c u q).retireUnit c
  else if 8 ≤ (s.unitQ c u).length then (if u < 2 && (s.arr c u).starved then s.starve c u else s.wait c)
  else (s.enqueue c u q).retire c 0 0

/-- ACFG (R122): PROMO_INT, MOVE_FMT, STAT_FMT, CONV, STRIDE and BANK from rs1; WIDE never. -/
def execAcfg (c : Nat) (s : State) : Host.Outcome State Fault Refusal :=
  guarded (coreOk c) (kernelRow c (· == .acfg) (fun w s => s.issue c (iArr w) w) s)

/-- LDS (R92, R122). -/
def execLds (c : Nat) (s : State) : Host.Outcome State Fault Refusal :=
  guarded (coreOk c) (kernelRow c (· == .lds) (fun w s => s.issue c (iArr w) w) s)

/-- STREAM (R76, R122). -/
def execStream (c : Nat) (s : State) : Host.Outcome State Fault Refusal :=
  guarded (coreOk c) (kernelRow c (· == .stream) (fun w s => s.issue c (iArr w) w) s)

/-- PROMOTE (R88, R122): the promotion interval; with CLEAR the named bank is cleared. -/
def execPromote (c : Nat) (s : State) : Host.Outcome State Fault Refusal :=
  guarded (coreOk c) (kernelRow c (· == .promote) (fun w s => s.issue c (iArr w) w) s)

/-- DRAIN (R84, R89, R98). -/
def execDrain (c : Nat) (s : State) : Host.Outcome State Fault Refusal :=
  guarded (coreOk c) (kernelRow c (· == .drain) (fun w s => s.issue c (iArr w) w) s)

/-- QSTORE (R125). -/
def execQstore (c : Nat) (s : State) : Host.Outcome State Fault Refusal :=
  guarded (coreOk c) (kernelRow c (· == .qstore) (fun w s => s.issue c (iArr w) w) s)

/-- R122: AWAIT waits for its array, then brings ARR_STATUS to rd; a starved array raises handoff empty (R96). -/
def State.awaitExec (s : State) (c a rd : Nat) : State :=
  if (s.arr c a).starved then s.starve c a
  else if (s.arr c a).idle then s.retire c rd (s.reg (arrAt c a + 8))
  else s.wait c

/-- AWAIT (R122). -/
def execAwait (c : Nat) (s : State) : Host.Outcome State Fault Refusal :=
  guarded (coreOk c) (kernelRow c (· == .await) (fun w s => s.awaitExec c (iArr w) (iRd w)) s)

/-- R94 to R96: HEAD_RELEASE: with the on-deck set complete, the head lets go: a held token's wavefront accumulates and
the sets swap; a STREAM that waited for its first set swaps and runs. A token that finds no on-deck set and no LDS
on its way raises handoff empty. `n` is the number of cycles of holding. -/
def State.headRelease (s : State) (c a n : Nat) : State :=
  let r := s.arr c a
  match r.tok with
  | some k =>
    if r.onDeck.valid then
      ((((s.tokenEnters c a k).swapSets c a).count64 (arrAt c a + 0x38) n).count64
        (arrAt c a + 0x30) (1024 * n)).unitsRun c
    else if r.starved && s.coreState c != 3 then s.starve c a
    else s
  | none => match r.held with
    | none => s
    | some h =>
      if r.onDeck.valid then ((s.setArr c a { r with held := none }).streamRun c a h).unitsRun c else s

/-- HEAD_RELEASE (R94, R95). -/
def execHeadRelease (c arr held : Nat) (s : State) : Host.Outcome State Fault Refusal :=
  guarded (coreOk c && decide (arr < 2)) (if s.coreExists c then s.headRelease c arr held else s)

/-- A vector row: the instruction at the pc has the row's VOP. -/
def vRow (c op : Nat) (s : State) : Host.Outcome State Fault Refusal :=
  guarded (coreOk c) (kernelRow c (· == .vec op) (fun w s => s.issue c 2 w) s)

/-- VADD (R128). -/
def execVadd (c : Nat) (s : State) : Host.Outcome State Fault Refusal := vRow c 0x00 s
/-- VSUB (R128). -/
def execVsub (c : Nat) (s : State) : Host.Outcome State Fault Refusal := vRow c 0x01 s
/-- VMUL (R128). -/
def execVmul (c : Nat) (s : State) : Host.Outcome State Fault Refusal := vRow c 0x02 s
/-- VFMA (R128). -/
def execVfma (c : Nat) (s : State) : Host.Outcome State Fault Refusal := vRow c 0x03 s
/-- VMAX (R129). -/
def execVmax (c : Nat) (s : State) : Host.Outcome State Fault Refusal := vRow c 0x04 s
/-- VMIN (R129). -/
def execVmin (c : Nat) (s : State) : Host.Outcome State Fault Refusal := vRow c 0x05 s
/-- VMOV (R128). -/
def execVmov (c : Nat) (s : State) : Host.Outcome State Fault Refusal := vRow c 0x06 s
/-- VSEL (R128). -/
def execVsel (c : Nat) (s : State) : Host.Outcome State Fault Refusal := vRow c 0x07 s
/-- VABS (R128). -/
def execVabs (c : Nat) (s : State) : Host.Outcome State Fault Refusal := vRow c 0x08 s
/-- VNEG (R128). -/
def execVneg (c : Nat) (s : State) : Host.Outcome State Fault Refusal := vRow c 0x09 s
/-- VEXP (R131). -/
def execVexp (c : Nat) (s : State) : Host.Outcome State Fault Refusal := vRow c 0x0A s
/-- VLOG (R131). -/
def execVlog (c : Nat) (s : State) : Host.Outcome State Fault Refusal := vRow c 0x0B s
/-- VRSQRT (R131). -/
def execVrsqrt (c : Nat) (s : State) : Host.Outcome State Fault Refusal := vRow c 0x0C s
/-- VRCP (R131). -/
def execVrcp (c : Nat) (s : State) : Host.Outcome State Fault Refusal := vRow c 0x0D s
/-- VCLT (R128). -/
def execVclt (c : Nat) (s : State) : Host.Outcome State Fault Refusal := vRow c 0x10 s
/-- VCLE (R128). -/
def execVcle (c : Nat) (s : State) : Host.Outcome State Fault Refusal := vRow c 0x11 s
/-- VCEQ (R128). -/
def execVceq (c : Nat) (s : State) : Host.Outcome State Fault Refusal := vRow c 0x12 s
/-- MAND (R128). -/
def execMand (c : Nat) (s : State) : Host.Outcome State Fault Refusal := vRow c 0x18 s
/-- MOR (R128). -/
def execMor (c : Nat) (s : State) : Host.Outcome State Fault Refusal := vRow c 0x19 s
/-- MXOR (R128). -/
def execMxor (c : Nat) (s : State) : Host.Outcome State Fault Refusal := vRow c 0x1A s
/-- MNOT (R128). -/
def execMnot (c : Nat) (s : State) : Host.Outcome State Fault Refusal := vRow c 0x1B s
/-- MSET (R128). -/
def execMset (c : Nat) (s : State) : Host.Outcome State Fault Refusal := vRow c 0x1C s
/-- MTRI (R128): bit (i, j) = 1 when j ≤ i + x[RS], signed. -/
def execMtri (c : Nat) (s : State) : Host.Outcome State Fault Refusal := vRow c 0x1D s
/-- MBOX (R128). -/
def execMbox (c : Nat) (s : State) : Host.Outcome State Fault Refusal := vRow c 0x1E s
/-- VRSUMR (R130). -/
def execVrsumr (c : Nat) (s : State) : Host.Outcome State Fault Refusal := vRow c 0x20 s
/-- VRMAXR (R130). -/
def execVrmaxr (c : Nat) (s : State) : Host.Outcome State Fault Refusal := vRow c 0x21 s
/-- VRSUMC (R130). -/
def execVrsumc (c : Nat) (s : State) : Host.Outcome State Fault Refusal := vRow c 0x22 s
/-- VRMAXC (R130). -/
def execVrmaxc (c : Nat) (s : State) : Host.Outcome State Fault Refusal := vRow c 0x23 s
/-- VAMAX (R60, R128). -/
def execVamax (c : Nat) (s : State) : Host.Outcome State Fault Refusal := vRow c 0x24 s
/-- VGETR (R128). -/
def execVgetr (c : Nat) (s : State) : Host.Outcome State Fault Refusal := vRow c 0x28 s
/-- VGETC (R128). -/
def execVgetc (c : Nat) (s : State) : Host.Outcome State Fault Refusal := vRow c 0x29 s
/-- VPUTR (R128). -/
def execVputr (c : Nat) (s : State) : Host.Outcome State Fault Refusal := vRow c 0x2A s
/-- VPUTC (R128). -/
def execVputc (c : Nat) (s : State) : Host.Outcome State Fault Refusal := vRow c 0x2B s
/-- VTRN (R128). -/
def execVtrn (c : Nat) (s : State) : Host.Outcome State Fault Refusal := vRow c 0x2C s
/-- VDROP (R70, R132). -/
def execVdrop (c : Nat) (s : State) : Host.Outcome State Fault Refusal := vRow c 0x30 s
/-- VRAND (R132). -/
def execVrand (c : Nat) (s : State) : Host.Outcome State Fault Refusal := vRow c 0x31 s

/-- R139: TEXP of a tensor as the kernel reads it: the die's copy below 65,536, else HBM. -/
def State.bookTexp (s : State) (t : Nat) : Int :=
  match Tab.get? s.job.book t with
  | some p => p.1
  | none => s.sbTexp t

/-- R139: ERR_SCALE of a tensor as the kernel reads it. -/
def State.bookErr (s : State) (t : Nat) : Word :=
  match Tab.get? s.job.book t with
  | some p => p.2
  | none => s.sbErr t

/-- SB_TEXP (R139). -/
def execSbTexp (c : Nat) (s : State) : Host.Outcome State Fault Refusal :=
  guarded (coreOk c) (kernelRow c (· == .sbTexp) (fun w s =>
    let t := (s.x c (iRs1 w)).toNat
    s.withBook c t fun s => s.retire c (iRd w) (BitVec.ofInt 32 (s.bookTexp t))) s)

/-- SB_ERRS (R139). -/
def execSbErrs (c : Nat) (s : State) : Host.Outcome State Fault Refusal :=
  guarded (coreOk c) (kernelRow c (· == .sbErrs) (fun w s =>
    let t := (s.x c (iRs1 w)).toNat
    s.withBook c t fun s => s.retire c (iRd w) (s.bookErr t)) s)

/-- SB_READ (R139): the word of the entry at a byte offset 0x00 to 0x7C, a multiple of 4. -/
def execSbRead (c : Nat) (s : State) : Host.Outcome State Fault Refusal :=
  guarded (coreOk c) (kernelRow c (· == .sbRead) (fun w s =>
    let t := (s.x c (iRs1 w)).toNat
    let o := (s.x c (iRs2 w)).toNat
    if 0x7C < o ∨ o % 4 ≠ 0 then s.exception c 2 w
    else s.withBook c t fun s =>
      s.retire c (iRd w) (BitVec.ofNat 32 (s.word (s.sbAddr t + o) 4))) s)

/-- SB_AMAX (R139). -/
def execSbAmax (c : Nat) (s : State) : Host.Outcome State Fault Refusal :=
  guarded (coreOk c) (kernelRow c (· == .sbAmax) (fun w s =>
    let t := (s.x c (iRs1 w)).toNat
    s.withBook c t fun s => (s.sbAmax t [f32Val (s.x c (iRs2 w))]).retire c 0 0) s)

end Sys2Proof.Machine
end

