-- ==== Sys2Proof/Machine/RegWrite.lean ====
section
/-!
DEFINITION. Register accesses (R9, R108, R446, R586): the behaviour of a write to each register of the device
address space, reads with the latch of R108, and the row REGISTER_WRITE.
-/
namespace Sys2Proof.Machine

/-- R23: the pod index (of 384) of an address in the die windows. -/
def addrPod (a : Nat) : Nat := (a - dieBase) / 0x100000000 * 12 + a / 0x10000000 % 16

/-- R20, R23: the identity of the core whose window holds an address. -/
def addrCore (a : Nat) : Nat := coreOf (addrPod a) (a / 0x100000 % 16)

/-- R275: the completion queue whose registers hold an address. -/
def addrCq (a : Nat) : CqId :=
  if a < blkBase then .pod (addrPod a) (a % 0x400 / 0x40) else .edge (a / 0x1000000 % 16) (a % 0x200 / 0x40)

/-- The world that an agent's refusals and ignored writes are logged under. -/
def agentWorld : Agent → World
  | .world w => w
  | .firmware => .sable

/-- R155: 32 bits of the vector block. -/
def State.vecWord (s : State) (c o : Nat) : Word :=
  if 0x80 ≤ o ∧ o < 0x100 then (s.core c).vAt ((o - 0x80) / 4)
  else if 0x400 ≤ o ∧ o < 0xC00 then
    ((s.core c).mask ((o - 0x400) / 128)).extractLsb' (8 * ((o - 0x400) % 128)) 32
  else 0

/-- R155: a write to the vector block. -/
def State.vecPut (s : State) (c o : Nat) (v : Word) : State :=
  if 0x80 ≤ o ∧ o < 0x100 then s.onCore c fun k => { k with v := setAt 0 k.v ((o - 0x80) / 4) v }
  else if 0x400 ≤ o ∧ o < 0xC00 then
    let m := (o - 0x400) / 128
    let sh := 8 * ((o - 0x400) % 128)
    let old := (s.core c).mask m
    s.setMask c m ((old &&& ~~~ ((0xFFFFFFFF : BitVec 1024) <<< sh)) ||| (v.zeroExtend 1024 <<< sh))
  else s

/-- R405, R546: STATE: normal, derated (a protective demand is in force), park, safe state. -/
def State.safState (s : State) : Nat :=
  if s.safe then 3 else if s.pst = 3 ∨ s.pst = 4 then 2 else if s.protDemand ≠ 0 then 1 else 0

/-- R9, R108: a read of a register by its key: write-only registers read 0; the low half of a 64-bit
register latches the upper half; an upper half reads what was latched. -/
def State.regRead (s : State) (a : Nat) : Word × State :=
  match famAt a with
  | none => (0, s)
  | some (f, o) =>
    if f = .vec ∧ 0x80 ≤ o then (s.vecWord (addrCore a) o, s)
    else if f = .saf ∧ o = 8 then (BitVec.ofNat 32 (putBits (s.regN a) 1 0 s.safState), s)
    else match f.def? o with
      | none => (0, s)
      | some d =>
        if d.acc = .wo then (0, s)
        else if f.lows.contains o then (s.reg a, { s with latch := Tab.set s.latch (a + 4) (s.reg (a + 4)) })
        else if 4 ≤ o ∧ f.lows.contains (o - 4) then (Tab.get s.latch a (s.reg a), s)
        else (s.reg a, s)

/-- R107, R106: a write to a register of an array. -/
def State.arrPut (s : State) (w : World) (a o : Nat) (v : Word) : State :=
  if o ≤ 4 ∧ bit (s.regN (a - o + 8)) 0 then s.regIgnored w a v else s.plainWrite a v

/-- R154, R147, R153: a write to a register of the core control block; CORE_WIDE is the firmware's (R105), DENIED
to Ivory (R9). -/
def State.corePut (s : State) (ag : Agent) (src a o : Nat) (v : Word) : State × AccSt :=
  let c := addrCore a
  if o = 8 then
    let s := if bit v.toNat 0 then s.runWrite c else s.stopWrite c
    (s.parkWrite c (bit v.toNat 1), .ok)
  else if o = 0x44 then
    match ag with
    | .firmware => (s.plainWrite a v, .ok)
    | .world .sable => (s.regIgnored .sable a v, .ok)
    | .world .ivory => (s.refused .ivory src a 2, .denied)
  else (s.plainWrite a v, .ok)

/-- R9: a write to a register that locks at commit. -/
def State.lockPut (s : State) (w : World) (a : Nat) (v : Word) : State :=
  if s.committed then s.regIgnored w a v else s.plainWrite a v

/-- R322, R323: a write to a register of a port. -/
def State.lnkPut (s : State) (w : World) (a o : Nat) (v : Word) : State :=
  let p := a / 0x1000000 % 16 * 4 + a / 0x1000 % 16
  match Fam.def? .lnk o with
  | none => s
  | some d =>
    if o = 0x14 then
      let s := if bit v.toNat 1 then s.retrain p else s
      s.setHold p (bit v.toNat 0)
    else if d.acc = .lk then s.lockPut w a v
    else s.plainWrite a v

/-- R146, R151: a write to a register of a pod's sliver queue. -/
def State.slvPut (s : State) (w : World) (a o : Nat) (v : Word) : State :=
  if o = 0 ∨ o = 4 then s.slvSetup w (addrPod a) o v
  else if o = 0xC then s.slvTail w (addrPod a) v
  else s.plainWrite a v

/-- R181 to R183: a write to the gate registers. -/
def State.gatePut (s : State) (a o : Nat) (v : Word) : State :=
  if o = 0 then s.lapClose v
  else if o = 4 then (s.plainWrite a v).gateRefresh
  else if o = 0x10 then s.fwdClose v
  else s.plainWrite a v

/-- R275: a write to a register of a completion queue. -/
def State.cqPut (s : State) (w : World) (a o : Nat) (v : Word) : State :=
  if o ≤ 8 then s.cqSetup w (addrCq a) o v
  else if o = 0x10 then s.cqHead (addrCq a) v
  else if o = 0x14 then s.cqCtrl w (addrCq a) v
  else s.plainWrite a v

/-- R272, R273: a write to a register of a bulk channel. -/
def State.bshPut (s : State) (w : World) (a o : Nat) (v : Word) : State :=
  let e := a / 0x1000000 % 16
  let ch := a / 0x1000 % 16
  if o < 0x40 then s.bshShadow w e ch o v
  else if o = 0x40 then s.bshGo w e ch v
  else if o = 0x48 then (if bit v.toNat 0 then s.bshStop e ch else s)
  else s.plainWrite a v

/-- R330, R345, R359: a write to a register of a relay engine. -/
def State.rlyPut (s : State) (a o : Nat) (v : Word) : State :=
  if o = 4 then s.rlyKick (a / 0x1000000 % 16) v
  else if o = 0x28 then (s.plainWrite a v).hrdRefresh
  else s.plainWrite a v

/-- R446 step 3: the effect of a write that passed the checks, for every family of the device address
space. -/
def State.regPut (s : State) (ag : Agent) (src a : Nat) (v : Word) : State × AccSt :=
  let w := agentWorld ag
  match famAt a with
  | none => (s, .ok)
  | some (f, o) =>
    match f with
    | .arr => (s.arrPut w a o v, .ok)
    | .slv => (s.slvPut w a o v, .ok)
    | .core => s.corePut ag src a o v
    | .vec => (s.vecPut (addrCore a) o v, .ok)
    | .gate => (s.gatePut a o v, .ok)
    | .shu =>
      (if o = 0xC ∨ o = 0x14 then s.lpPush w (addrPod a) ((o - 0xC) / 8) v else s.plainWrite a v, .ok)
    | .cq => (s.cqPut w a o v, .ok)
    | .bsh => (s.bshPut w a o v, .ok)
    | .lnk => (s.lnkPut w a o v, .ok)
    | .rly => (s.rlyPut a o v, .ok)
    | .rail => (if o = 0x18 then (if bit v.toNat 0 then s.minvReset (a % 0x1000 / 0x40) else s) else s.plainWrite a v, .ok)
    | .thm => (if o = 0x10 then (s.plainWrite a v).selRefresh else s.plainWrite a v, .ok)
    | .pf => (if o = 0 then s.pfMark v else s.plainWrite a v, .ok)
    | .swp => (s.plainWrite a v, .ok)
    | .pool => (s.plainWrite a v, .ok)
    | .podPwr => (s.plainWrite a v, .ok)
    | .railIn => (s.plainWrite a v, .ok)
    | .pwr => (s.plainWrite a v, .ok)
    | .podThm => (s.plainWrite a v, .ok)
    | .saf => (s.plainWrite a v, .ok)
    | .hif => (s.plainWrite a v, .ok)
    | .mbx => (s.plainWrite a v, .ok)
    | .boot => (s.plainWrite a v, .ok)

/-- R446: the check of an access by an agent; the firmware acts as Sable (R445). -/
def State.agentCheck (s : State) (ag : Agent) (a n : Nat) : AccSt := s.check (agentWorld ag) a n

/-- R446: a register write by an agent, with its completion status; a refusal is logged. -/
def State.regWrite (s : State) (ag : Agent) (src a : Nat) (v : Word) : State × AccSt :=
  match s.agentCheck ag a 4 with
  | .ok => s.regPut ag src a v
  | st => (s.logFail (agentWorld ag) src a st, st)

/-- R446: a register read by an agent of a world; a refusal is logged. -/
def State.regGet (s : State) (w : World) (src a : Nat) : Except AccSt Word × State :=
  match s.check w a 4 with
  | .ok => let r := s.regRead a; (.ok r.1, r.2)
  | st => (.error st, s.logFail w src a st)

/-- The bytes of a range that passed its check; a register read latches (R108), a memory read corrects (R214, R236). -/
def pieceRead (s : State) (p : Nat × Nat) : List Byte × State :=
  if (s.place p.1).isReg then
    let q := s.regRead p.1
    (leBytes 4 q.1.toNat, q.2)
  else (s.bytes p.1 p.2, s.readSeen p.1 p.2)

/-- REGISTER_WRITE (R9, R446, R586): a write to a register of the device address space; R155: one to V or a mask of a busy
vector engine has no effect yet, and its sender sends the row again. -/
def execRegisterWrite (ag : Agent) (a : Nat) (v : Word) (s : State) : Host.Outcome State Fault Refusal :=
  guarded (notMemory a) (if s.outsideBusy a 4 then s else (s.regWrite ag s.hubSource a v).1)

/-- CORE_PARK (R147): PARK of CORE_CTRL set or cleared by the power cap. -/
def execCorePark (c : Nat) (park : Bool) (s : State) : Host.Outcome State Fault Refusal :=
  guarded (coreOk c) (s.parkWrite c park)

end Sys2Proof.Machine
end

