-- ==== Sys2Proof/Machine/Host.lean ====
section
/-!
DEFINITION. The host attachment (R361 to R377) and the doorbell pages (R379 to R382, R392, R411): BAR0, BAR2,
MSI-X, the PCI Express function, and the pins PERST_N and REFCLK.
-/
namespace Sys2Proof.Machine

/-- R363: what configuration space holds of the module's identity; the vendor IDs are PCI-SIG's. -/
structure PciIdent where
  device : Nat := 0x4C40
  subsystem : Nat := 0x0001
  revision : Nat := 0x01
  classCode : Nat := 0x120000
  deriving DecidableEq, Repr

/-- The PCI Express function changed. -/
def State.onHost (s : State) (f : HostIf → HostIf) : State := { s with host := f s.host }

/-- R370, R367: HIF_FAULT gains a bit; the first refused access since it was clear leaves its device address. -/
def State.hifFault (s : State) (b : Nat) (a : Nat) : State :=
  let held := s.host.faultHeld
  let s := (s.raiseBits 0x1C (2 ^ b)).onHost fun h => { h with faultHeld := true }
  if held then s else s.setReg64 0x20 (a % 2 ^ 48)

/-- R367: the HIF_FAULT bit of a refusal. -/
def faultBit : AccSt → Nat
  | .denied => 1
  | .void => 2
  | _ => 0

/-- R367: a read completes: with its bytes, or Completer Abort, which counts. -/
def State.complete (s : State) (bs : Option (List Byte)) : State :=
  match bs with
  | some b => s.onHost fun h => { h with lastRead := some b }
  | none => (s.count 0x2C 1).onHost fun h => { h with lastRead := none }

/-- R367: a refused host access, already logged. -/
def State.hostBad (s : State) (rd : Bool) (a : Nat) (st : AccSt) : State :=
  let s := s.hifFault (faultBit st) a
  if rd then s.complete none else s

/-- R367: an access to an unmapped BAR0 offset; it has no device address, so the address that is recorded and
logged is a free value (log 62). -/
def State.hostUnmapped (s : State) (rd : Bool) : State :=
  let lo := s.freeWord
  let hi := lo.2.freeWord
  let a := lo.1.toNat + hi.1.toNat % 65536 * 2 ^ 32
  (hi.2.refused .ivory s.hubSource a 4).hostBad rd a .addrFault

/-- The host reaches the function's memory spaces. -/
def State.hostOpen (s : State) : Bool :=
  s.pins.powered && !s.pins.perst && s.host.linkUp && !s.host.d3hot && s.hif != 0

/-- R412: REG_IGNORED with a BAR0 offset. -/
def State.ignoreBar0 (s : State) (w : World) (off v : Nat) : State :=
  s.raise w 0x0002 1 s.hubSource (leBytes 8 off ++ leBytes 8 v ++ leBytes 4 1)

/-- R374: pending vectors that may leave now do. -/
def State.flushVecs (s : State) : State := s.host.pba.foldl (fun s v => s.signal v) s

/-- R379, R381, R392: an ignored write to a register of mailbox `m`: the fault bit, REG_IGNORED with the BAR0
offset, or the I3C window offset for the tray mailbox. -/
def State.mbxIgnored (s : State) (m o bitNo : Nat) (v : Word) : State :=
  let s := s.raiseBits (mbxAt m + 0x14) (2 ^ bitNo)
  if m = 10 then s.raise .ivory 0x0002 1 s.hubSource (leBytes 8 (0x8000 + o) ++ leBytes 8 v.toNat ++ leBytes 4 2)
  else s.ignoreBar0 (mbxWorld m) (mbxAt m + o) v.toNat

/-- R379: the request tail that the driver gave last. -/
def State.bellTail (s : State) (m : Nat) : Nat :=
  (((Tab.get s.hub.bells m []).getLast?).map (·.1)).getD (s.regN (mbxAt m + 4))

/-- R379: a write to HUB_MBX_DOORBELL. -/
def State.doorbell (s : State) (m : Nat) (v : Word) : State :=
  let head := s.reg (mbxAt m + 4)
  let tail : Word := BitVec.ofNat 32 (s.bellTail m)
  if v = tail then s
  else if 256 < (v - head).toNat ∨ (v - head).toNat < (tail - head).toNat then s.mbxIgnored m 0 0 v
  else { s with hub := { s.hub with
    bells := Tab.set s.hub.bells m (Tab.get s.hub.bells m [] ++ [(v.toNat, s.now)]) } }

/-- HUB_MBX_DOORBELL (R379). -/
def execHubMbxDoorbell (m : Nat) (v : Word) (s : State) : Host.Outcome State Fault Refusal :=
  guarded (decide (m < 11)) (s.doorbell m v)

/-- R381: a write to HUB_MBX_RSP_HEAD. -/
def State.rspHead (s : State) (m : Nat) (v : Word) : State :=
  let h := s.reg (mbxAt m + 0xC)
  if (s.reg (mbxAt m + 8) - h).toNat < (v - h).toNat then s.mbxIgnored m 0xC 1 v
  else s.setReg (mbxAt m + 0xC) v

/-- HUB_MBX_RSP_HEAD (R381). -/
def execHubMbxRspHead (m : Nat) (v : Word) (s : State) : Host.Outcome State Fault Refusal :=
  guarded (decide (m < 11)) (s.rspHead m v)

/-- R411: a write to HUB_EVT_HEAD; queued events move into the freed entries. -/
def State.evtHead (s : State) (w : World) (v : Word) : State :=
  let b := ringPage w
  let h := s.reg (b + 0x44)
  if (s.reg (b + 0x40) - h).toNat < (v - h).toNat then s.mbxIgnored (match w with | .ivory => 0 | .sable => 8) 0x44 1 v
  else State.drainQueue 512 (s.setReg (b + 0x44) v)

/-- HUB_EVT_HEAD (R411). -/
def execHubEvtHead (ring : World) (v : Word) (s : State) : Host.Outcome State Fault Refusal := .next (s.evtHead ring v)

/-- R392: a write to HUB_TRAY_DONE_HEAD; waiting entries are written as space frees. -/
def State.trayHead (s : State) (v : Word) : State :=
  let d := (v - BitVec.ofNat 32 s.hub.trayHead).toNat
  if s.hub.trayTail - s.hub.trayHead < d then
    (s.raiseBits (mbxAt 10 + 0x14) 2).raise .ivory 0x0002 1 s.hubSource
      (leBytes 8 0x8084 ++ leBytes 8 v.toNat ++ leBytes 4 2)
  else
    let s := { s with hub := { s.hub with trayHead := s.hub.trayHead + d } }
    State.trayDrain s.hub.trayWait.length s

/-- HUB_TRAY_DONE_HEAD (R392). -/
def execHubTrayDoneHead (v : Word) (s : State) : Host.Outcome State Fault Refusal := .next (s.trayHead v)

/-- R382: a write to a register of the page of mailbox `m`. -/
def State.mbxPut (s : State) (m o : Nat) (v : Word) : State :=
  if o = 0 then s.doorbell m v
  else if o = 0xC then s.rspHead m v
  else if o = 0x14 then s.plainWrite (mbxAt m + o) v
  else if o = 0x44 ∧ m = 0 then s.evtHead .ivory v
  else if o = 0x44 ∧ m = 8 then s.evtHead .sable v
  else s

/-- R382: a read of a register of the page of mailbox `m`: offsets 0x40 to 0x4B exist on pages 0 and 8. -/
def State.mbxRead (s : State) (m o : Nat) : Word × State :=
  if 0x40 ≤ o ∧ m ≠ 0 ∧ m ≠ 8 then (0, s) else s.regRead (mbxAt m + o)

/-- R370: a write to HIF_FAULT; once it is clear, the next refused access leaves its address. -/
def State.faultAck (s : State) (v : Word) : State :=
  let t := s.plainWrite 0x1C v
  if t.regN 0x1C = 0 then t.onHost fun h => { h with faultHeld := false } else t

/-- R370: a write to a host-interface register. -/
def State.hifPut (s : State) (o : Nat) (v : Word) : State :=
  if o = 0x14 ∨ o = 0x18 then
    let t := s.plainWrite o v
    if t.reg64 0x14 % 2 ^ s.host.bar2lg ≠ 0 then s.ignoreBar0 .ivory o v.toNat else t
  else if o = 0x1C then s.faultAck v
  else s.plainWrite o v

/-- R419: the boot window and its RW registers take writes in HIF_STATE 1 and 7 only. -/
def State.bootOpen (s : State) : Bool := s.hif == 1 || s.hif == 7

/-- R372, R374: a word of the MSI-X table; an unmasked vector that is pending leaves. -/
def State.msixPut (s : State) (i : Nat) (v : Word) : State :=
  (s.onHost fun h => { h with msix := Tab.set h.msix i v }).flushVecs

/-- R365: what an offset of BAR0 is. -/
inductive Bar0 where
  | hif
  | page (m : Nat)
  | msix
  | pba
  | window
  | bootReg
  | request (m : Nat)
  | response (m : Nat)
  | events (w : World)
  | aperture (n : Nat)
  | none
  deriving DecidableEq, Repr

/-- R365: the BAR0 map. -/
def bar0Map (o : Nat) : Bar0 :=
  if o < 0x1000 then .hif
  else if 0x100000 ≤ o ∧ o < 0x10A000 then .page ((o - 0x100000) / 0x1000)
  else if 0x200000 ≤ o ∧ o < 0x200400 then .msix
  else if 0x201000 ≤ o ∧ o < 0x201008 then .pba
  else if 0x800000 ≤ o ∧ o < 0xFFF000 then .window
  else if 0xFFF000 ≤ o ∧ o < 0x1000000 then .bootReg
  else if 0x1000000 ≤ o ∧ o < 0x1050000 then
    (if o % 0x8000 < 0x4000 then .request ((o - 0x1000000) / 0x8000) else .response ((o - 0x1000000) / 0x8000))
  else if 0x1200000 ≤ o ∧ o < 0x1210000 then .events .ivory
  else if 0x1210000 ≤ o ∧ o < 0x1220000 then .events .sable
  else if 0x2000000 ≤ o ∧ o < 0x3000000 then .aperture 0
  else if 0x3000000 ≤ o ∧ o < 0x4000000 then .aperture 1
  else .none

/-- R366: the device address behind an aperture offset. -/
def State.aperAddr (s : State) (n o : Nat) : Nat :=
  blkBase + (s.regN (0xC + 4 * n) % 256) <<< 24 + o % 0x1000000

/-- R372: the pending bits as bytes. -/
def State.pbaBytes (s : State) : List Byte := leBytes 8 (s.host.pba.foldl (fun x v => x ||| 2 ^ v) 0)

/-- Register words read in ascending order: `n` words from `o` on. -/
def readWords (f : State → Nat → Word × State) : Nat → Nat → State → List Byte × State
  | 0, _, s => ([], s)
  | n + 1, o, s =>
    let q := f s o
    let r := readWords f n (o + 4) q.2
    (leBytes 4 q.1.toNat ++ r.1, r.2)

/-- Register words written in ascending order. -/
def writeWords (f : State → Nat → Word → State) : Nat → Nat → List Byte → State → State
  | 0, _, _, s => s
  | n + 1, o, bs, s => writeWords f n (o + 4) (bs.drop 4) (f s o (BitVec.ofNat 32 (fld bs 0 4)))

/-- R365: a host write to a request ring, which belongs to the host. -/
def State.ringStore (s : State) (o : Nat) (bs : List Byte) : State :=
  { s with hubMem := Memory.writeN s.hubMem o bs }

/-- R365 to R367, R419: a host write to BAR0. -/
def State.bar0Write (s : State) (o : Nat) (bs : List Byte) : State :=
  let n := bs.length
  let words := decide (o % 4 = 0 ∧ n % 4 = 0)
  let whole := bar0Map o == bar0Map (o + n - 1)
  match bar0Map o with
  | .aperture k =>
    let a := s.aperAddr k o
    (match s.check .ivory a n with
     | .ok =>
       let q := s.regWrite (.world .ivory) s.hubSource a (BitVec.ofNat 32 (leNat bs))
       if q.2 = .ok then q.1 else q.1.hostBad false a q.2
     | st => (s.logFail .ivory s.hubSource a st).hostBad false a st)
  | .none => s.hostUnmapped false
  | .hif => if words && whole then writeWords (fun s o v => s.hifPut o v) (n / 4) o bs s else s.hostUnmapped false
  | .page m =>
    if words && whole then writeWords (fun s o v => s.mbxPut m (o % 0x1000) v) (n / 4) o bs s else s.hostUnmapped false
  | .msix =>
    if words && whole then writeWords (fun s o v => s.msixPut ((o - 0x200000) / 4) v) (n / 4) o bs s
    else s.hostUnmapped false
  | .bootReg =>
    if words && whole then
      writeWords (fun s o v => s.bootPut o v) (n / 4) o bs s
    else s.hostUnmapped false
  | .pba => if whole then s else s.hostUnmapped false
  | .window => if whole then (if s.bootOpen then s.ringStore o bs else s) else s.hostUnmapped false
  | .request _ => if whole then s.ringStore o bs else s.hostUnmapped false
  | .response m => if whole then s.ignoreBar0 (mbxWorld m) o (fld bs 0 4) else s.hostUnmapped false
  | .events w => if whole then s.ignoreBar0 w o (fld bs 0 4) else s.hostUnmapped false

/-- R418: a read of a word of the boot control page; the helper blob of R428 lies in hub SRAM. -/
def State.bootRead (s : State) (o : Nat) : Word × State :=
  if 0xFFF040 ≤ o ∧ o < 0xFFF4C0 then (BitVec.ofNat 32 (leNat (Memory.readN s.hubMem o 4)), s) else s.regRead o

/-- R365 to R367, R419: a host read of BAR0. -/
def State.bar0Read (s : State) (o n : Nat) : State :=
  let words := decide (o % 4 = 0 ∧ n % 4 = 0)
  let whole := bar0Map o == bar0Map (o + n - 1)
  let done := fun (q : List Byte × State) => q.2.complete (some q.1)
  match bar0Map o with
  | .aperture k =>
    let a := s.aperAddr k o
    (match s.check .ivory a n with
     | .ok => done (pieceRead s (a, n))
     | st => (s.logFail .ivory s.hubSource a st).hostBad true a st)
  | .none => s.hostUnmapped true
  | .hif => if words && whole then done (readWords (fun s o => s.regRead o) (n / 4) o s) else s.hostUnmapped true
  | .page m =>
    if words && whole then done (readWords (fun s o => s.mbxRead m (o % 0x1000)) (n / 4) o s) else s.hostUnmapped true
  | .msix =>
    if words && whole then
      done (readWords (fun s o => (Tab.get s.host.msix ((o - 0x200000) / 4) (if o % 16 = 12 then 1 else 0), s)) (n / 4) o s)
    else s.hostUnmapped true
  | .bootReg => if words && whole then done (readWords (fun s o => s.bootRead o) (n / 4) o s) else s.hostUnmapped true
  | .pba => if whole then done (sub s.pbaBytes (o - 0x201000) n, s) else s.hostUnmapped true
  | .window =>
    if whole then done (if s.bootOpen then Memory.readN s.hubMem o n else List.replicate n 0, s) else s.hostUnmapped true
  | .request _ => if whole then done (Memory.readN s.hubMem o n, s) else s.hostUnmapped true
  | .response _ => if whole then done (Memory.readN s.hubMem o n, s) else s.hostUnmapped true
  | .events _ => if whole then done (Memory.readN s.hubMem o n, s) else s.hostUnmapped true

/-- R362: an access that the function does not decode has no effect on the device; a read completes without
data. -/
def State.unclaimed (s : State) (w : Option (List Byte)) : State :=
  match w with
  | some _ => s
  | none => s.onHost fun h => { h with lastRead := none }

/-- BAR0_ACCESS (R365, R366): a write of the given bytes, or a read of `len` bytes. -/
def execBar0Access (off : Nat) (w : Option (List Byte)) (len : Nat) (s : State) : Host.Outcome State Fault Refusal :=
  guarded (decide (off < 0x4000000)) (
    if !s.hostOpen then s.unclaimed w
    else match w with
      | some bs => if bs.isEmpty then s else s.bar0Write off bs
      | none => if len = 0 then s else s.bar0Read off len)

/-- R371: the device address behind a BAR2 offset, and the check of an access of `n` bytes there. -/
def State.bar2Check (s : State) (off n : Nat) (rd : Bool) : Nat × AccSt :=
  let a := s.reg64 0x14 + off
  let tier := (decide (a + n ≤ 0xA000000000) || decide (0x10000000000 ≤ a ∧ a + n ≤ 0x10080000000))
  (a, if !tier then .addrFault else if rd then s.checkRead .ivory a n else s.check .ivory a n)

/-- BAR2_ACCESS (R371, R185). A VOID also acts under R214 or R236. -/
def execBar2Access (off : Nat) (w : Option (List Byte)) (len : Nat) (s : State) : Host.Outcome State Fault Refusal :=
  guarded (decide (off < 0x10000000000)) (
    if !s.hostOpen || decide (2 ^ s.host.bar2lg ≤ off) then s.unclaimed w
    else match w with
      | some bs =>
        if bs.isEmpty then s
        else match s.bar2Check off bs.length false with
          | (a, .ok) => (s.arrive a bs).lateHome s.hubSource a bs.length
          | (a, st) => (s.logFail .ivory s.hubSource a st).hostBad false a st
      | none =>
        if len = 0 then s
        else match s.bar2Check off len true with
          | (a, .ok) => (s.readSeen a len).complete (some (s.bytes a len))
          | (a, .void) => ((s.eccVoid .ivory s.hubSource a).refused .ivory s.hubSource a 3).hostBad true a .void
          | (a, st) => (s.logFail .ivory s.hubSource a st).hostBad true a st)

/-- R364: a request to host memory failed: DMA_FAIL and its event; it is never retried. -/
def State.dmaFail (s : State) (a : Nat) : State := (s.raiseBits 0x1C 8).raiseHub 0x0304 1 (leBytes 8 a)

/-- HOST_DMA_FAIL (R364). -/
def execHostDmaFail (a : Nat) (s : State) : Host.Outcome State Fault Refusal := .next (s.dmaFail a)

/-- MSIX_HOLDOFF_END (R374): the window of a vector has ended; its one message covers what arrived. -/
def execMsixHoldoffEnd (vec : Nat) (s : State) : Host.Outcome State Fault Refusal :=
  guarded (decide (vec < 64)) (
    if s.host.waiting.contains vec then
      (s.onHost fun h => { h with waiting := h.waiting.filter (· != vec) }).signal vec
    else s)

/-- D3HOT_ENTRY (R362). -/
def execD3hotEntry (s : State) : Host.Outcome State Fault Refusal := .next (s.onHost fun h => { h with d3hot := true })

/-- RETURN_TO_D0 (R362, R374): pending vectors leave. -/
def execReturnToD0 (s : State) : Host.Outcome State Fault Refusal :=
  .next (s.onHost fun h => { h with d3hot := false }).flushVecs

/-- BUS_MASTER_ENABLE (R374): pending vectors leave. -/
def execBusMasterEnable (s : State) : Host.Outcome State Fault Refusal :=
  .next (s.onHost fun h => { h with bme := true }).flushVecs

/-- BAR2_RESIZE (R371): the new size; HIF_BAR2_BASE becomes 0. -/
def execBar2Resize (lg : Nat) (s : State) : Host.Outcome State Fault Refusal :=
  guarded (decide (30 ≤ lg ∧ lg ≤ 40)) ((s.onHost fun h => { h with bar2lg := lg }).setReg64 0x14 0)

/-- R370: HIF_LINK after training: a rate of 1 to 7, a width of 1, 2, 4 or 8, flit mode at 64.0 and 128.0 GT/s;
which of them is a free value (log 7). -/
def State.trainPcie (s : State) : State :=
  let q := s.freeWord
  let n := q.1.toNat
  let rate := 1 + n % 7
  q.2.setRegN 8 (rate + 2 ^ (n / 8 % 4) * 8 + (if 6 ≤ rate then 1 else n / 32 % 2) * 128)

/-- PCIE_LINK_RESET (R377): the port, the configuration space and the MSI-X table are reset; the device carries
on; LINK_RESET and a Grey event whose code the spec does not list (log 24). -/
def execPcieLinkReset (s : State) : Host.Outcome State Fault Refusal :=
  .next (
    if s.pins.perst || !s.pins.powered then s
    else
      let s := { s with host := { sent := s.host.sent, lastRead := s.host.lastRead, faultHeld := s.host.faultHeld } }
      let c := (s.raiseBits 0x1C 16).freeWord
      (c.2.raiseHub (c.1.toNat % 65536) 1 []).trainPcie)

/-- PERST_N_ASSERT (R376, R11): the whole device is reset; the pins, the host's memory and the model's own
fields stay. -/
def execPerstNAssert (s : State) : Host.Outcome State Fault Refusal :=
  .next { State.reset with
    pending := s.pending, hostMem := s.hostMem, free := s.free
    pins := { s.pins with perst := true } }

/-- R11: a release of PERST_N gives every register its reset value; memory, host memory, the clock and the model's queue
stay (the assertion has emptied memory). -/
def State.released (s : State) : State :=
  { State.reset with
    pending := s.pending, now := s.now, mem := s.mem, cores := s.cores, hostMem := s.hostMem, free := s.free
    pins := { s.pins with perst := false } }

/-- PERST_N_RELEASE (R375, R416): the boot ROM comes up and waits for the firmware; rails come up where they
are not. -/
def execPerstNRelease (s : State) : Host.Outcome State Fault Refusal :=
  .next (
    if s.pins.powered && !s.pins.tripped && (s.pins.perst || s.hif == 0) then
      let s := if s.pins.perst then s.released else s
      let s := (s.setHif 1).trainPcie
      if s.regN (railAt 0 + 8) = 0 then s.railsUp else s
    else { s with pins := { s.pins with perst := false } })

/-- PLL_UNLOCK (R27): a Crimson fault and the safe state. -/
def execPllUnlock (s : State) : Host.Outcome State Fault Refusal :=
  .next (if s.pins.powered && !s.pins.perst then s.devCrimson 0x0628 0 s.hubSource .ivory [] else s)

end Sys2Proof.Machine
end

