-- ==== Sys2Proof/Machine/Mailbox.lean ====
section
/-!
DEFINITION. How a request is begun, checked, deferred and answered (R378 to R397, R413).
-/
namespace Sys2Proof.Machine

/-- R383: what a command sees of its request: mailbox, position, opcode, tag, RSP_CAP, RSP_ADDR, its own payload. -/
structure Req where
  mbx : Nat
  pos : Nat
  op : Nat
  tag : Nat
  cap : Nat
  rsp : Nat
  data : List Byte
  deriving DecidableEq, Repr

/-- R383: a field of the payload. -/
def Req.f (r : Req) (off n : Nat) : Nat := fld r.data off n

/-- R378: the world of a request. -/
def Req.world (r : Req) : World := mbxWorld r.mbx

/-- R390: the classes of commands. -/
inductive Cls where
  | read
  | completes
  | deferred
  deriving DecidableEq, Repr

/-- What a command's run answers: STATUS, the response payload or the detail of R388, the state; `wait` tells that
a deferred action has begun and has not ended. -/
structure Res where
  st : Nat := 0
  body : List Byte := []
  s : State
  wait : Bool := false

/-- A refusal: STATUS, and the detail of R388 where the status has one. -/
abbrev Bad := Nat × List Byte

/-- R388: a detail. -/
def det (off where_ addr : Nat) : List Byte := leBytes 4 off ++ leBytes 4 where_ ++ leBytes 8 addr

/-- R386: BAD_RESERVED of a payload field. -/
def badRes (off : Nat) : Option Bad := some (5, det off 1 0)
/-- R386: BAD_VALUE of a payload field. -/
def badVal (off : Nat) : Option Bad := some (6, det off 1 0)

/-- R398: a command: mailboxes that it is open to (I, S, T), class, HIF_STATE values, the rest of its state column,
NEED of a LENGTH that it does not accept, bytes of its response (step 6), steps 9 and 10, and step 11 with its
action. -/
structure Cmd where
  i : Bool
  sbl : Bool
  t : Bool
  cls : Cls
  states : List Nat
  ok : State → Bool
  need : Nat → Option Nat
  rsp : State → Nat → Nat
  check : State → Req → Option Bad
  run : State → Req → HostDma → Res

/-- A command that runs in HIF_STATE `states`, takes `n` bytes and has no other conditions. -/
def Cmd.base (i sbl t : Bool) (cls : Cls) (states : List Nat) (n : Nat) (run : State → Req → HostDma → Res) : Cmd :=
  { i := i, sbl := sbl, t := t, cls := cls, states := states, ok := fun _ => true
    need := fun l => if l = n then none else some n
    rsp := fun _ _ => 0, check := fun _ _ => none, run := run }

/-- R388: NEED of a LENGTH outside a range. -/
def needRange (lo hi l : Nat) : Option Nat := if l < lo then some lo else if hi < l then some hi else none

/-- R399 to R406, R556: the assigned opcodes that a mailbox serves. -/
def opcodes : List Nat :=
  [0, 1, 0x100, 0x101, 0x102, 0x103, 0x200, 0x201, 0x202, 0x203, 0x204, 0x205, 0x210, 0x211, 0x212, 0x300, 0x301,
   0x302, 0x303, 0x400, 0x401, 0x402, 0x403, 0x404, 0x405, 0x500, 0x501, 0x502, 0x503, 0x600, 0x601, 0x602, 0x603,
   0x700, 0x701, 0x702, 0x703, 0x704, 0x800, 0x801, 0x802, 0x900, 0x901]

/-- R553: the twin-link opcodes, which a mailbox answers DENIED. -/
def twinOp (op : Nat) : Bool := decide (0x780 ≤ op ∧ op ≤ 0x783)

/-- R378: a Sable mailbox. -/
def sableBox (m : Nat) : Bool := m == 8 || m == 9

/-- R365, R379: where the slot of a position lies. -/
def slotAt (m p : Nat) : Nat := 0x1000000 + 0x8000 * m + 64 * (p % 256)

/-- R379: a request of mailbox `m` is pending. -/
def State.reqPending (s : State) (m : Nat) : Bool :=
  let h := s.reg (mbxAt m + 4)
  (BitVec.ofNat 32 (s.bellTail m) != h) && decide ((h - s.reg (mbxAt m + 0xC)).toNat < 256)

/-- R389: the tick of the doorbell that made the next request of mailbox `m` pending. -/
def State.bellTick (s : State) (m : Nat) : DWord :=
  let h := s.reg (mbxAt m + 4)
  match (Tab.get s.hub.bells m []).find? fun b =>
      decide (1 ≤ (BitVec.ofNat 32 b.1 - h).toNat ∧ (BitVec.ofNat 32 b.1 - h).toNat ≤ 256) with
  | some b => b.2
  | none => s.now

/-- R389: the earlier of two mailboxes. -/
def State.earlier (s : State) (best : Option Nat) (m : Nat) : Option Nat :=
  if !s.reqPending m then best
  else match best with
    | none => some m
    | some b => if (s.bellTick m).toNat < (s.bellTick b).toNat then some m else some b

/-- R389: the mailbox whose request the firmware begins next. -/
def State.nextBox (s : State) : Option Nat := (List.range 11).foldl s.earlier none

/-- R421: the mailboxes are open. -/
def State.mbxOpen (s : State) : Bool :=
  s.pins.powered && !s.pins.perst && decide (3 ≤ s.hif ∧ s.hif ≤ 6)

/-- R396: the request has to be signed. -/
def State.signs (s : State) (m op : Nat) : Bool := sableBox m && s.committed && op != 0

/-- R386: steps 1 to 4, but for the mailboxes of the command. -/
def State.headCheck (s : State) (m : Nat) (b : List Byte) : Option Bad :=
  let w0 := fld b 0 4
  let w8 := fld b 8 4
  let op := w0 % 65536
  if bits w0 31 28 ≠ 0 then some (5, det 0 0 0)
  else if bits w8 7 3 ≠ 0 ∨ bits w8 15 8 ≠ 0 ∨ (bit w8 2 && !s.signs m op) then some (5, det 8 0 0)
  else if bits (fld b 0xC 4) 31 20 ≠ 0 then some (5, det 0xC 0 0)
  else if op ≠ 0 ∧ (bits w0 19 16 ≠ 1 ∨ Config.fwMinor.toNat < bits w0 27 20) then some (4, [])
  else if twinOp op then some (2, [])
  else if !opcodes.contains op then some (3, [])
  else if bit w8 0 ≠ (mbxWorld m == .sable) then some (2, [])
  else none

/-- R386 step 4: the command is open to the mailbox. -/
def Cmd.opens (c : Cmd) (m : Nat) : Bool := if sableBox m then c.sbl else if m = 10 then c.t else c.i

/-- R386 step 5, R393, R396, R398. -/
def State.stateCheck (s : State) (m op : Nat) (c : Cmd) : Option Bad :=
  if s.safe && c.cls != .read && !([0x602, 0x603, 0x700].contains op) then some (0xF, [])
  else if !c.states.contains s.hif || (sableBox m && !s.committed && c.cls != .read) || !c.ok s then some (8, [])
  else none

/-- R390: a command of the same opcode group is pending. -/
def State.queued (s : State) (op : Nat) (c : Cmd) : Bool :=
  c.cls != .read && s.hub.deferred.any fun d => d.op / 256 == op / 256

/-- R384, R386 step 6, R388: the form of the slot. -/
def State.formCheck (s : State) (m : Nat) (c : Cmd) (b : List Byte) : Option Bad :=
  let ref := bit (fld b 8 4) 1
  let cap := bits (fld b 8 4) 31 16
  let len := fld b 0xC 4 % 2 ^ 20
  let tr := if s.signs m (fld b 0 2) then 80 else 0
  let need := c.rsp s (len - tr)
  let at_ := fun (off need : Nat) => some (7, det off 0 need)
  let inl := (List.range 32).find? fun i => (ref || decide (len ≤ i)) && fld b (0x20 + i) 1 != 0
  if (ref && len == 0) || (!ref && decide (32 < len)) || (m == 10 && (ref || cap != 0)) || (tr != 0 && !ref) then at_ 8 0
  else if 32 < need ∧ cap * 64 < need then at_ 8 need
  else if len < tr then at_ 0xC (tr + (c.need 0).getD 0)
  else if (c.need (len - tr)).isSome then at_ 0xC (tr + (c.need (len - tr)).getD 0)
  else if (ref && fld b 0x10 8 % 8 != 0) || (!ref && fld b 0x10 8 != 0) then at_ 0x10 0
  else if (cap == 0 && fld b 0x18 8 != 0) || (cap != 0 && fld b 0x18 8 % 64 != 0) then at_ 0x18 0
  else match inl with
    | some i => at_ (0x20 + i) 0
    | none => none

/-- R364, R374: a read of host memory; none when it fails. -/
def State.hostFetch (s : State) (h : HostDma) : Option (List Byte) := if s.host.bme && !s.host.d3hot then h.read else none

/-- R432, R433: the value of the first TLV of a type in an image, from offset `p` on; `n` bounds the TLVs. -/
def tlvFind (img : List Byte) (ty : Nat) : Nat → Nat → Option (List Byte)
  | 0, _ => none
  | n + 1, p =>
    if img.length < p + 8 then none
    else
      let l := fld img (p + 4) 4
      if fld img p 2 = ty then some (sub img (p + 8) l)
      else tlvFind img ty n (p + 8 + ceilDiv l 8 * 8)

/-- R440: the committed image, as the active hub keeps it. -/
def State.image (s : State) : List Byte := if s.actHub = 1 then s.boot.imageB else s.boot.imageA

/-- R396: the bytes that a Sable request's signature covers. -/
def signedBytes (b data : List Byte) (own : Nat) : List Byte :=
  sub b 0 9 ++ [0] ++ sub b 10 6 ++ List.replicate 16 0 ++ data.take (own + 16)

/-- R396, R397: the signature and the sequence number of a Sable request hold. -/
def State.signOk (s : State) (m : Nat) (b data : List Byte) (own : Nat) : Bool :=
  bit (fld b 8 4) 2 &&
    (match tlvFind s.image 0x8002 1024 16 with
     | some key => edVerify key (signedBytes b data own) (sub data (own + 16) 64)
     | none => false)
    && decide (s.reg64 (mbxAt m + 0x20) < fld data own 8)

/-- R386: steps 7 to 10, once the form stands. -/
def State.payCheck (s : State) (m p : Nat) (c : Cmd) (b : List Byte) (h : HostDma) : State × Except Bad Req :=
  let ref := bit (fld b 8 4) 1
  let len := fld b 0xC 4 % 2 ^ 20
  let op := fld b 0 2
  let sg := s.signs m op
  let own := if sg then len - 80 else len
  let r := fun (data : List Byte) =>
    Req.mk m p op (fld b 4 4) (bits (fld b 8 4) 31 16) (fld b 0x18 8) (data.take own)
  match (if ref then (s.hostFetch h).map (fit len) else some (sub b 0x20 len)) with
  | none => (s.dmaFail (fld b 0x10 8), .error (0xE, []))
  | some data =>
    if sg && !s.signOk m b data own then (s, .error (0xD, []))
    else
      let s := if sg then s.setReg64 (mbxAt m + 0x20) (fld data own 8) else s
      match c.check s (r data) with
      | some (5, d) => (s, .error (5, d))
      | x =>
        if sg && fld data (own + 8) 8 != 0 then (s, .error (5, det (own + 8) 1 0))
        else match x with
          | some bad => (s, .error bad)
          | none => (s, .ok (r data))

/-- R386: steps 1 to 10 in order. -/
def State.accept (s : State) (m p : Nat) (c : Cmd) (b : List Byte) (h : HostDma) : State × Except Bad Req :=
  match s.headCheck m b with
  | some bad => (s, .error bad)
  | none =>
    if !c.opens m then (s, .error (2, []))
    else match (if s.queued (fld b 0 2) c then none else s.stateCheck m (fld b 0 2) c) with
      | some bad => (s, .error bad)
      | none =>
        match s.formCheck m c b with
        | some bad => (s, .error bad)
        | none => s.payCheck m p c b h

/-- R381, R385: the bytes of a response slot. -/
def rspSlot (b : List Byte) (st : Nat) (body : List Byte) : List Byte :=
  leBytes 4 (fld b 0 4 % 2 ^ 28) ++ sub b 4 4
    ++ leBytes 4 (fld b 8 1 % 2 + b2n (decide (32 < body.length)) * 2 + st * 256)
    ++ leBytes 4 body.length ++ List.replicate 8 0
    ++ (if 32 < body.length then sub b 0x18 8 ++ List.replicate 32 0 else List.replicate 8 0 ++ fit 32 body)

/-- R364, R381, R385: the response of position `p`, RSP_TAIL, and the signal. A response payload that cannot be
written gives DMA_FAIL. -/
def State.respond (s : State) (m p : Nat) (b : List Byte) (st : Nat) (body : List Byte) (h : HostDma) : State :=
  let ok := decide (body.length ≤ 32) || (h.write && s.host.bme && !s.host.d3hot)
  let s := if body.length ≤ 32 then s
    else if ok then s.hostWrite (fld b 0x18 8) body else s.dmaFail (fld b 0x18 8)
  let slot := if ok then rspSlot b st body else rspSlot b 0xE []
  let s := { s with hubMem := Memory.writeN s.hubMem (slotAt m p + 0x4000) slot }
  let s := (s.setRegN (mbxAt m + 8) ((p + 1) % 2 ^ 32)).count (mbxAt m + 0x18) 1
  if m = 10 then s.ibi 1 else s.signal (m + 2)

/-- R413: the journal keeps the latest C or D command of each mailbox. -/
def State.journalPut (s : State) (r : Req) (result : Option (List Byte)) : State :=
  { s with hub := { s.hub with
      journal := s.hub.journal.filter (·.mbx != r.mbx) ++ [JRec.mk r.mbx r.pos r.tag r.op result] } }

/-- R391: a request into which the next one of its opcode merges. -/
def State.merges (s : State) (op : Nat) (d : Deferred) : Bool :=
  d.op == op && (op == 0x400 || op == 0x403) && (!d.begun || (op == 0x400 && s.pwr.nextBudget.isSome))

/-- R390, R391: a request joins the deferred ones. -/
def State.deferPut (s : State) (r : Req) : State :=
  let old := s.hub.deferred.find? (s.merges r.op)
  let gone := old.any (·.begun)
  let first := (old.map fun (x : Deferred) => x.firstTag).getD r.tag
  let n := (old.map fun (x : Deferred) => x.merged).getD 0
  let boxes := ((old.map fun (x : Deferred) => x.boxes).getD [] ++ [r.mbx]).eraseDups
  let d : Deferred :=
    { mbx := r.mbx, pos := r.pos, op := r.op, tag := r.tag, firstTag := first, merged := min 255 (n + 1)
      boxes := boxes, payload := r.data }
  let keep := s.hub.deferred.filter fun x => !s.merges r.op x
  let s := { s with hub := { s.hub with deferred := keep ++ [d] } }
  let s := if gone then s.onPwr fun p => { p with nextBudget := none } else s
  s.forAll d.boxes fun m s => s.deferRefresh m

/-- R381, R390, R413: a request that has passed steps 1 to 10 is run, or deferred, and answered. -/
def State.serve (s : State) (c : Cmd) (b : List Byte) (r : Req) (h : HostDma) : State :=
  match c.cls with
  | .read =>
    let x := c.run s r h
    x.s.respond r.mbx r.pos b x.st x.body h
  | k =>
    if k = .deferred ∨ s.queued r.op c then
      ((s.journalPut r (some [1])).deferPut r).respond r.mbx r.pos b 1 [] h
    else
      let x := c.run (s.journalPut r none) r h
      (x.s.journalPut r (some (leBytes 1 x.st ++ x.body))).respond r.mbx r.pos b x.st x.body h

/-- R380, R389: the request at the head of mailbox `m` is begun: REQ_HEAD advances. -/
def State.beginReq (s : State) (m : Nat) : State :=
  let h := s.reg (mbxAt m + 4)
  let bells := (Tab.get s.hub.bells m []).filter fun b => BitVec.ofNat 32 b.1 != h + 1
  let s := s.setReg (mbxAt m + 4) (h + 1)
  { s with hub := { s.hub with bells := Tab.set s.hub.bells m bells } }

/-- R379 to R397: the row of a command on mailbox `m`: where that mailbox's next request is the one that the
firmware begins now, and names this command (or no command that a mailbox serves), it is taken. -/
def State.mailbox (s : State) (m : Nat) (h : HostDma) (op : Nat) (c : Cmd) : State :=
  let p := s.regN (mbxAt m + 4)
  let b := Memory.readN s.hubMem (slotAt m p) 64
  let o := fld b 0 2
  if !s.mbxOpen || s.nextBox != some m || (o != op && opcodes.contains o) then s
  else
    let q := (s.beginReq m).accept m p c b h
    match q.2 with
    | .error (st, d) => q.1.respond m p b st (if withDetail st then d else []) h
    | .ok r => q.1.serve c b r h

/-- An OK answer. -/
def Res.okBody (s : State) (body : List Byte) : Res := { body := body, s := s }
/-- A refusal without a detail. -/
def Res.refuse (s : State) (st : Nat) : Res := { st := st, s := s }

end Sys2Proof.Machine
end

