-- ==== Sys2Proof/Machine/MailInfo.lean ====
section
/-!
DEFINITION. The commands that report (R399, R400, R404 to R406, R408, R508), identity and self-test (R424 to R430),
and the small settings EVT_FILTER, COOLANT_REPORT and TRAY_IDENT.
-/
namespace Sys2Proof.Machine

/-- R399, R408: GENERATION, IF_MAJOR, IF_MINOR, HIF_STATE. -/
def State.versionWord (s : State) : Nat := 1 + 2 ^ 4 + Config.fwMinor.toNat * 2 ^ 8 + s.hif * 2 ^ 16

/-- A command's response needs `n` bytes. -/
def Cmd.answers (c : Cmd) (n : State → Nat) : Cmd := { c with rsp := fun s _ => n s }

/-- HELLO (R399, R394). -/
def cmdHello : Cmd := .base true true true .read [3, 4, 5, 6] 0 fun s r _ =>
  .okBody s (leBytes 4 s.versionWord ++ leBytes 4 (s.regN (bootAt + 0x10))
    ++ leBytes 4 (r.mbx + b2n (r.world == .sable) * 16) ++ leBytes 4 0)

/-- HELLO (R399). -/
def execHello (m : Nat) (h : HostDma) (s : State) : Host.Outcome State Fault Refusal :=
  guarded (decide (m < 11)) (s.mailbox m h 0 cmdHello)

/-- ECHO (R399): the same bytes. -/
def cmdEcho : Cmd :=
  { Cmd.base true true false .read [3, 4, 5, 6] 0 (fun s r _ => .okBody s r.data) with
    need := needRange 0 4096, rsp := fun _ l => l }

/-- ECHO (R399). -/
def execEcho (m : Nat) (h : HostDma) (s : State) : Host.Outcome State Fault Refusal :=
  guarded (decide (m < 11)) (s.mailbox m h 1 cmdEcho)

/-- SL_LOAD (R400, R441): the image replaces any staged one. -/
def cmdSlLoad : Cmd :=
  { Cmd.base true false false .completes [4] 0 (fun s r _ =>
      { s := s.onBoot fun b => { b with staged := some r.data } }) with need := needRange 16 (256 * 1024) }

/-- SL_LOAD (R400). -/
def execSlLoad (m : Nat) (h : HostDma) (s : State) : Host.Outcome State Fault Refusal :=
  guarded (decide (m < 11)) (s.mailbox m h 0x100 cmdSlLoad)

/-- SL_DIGEST (R400): the digest of the committed image. -/
def cmdSlDigest : Cmd :=
  (Cmd.base true true false .read [5, 6] 0 fun s _ _ =>
    if s.committed then .okBody s (fit 64 s.digest) else .refuse s 0xC).answers fun _ => 64

/-- SL_DIGEST (R400). -/
def execSlDigest (m : Nat) (h : HostDma) (s : State) : Host.Outcome State Fault Refusal :=
  guarded (decide (m < 11)) (s.mailbox m h 0x102 cmdSlDigest)

/-- R400: an image whose TLV values from offset `p` on read as 0; `n` bounds the TLVs. -/
def blankTlvs : Nat → Nat → List Byte → List Byte
  | 0, _, img => img
  | n + 1, p, img =>
    if img.length < p + 8 then img
    else
      let l := fld img (p + 4) 4
      let k := min l (img.length - (p + 8))
      blankTlvs n (p + 8 + ceilDiv l 8 * 8)
        (img.take (p + 8) ++ List.replicate k 0 ++ img.drop (p + 8 + k))

/-- R400: the committed image as a requester of a world reads it. -/
def State.imageFor (s : State) (w : World) : List Byte :=
  let off := fld s.image 0xC 4
  if w = .ivory ∧ off ≠ 0 then blankTlvs 64 off s.image else s.image

/-- SL_READ (R400). -/
def cmdSlRead : Cmd :=
  (Cmd.base true true false .read [5, 6] 0 fun s r _ =>
    if s.committed then .okBody s (s.imageFor r.world) else .refuse s 0xC).answers fun s =>
      if s.committed then s.image.length else 0

/-- SL_READ (R400). -/
def execSlRead (m : Nat) (h : HostDma) (s : State) : Host.Outcome State Fault Refusal :=
  guarded (decide (m < 11)) (s.mailbox m h 0x103 cmdSlRead)

/-- HEAT_STATUS (R401): without a job every field but the last commit tick reads 0. -/
def cmdHeatStatus : Cmd := .base true true true .read [5, 6] 0 fun s _ _ =>
  let h := s.heat
  let ph := if h.running then s.phaseNow + 1 else 0
  .okBody s (leBytes 4 h.num ++ leBytes 4 (h.attempt % 256 + ph * 2 ^ 8 + max h.wideFwd h.wideBwd % 4 * 2 ^ 11
      + b2n h.active * 2 ^ 13) ++ leBytes 4 h.left ++ leBytes 4 h.lastTick.toNat)

/-- HEAT_STATUS (R401). -/
def execHeatStatus (m : Nat) (h : HostDma) (s : State) : Host.Outcome State Fault Refusal :=
  guarded (decide (m < 11)) (s.mailbox m h 0x205 cmdHeatStatus)

/-- DRILL_LIST (R401): VERSION, COUNT and VALID of each handle. -/
def cmdDrillList : Cmd :=
  (Cmd.base true true false .read [5, 6] 0 fun s _ _ =>
    .okBody s ((List.range 16).flatMap fun k => match Tab.get? s.drills k with
      | some img => sub img 8 4 ++ leBytes 4 (fld img 4 1 % 128 + 128)
      | none => List.replicate 8 0)).answers fun _ => 128

/-- DRILL_LIST (R401). -/
def execDrillList (m : Nat) (h : HostDma) (s : State) : Host.Outcome State Fault Refusal :=
  guarded (decide (m < 11)) (s.mailbox m h 0x212 cmdDrillList)

/-- R402: the object that an OBJ_ID names. -/
def State.objOf (s : State) (id : Nat) : Option Obj :=
  if Tab.get s.hub.gens (id % 65536) 0 = id / 65536 then Tab.get? s.hub.objs (id % 65536) else none

/-- OBJ_QUERY (R402, R398). -/
def cmdObjQuery : Cmd := .base true true false .read [5, 6] 4 fun s r _ =>
  match s.objOf (r.f 0 4) with
  | none => .refuse s 0xC
  | some o =>
    if o.world = .sable ∧ r.world = .ivory then .refuse s 2
    else .okBody s (leBytes 4 (o.flags + b2n (o.world == .sable) * 2 ^ 8) ++ leBytes 4 0 ++ leBytes 8 o.addr ++ leBytes 8 o.size)

/-- OBJ_QUERY (R402). -/
def execObjQuery (m : Nat) (h : HostDma) (s : State) : Host.Outcome State Fault Refusal :=
  guarded (decide (m < 11)) (s.mailbox m h 0x302 cmdObjQuery)

/-- REGION_READ (R402): the region table of R218. -/
def cmdRegionRead : Cmd :=
  (Cmd.base true true false .read [5, 6] 0 fun s _ _ => .okBody s (fit 4096 s.regions)).answers fun _ => 4096

/-- REGION_READ (R402). -/
def execRegionRead (m : Nat) (h : HostDma) (s : State) : Host.Outcome State Fault Refusal :=
  guarded (decide (m < 11)) (s.mailbox m h 0x303 cmdRegionRead)

/-- R403: MODE of a power state: one that is being entered counts, leaving counts as run. -/
def pstMode (n : Nat) : Nat := if n = 1 ∨ n = 2 then 1 else if n = 3 ∨ n = 4 then 2 else 0

/-- PWR_STATUS (R403). -/
def cmdPwrStatus : Cmd := .base true true true .read [3, 4, 5, 6] 0 fun s _ _ =>
  .okBody s (leBytes 2 (s.regN (railInAt + 4)) ++ leBytes 2 (bits (s.regN (pwrAt + 4)) 31 16)
    ++ leBytes 4 (pstMode s.pst + b2n s.budgetMode * 4 + s.effOp * 8)
    ++ leBytes 4 (s.regN (pwrAt + 0x14) % 65536)
    ++ leBytes 4 (s.allCores.filter fun c => !s.parkBit c).length
    ++ leBytes 8 (s.reg64 (pwrAt + 0x40)) ++ leBytes 8 0)

/-- PWR_STATUS (R403). -/
def execPwrStatus (m : Nat) (h : HostDma) (s : State) : Host.Outcome State Fault Refusal :=
  guarded (decide (m < 11)) (s.mailbox m h 0x405 cmdPwrStatus)

/-- R404: the lowest reading of VCORE groups 0 to 15 in their last completed windows; before the first one a free
value (log 7). -/
def State.vcoreNow (s : State) : Nat × State :=
  match (s.rails.wins.filter fun w => decide (w.1 < 16)).map fun w => w.2.1 with
  | [] => let q := s.freeWord; (q.1.toNat % 1024, q.2)
  | v :: l => (l.foldl min v, s)

/-- TLM_SNAPSHOT (R404). -/
def cmdTlmSnapshot : Cmd := .base true true true .read [3, 4, 5, 6] 0 fun s _ _ =>
  let v := s.vcoreNow
  let low := ((List.range 16).map fun g => s.regN (railAt g + 0x1C) % 1024).foldl min 1023
  .okBody v.2 (leBytes 2 (s.regN (railInAt + 4)) ++ leBytes 2 v.1
    ++ leBytes 2 (s.regN thmAt % 4096) ++ leBytes 2 (s.regN (thmAt + 4))
    ++ leBytes 4 low ++ leBytes 4 0 ++ leBytes 8 s.now.toNat ++ leBytes 8 0)

/-- TLM_SNAPSHOT (R404). -/
def execTlmSnapshot (m : Nat) (h : HostDma) (s : State) : Host.Outcome State Fault Refusal :=
  guarded (decide (m < 11)) (s.mailbox m h 0x500 cmdTlmSnapshot)

/-- R408: three values of a list, padded with 0. -/
def three (n : Nat) (l : List Nat) : List Byte := (List.range 3).flatMap fun a => leBytes n (l.getD a 0)

/-- R408: the bytes of a heat record. -/
def HeatRec.bytes (r : HeatRec) : List Byte :=
  leBytes 4 r.heat ++ leBytes 4 (r.attempts % 256 + r.wide % 4 * 2 ^ 8 + b2n r.committed * 2 ^ 10) ++ leBytes 8 r.tick.toNat
    ++ leBytes 4 r.fwdPlanned ++ leBytes 4 r.fwdRepeated ++ leBytes 4 r.bwdPlanned ++ leBytes 4 r.bwdRepeated
    ++ leBytes 4 r.fullSlots ++ leBytes 4 r.anchorSlots ++ three 4 r.resSlots ++ three 4 r.peaks
    ++ leBytes 4 (r.rollbacks % 65536) ++ leBytes 4 r.restarts ++ three 2 r.causes ++ List.replicate 18 0

/-- R404: `n` is the heat in progress: begun, and not committed (log 40). -/
def State.inProgress (s : State) (n : Nat) : Bool :=
  s.job.loaded && (s.heat.active || decide (0 < s.heat.attempt)) && s.heat.num == n

/-- R404: the record of a heat: one of the last 256 committed ones, or the heat in progress. -/
def State.recOfHeat (s : State) (n : Nat) : Option HeatRec :=
  if s.inProgress n then some s.heatRec else s.heat.recs.reverse.find? (·.heat == n)

/-- TLM_HEAT (R404, R408, R398). -/
def cmdTlmHeat : Cmd :=
  (Cmd.base true true false .read [5, 6] 4 fun s r _ => match s.recOfHeat (r.f 0 4) with
    | none => .refuse s 0xC
    | some x => if x.world = .sable ∧ r.world = .ivory then .refuse s 2 else .okBody s x.bytes).answers fun _ => 96

/-- TLM_HEAT (R404). -/
def execTlmHeat (m : Nat) (h : HostDma) (s : State) : Host.Outcome State Fault Refusal :=
  guarded (decide (m < 11)) (s.mailbox m h 0x501 cmdTlmHeat)

/-- R508: the bytes of a ledger record. -/
def Ledger.bytes (l : Ledger) : List Byte :=
  leBytes 4 l.heat ++ leBytes 4 (l.attempts % 256 + b2n l.committed * 2 ^ 8 + l.wide % 4 * 2 ^ 9)
    ++ leBytes 8 (l.lines.sum + l.jog + l.suspend) ++ ((List.range 6).flatMap fun k => leBytes 8 (l.lines.getD k 0))
    ++ leBytes 8 l.jog ++ leBytes 8 l.suspend ++ leBytes 8 l.voided ++ leBytes 8 l.wideE ++ leBytes 8 l.products
    ++ leBytes 8 l.zeroGated ++ leBytes 8 l.idleSlots ++ leBytes 4 (l.peak % 65536) ++ leBytes 4 l.samples

/-- R404: the ledger of a heat. -/
def State.ledgerOf (s : State) (n : Nat) : Option Ledger :=
  if s.inProgress n then some s.ledgerNow else s.pwr.past.reverse.find? (·.heat == n)

/-- LEDGER_READ (R404, R508, R398). -/
def cmdLedgerRead : Cmd :=
  (Cmd.base true true false .read [5, 6] 4 fun s r _ => match s.ledgerOf (r.f 0 4) with
    | none => .refuse s 0xC
    | some x => if x.world = .sable ∧ r.world = .ivory then .refuse s 2 else .okBody s x.bytes).answers fun _ => 128

/-- LEDGER_READ (R404). -/
def execLedgerRead (m : Nat) (h : HostDma) (s : State) : Host.Outcome State Fault Refusal :=
  guarded (decide (m < 11)) (s.mailbox m h 0x502 cmdLedgerRead)

/-- R386 step 10: RSP_CAP against a response of `n` bytes that COUNT needs. -/
def capCheck (r : Req) (n : Nat) : Option Bad := if 32 < n ∧ r.cap * 64 < n then some (7, det 8 0 n) else none

/-- LEDGER_LAPS (R404, R507): the shares of laps follow core cycles, which the model does not count: free values
(log 37). -/
def cmdLedgerLaps : Cmd :=
  { Cmd.base true true false .read [5, 6] 8 (fun s r _ => match s.ledgerOf (r.f 0 4) with
      | none => .refuse s 0xC
      | some x =>
        if x.world = .sable ∧ r.world = .ivory then .refuse s 2
        else
          let n := 2 * bits (r.f 4 4) 24 12
          .okBody { s with free := s.free + n } ((List.range n).flatMap fun i =>
            leBytes 4 (Config.freeWord (s.free + i)).toNat)) with
    check := fun _ r =>
      let n := bits (r.f 4 4) 24 12
      if bits (r.f 4 4) 31 25 ≠ 0 then badRes 4
      else if n = 0 ∨ 4096 < n then badVal 4
      else capCheck r (8 * n) }

/-- LEDGER_LAPS (R404). -/
def execLedgerLaps (m : Nat) (h : HostDma) (s : State) : Host.Outcome State Fault Refusal :=
  guarded (decide (m < 11)) (s.mailbox m h 0x503 cmdLedgerLaps)

/-- SAFE_STATUS (R405, R546): pods dark, and pods retired by a twin mismatch (R19). -/
def cmdSafeStatus : Cmd := .base true true true .read [3, 4, 5, 6] 0 fun s _ _ =>
  .okBody s (leBytes 4 (s.safState + s.regN (safAt s.actHub + 4) % 256 * 2 ^ 8) ++ leBytes 4 s.evt.lastCrimson
    ++ leBytes 4 s.evt.grey ++ leBytes 4 s.evt.ochre ++ leBytes 4 s.evt.crimson
    ++ leBytes 4 ((List.range 384).filter fun p => s.mapDark p || (s.pod p).dark).length
    ++ leBytes 4 ((List.range 384).filter fun p => (s.pod p).retired).length ++ leBytes 4 0)

/-- SAFE_STATUS (R405). -/
def execSafeStatus (m : Nat) (h : HostDma) (s : State) : Host.Outcome State Fault Refusal :=
  guarded (decide (m < 11)) (s.mailbox m h 0x600 cmdSafeStatus)

/-- R405: a fault-log record as a requester of a world reads it. -/
def LogRec.bytes (x : LogRec) (n : Nat) (w : World) : List Byte :=
  if w = .sable ∨ x.ivory then x.ev.bytes n 0 else leBytes 8 n ++ List.replicate 56 0

/-- FAULT_LOG (R405). -/
def cmdFaultLog : Cmd :=
  { Cmd.base true true false .read [3, 4, 5, 6] 8 (fun s r _ =>
      let first := r.f 0 4
      let old := s.evt.logCount - s.evt.log.length
      if first < old ∨ s.evt.logCount ≤ first then .refuse s 0xC
      else
        let l := (s.evt.log.drop (first - old)).take (r.f 4 4)
        .okBody s ((List.range l.length).flatMap fun k => match l[k]? with
          | some x => x.bytes (first + k) r.world
          | none => [])) with
    check := fun _ r => if r.f 4 4 = 0 ∨ 4096 < r.f 4 4 then badVal 4 else capCheck r (64 * r.f 4 4) }

/-- FAULT_LOG (R405). -/
def execFaultLog (m : Nat) (h : HostDma) (s : State) : Host.Outcome State Fault Refusal :=
  guarded (decide (m < 11)) (s.mailbox m h 0x601 cmdFaultLog)

/-- EVT_FILTER (R405): Grey events of the groups whose bits are 1 stay off the requester's ring. -/
def cmdEvtFilter : Cmd :=
  { Cmd.base true true false .completes [3, 4, 5, 6] 4 (fun s r _ =>
      let e := s.evt
      { s := { s with evt := match r.world with
          | .ivory => { e with filter0 := r.f 0 4 }
          | .sable => { e with filter1 := r.f 0 4 } } }) with
    check := fun _ r => if bits (r.f 0 4) 31 10 ≠ 0 then badRes 0 else none }

/-- EVT_FILTER (R405). -/
def execEvtFilter (m : Nat) (h : HostDma) (s : State) : Host.Outcome State Fault Refusal :=
  guarded (decide (m < 11)) (s.mailbox m h 0x602 cmdEvtFilter)

/-- COOLANT_REPORT (R405, R518 to R521). -/
def cmdCoolantReport : Cmd := .base false false true .completes [3, 4, 5, 6] 4 fun s r _ =>
  { s := s.coolReport (r.f 0 2) (r.f 2 2) }

/-- COOLANT_REPORT (R405). -/
def execCoolantReport (m : Nat) (h : HostDma) (s : State) : Host.Outcome State Fault Refusal :=
  guarded (decide (m < 11)) (s.mailbox m h 0x603 cmdCoolantReport)

/-- R406: the tags that TRAY_IDENT gives; after commit a change of a value in force raises FEED_CHANGE. -/
def State.trayIdent (s : State) (feed tray : Nat) : State :=
  let old := s.ownFeed
  let moved := (decide (s.twin.tray.isSome ∨ old ≠ 0) && feed != old) || s.twin.tray.any fun x => x.2 != tray
  let s := if s.committed && moved then
      s.raiseHub 0x0700 1 (leBytes 4 old ++ leBytes 4 feed ++ leBytes 4 tray) else s
  (s.onTwin fun t => { t with tray := some (feed, tray) }).helloStart

/-- TRAY_IDENT (R406, R554). -/
def cmdTrayIdent : Cmd :=
  { Cmd.base false false true .completes [3, 4, 5, 6] 8 (fun s r _ => { s := s.trayIdent (r.f 0 4) (r.f 4 2) }) with
    check := fun _ r => if r.f 6 2 ≠ 0 then badRes 4 else none }

/-- TRAY_IDENT (R406). -/
def execTrayIdent (m : Nat) (h : HostDma) (s : State) : Host.Outcome State Fault Refusal :=
  guarded (decide (m < 11)) (s.mailbox m h 0x700 cmdTrayIdent)

/-- TWIN_STATUS (R406, R552): a value that the twin has reported supersedes the start list's. -/
def cmdTwinStatus : Cmd := .base true true false .read [5, 6] 0 fun s _ _ =>
  let t := s.twin
  let peer := t.peer.getD (t.twinFeed, t.twinTray)
  .okBody s (leBytes 4 (t.node + t.pairing * 2 ^ 16) ++ leBytes 4 t.batonHeat ++ leBytes 4 s.ownFeed ++ leBytes 4 peer.1
    ++ leBytes 2 s.ownTray ++ leBytes 2 peer.2 ++ List.replicate 12 0)

/-- TWIN_STATUS (R406). -/
def execTwinStatus (m : Nat) (h : HostDma) (s : State) : Host.Outcome State Fault Refusal :=
  guarded (decide (m < 11)) (s.mailbox m h 0x701 cmdTwinStatus)

/-- ID_KEY (R406, R429). -/
def cmdIdKey : Cmd := .base true true true .read [3, 4, 5, 6] 0 fun s _ _ =>
  match s.boot.seed with
  | some k => .okBody s (edPublic k)
  | none => .refuse s 0xC

/-- ID_KEY (R406). -/
def execIdKey (m : Nat) (h : HostDma) (s : State) : Host.Outcome State Fault Refusal :=
  guarded (decide (m < 11)) (s.mailbox m h 0x800 cmdIdKey)

/-- R18: the core map. -/
def State.mapBytes (s : State) : List Byte := (List.range 384).flatMap fun p => leBytes 4 (Tab.get s.coreMap p 0).toNat

/-- R408: the attestation report but for its signature. -/
def State.report (s : State) (nonce : List Byte) : List Byte :=
  leBytes 4 s.versionWord ++ leBytes 4 (s.regN (bootAt + 0x10)) ++ leBytes 8 s.now.toNat ++ fit 32 nonce
    ++ fit 64 s.boot.fwDigest ++ fit 64 s.digest ++ s.mapBytes

/-- ATTEST (R406, R408, R430). -/
def cmdAttest : Cmd :=
  (Cmd.base true true false .read [3, 4, 5, 6] 32 fun s r _ => match s.boot.seed with
    | some k => .okBody s (s.report r.data ++ edSign k (s.report r.data))
    | none => .refuse s 0xC).answers fun _ => 1776

/-- ATTEST (R406). -/
def execAttest (m : Nat) (h : HostDma) (s : State) : Host.Outcome State Fault Refusal :=
  guarded (decide (m < 11)) (s.mailbox m h 0x801 cmdAttest)

/-- CORE_MAP (R406, R18). -/
def cmdCoreMap : Cmd :=
  (Cmd.base true true false .read [4, 5, 6] 0 fun s _ _ => .okBody s s.mapBytes).answers fun _ => 1536

/-- CORE_MAP (R406). -/
def execCoreMap (m : Nat) (h : HostDma) (s : State) : Host.Outcome State Fault Refusal :=
  guarded (decide (m < 11)) (s.mailbox m h 0x802 cmdCoreMap)

/-- R241: entry `n` of a retirement list. -/
def retEntry (l : List Byte) (n : Nat) : RetEntry :=
  let e := fld l (16 + 8 * n) 8
  { row := { stack := bits e 2 0, pc := bits e 7 3, bank := bits e 13 8, row := bits e 31 14 }
    kind := bits e 33 32, origin := bits e 35 34, frame := bits e 51 36 }

/-- R241: entries of a retirement list. -/
def retEntries (l : List Byte) : List RetEntry := (List.range ((l.length - 16) / 8)).map (retEntry l)

/-- R241, R424: an entry whose fields are out of range. -/
def retBad (e : RetEntry) : Bool :=
  decide (47 < e.row.bank ∨ e.kind = 3 ∨ e.origin = 3) || (if e.kind = 1 then decide (40960 ≤ e.frame) else e.frame != 0)

/-- R424: the checks of a hand-back list. -/
def handCheck (l : List Byte) : Option Bad :=
  if l.isEmpty then none
  else
    let n := (l.length - 16) / 8
    let es := retEntries l
    if fld l 8 8 ≠ 0 then badRes 8
    else match (List.range n).find? fun k => bits (fld l (16 + 8 * k) 8) 63 52 != 0 with
      | some k => badRes (16 + 8 * k)
      | none =>
        if fld l 0 4 ≠ n then badVal 0
        else if fld l 4 4 ≠ (es.filter (·.kind == 1)).length then badVal 4
        else match (List.range n).find? fun k => retBad (retEntry l k)
            || (decide (0 < k) && rowBefore (retEntry l k).row (retEntry l (k - 1)).row) with
          | some k => badVal (16 + 8 * k)
          | none => none

/-- R388: NEED of SELFTEST: no list, or a header and whole entries. -/
def handNeed (l : Nat) : Option Nat :=
  if l = 0 then none
  else if l ≤ 8 then some 0
  else if 16 + 8 * 16384 < l then some (16 + 8 * 16384)
  else if l < 16 then some 16
  else if l % 8 = 0 then none
  else some ((l + 3) / 8 * 8)

/-- SELFTEST (R424, R425): self-test starts; SELFTEST_DONE ends it. -/
def cmdSelftest : Cmd :=
  { Cmd.base true false false .deferred [3] 0 (fun s r _ =>
      { s := s.onBoot fun b => { b with testing := true, handback := if r.data.isEmpty then [] else retEntries r.data }
        wait := true }) with
    ok := fun s => !s.boot.testing &&
      (decide ((s.now - s.boot.t3).toNat < 100000000) || s.hub.deferred.any fun d => d.op == 0x900)
    need := handNeed
    check := fun _ r => handCheck r.data }

/-- SELFTEST (R406). -/
def execSelftest (m : Nat) (h : HostDma) (s : State) : Host.Outcome State Fault Refusal :=
  guarded (decide (m < 11)) (s.mailbox m h 0x900 cmdSelftest)

/-- R241: the retirement list. -/
def State.retList (s : State) : List Byte :=
  leBytes 4 s.retired.length ++ leBytes 4 (s.retired.filter (·.kind == 1)).length ++ leBytes 8 0
    ++ s.retired.flatMap retBytes

/-- RETIRE_READ (R406, R241). -/
def cmdRetireRead : Cmd :=
  (Cmd.base true true false .read [4, 5, 6] 0 fun s _ _ => .okBody s s.retList).answers fun s => s.retList.length

/-- RETIRE_READ (R406). -/
def execRetireRead (m : Nat) (h : HostDma) (s : State) : Host.Outcome State Fault Refusal :=
  guarded (decide (m < 11)) (s.mailbox m h 0x901 cmdRetireRead)

end Sys2Proof.Machine
end

