-- ==== Sys2Proof/Machine/StartList.lean ====
section
/-!
DEFINITION. The start list (R431 to R442, R196 to R199, R219, R299, R449, R459): its checks, and the commit.
-/
namespace Sys2Proof.Machine

/-- R431, R433: the TLVs of an image in order: type and offset of the header. -/
abbrev Tlvs := List (Nat × Nat)

/-- R434: the types and the length of their values. -/
def tlvTypes : List (Nat × Nat) :=
  [(0x0001, 4), (0x0002, 64), (0x0003, 4096), (0x0004, 24), (0x0005, 4), (0x0006, 4), (0x0007, 16), (0x0008, 12),
   (0x0009, 8), (0x8001, 32), (0x8002, 32), (0x8003, 32), (0x8004, 344), (0x80FF, 64)]

/-- R388, R400: a fault of the staged start list; `st` is BAD_RESERVED or BAD_VALUE. -/
def slBad (st off : Nat) : Bad := (st, det off 2 0)

/-- R431: the header. -/
def slHead (img : List Byte) : Option Bad :=
  let w := fld img 4 4
  let off := fld img 0xC 4
  if fld img 0 4 ≠ 0x5A4C5354 then some (slBad 6 0)
  else if bits w 31 16 ≠ 0 then some (slBad 5 4)
  else if bits w 3 0 ≠ 1 ∨ bits w 7 4 ≠ 1 ∨ Config.fwMinor.toNat < bits w 15 8 then some (slBad 6 4)
  else if fld img 8 4 ≠ img.length ∨ img.length % 8 ≠ 0 then some (slBad 6 8)
  else if off ≠ 0 ∧ (off < 16 ∨ img.length ≤ off ∨ off % 8 ≠ 0) then some (slBad 6 0xC)
  else none

/-- R433: types that appear once have their type as key; PORT and DRILL count per port and handle. -/
def tlvKey (img : List Byte) (t : Nat × Nat) : Nat × Nat :=
  (t.1, if t.1 = 4 ∨ t.1 = 0x8004 then fld img (t.2 + 8) 1 % 16 else 0)

/-- R432, R433: the checks of one TLV at `p`; the end of it when it stands. -/
def tlvCheck (img : List Byte) (soff p : Nat) (ts : Tlvs) : Except Bad Nat :=
  let ty := fld img p 2
  let len := fld img (p + 4) 4
  let nxt := p + 8 + ceilDiv len 8 * 8
  if fld img (p + 2) 2 ≠ 0 then .error (slBad 5 p)
  else match tlvTypes.find? fun x => x.1 == ty with
    | none => .error (slBad 6 p)
    | some (_, n) =>
      if len ≠ n ∨ img.length < nxt then .error (slBad 6 (p + 4))
      else match (List.range (nxt - (p + 8 + len))).find? fun i => fld img (p + 8 + len + i) 1 != 0 with
        | some i => .error (slBad 5 (p + 8 + len + i))
        | none =>
          if soff ≠ 0 ∧ p < soff ∧ soff < nxt then .error (slBad 6 0xC)
          else if decide (0x8000 ≤ ty) != (soff != 0 && decide (soff ≤ p)) then .error (slBad 6 p)
          else if soff ≠ 0 ∧ p = soff ∧ ty ≠ 0x8001 then .error (slBad 6 p)
          else if ts.any fun t => tlvKey img t == tlvKey img (ty, p) then .error (slBad 6 p)
          else .ok nxt

/-- R432, R433: the TLV chain from `p` on; `n` bounds its length. -/
def tlvWalk (img : List Byte) (soff : Nat) : Nat → Nat → Tlvs → Except Bad Tlvs
  | 0, _, ts => .ok ts
  | n + 1, p, ts =>
    if img.length ≤ p then .ok ts
    else match tlvCheck img soff p ts with
      | .error e => .error e
      | .ok nxt => tlvWalk img soff n nxt (ts ++ [(fld img p 2, p)])

/-- R433, R434: what a Sable section has to hold. -/
def sableCheck (soff : Nat) (ts : Tlvs) : Option Bad :=
  if soff = 0 then none
  else
    let key := ts.find? fun t => t.1 == 0x8003
    match ts.getLast? with
    | none => some (slBad 6 0xC)
    | some l =>
      if l.1 ≠ 0x80FF then some (slBad 6 (((ts.find? fun t => t.1 == 0x80FF).map (·.2)).getD l.2))
      else if !ts.any fun t => t.1 == 0x8002 then some (slBad 6 0xC)
      else (ts.find? fun t => t.1 == 0x8004 && !key.any fun k => decide (k.2 < t.2)).map fun t => slBad 6 t.2

/-- R437 check 2: the TLVs of an image. -/
def slWalk (img : List Byte) : Except Bad Tlvs :=
  match slHead img with
  | some e => .error e
  | none =>
    match tlvWalk img (fld img 0xC 4) (img.length / 8 + 1) 16 [] with
    | .error e => .error e
    | .ok ts =>
      match sableCheck (fld img 0xC 4) ts with
      | some e => .error e
      | none => .ok ts

/-- The offset of the value of a type that appears once. -/
def tlvAt (ts : Tlvs) (ty : Nat) : Option Nat := (ts.find? fun t => t.1 == ty).map fun t => t.2 + 8

/-- R199: the signature of a drill image. -/
def drillSigOk (key img : List Byte) : Bool := edVerify key (sub img 0 0x110) (sub img 0x110 64)

/-- R437 check 3: SABLE_SIG, then each drill image's signature. -/
def slSigned (img : List Byte) (ts : Tlvs) : Bool :=
  match tlvAt ts 0x8001, tlvAt ts 0x80FF with
  | some o, some g =>
    edVerify (sub img o 32) (img.take (g - 8)) (sub img g 64)
      && (ts.filter fun t => t.1 == 0x8004).all fun t =>
        drillSigOk (sub img ((tlvAt ts 0x8003).getD 0) 32) (sub img (t.2 + 16) 336)
  | _, _ => fld img 0xC 4 == 0

/-- R197: the bits of an instruction word that an OP uses, OP itself apart; none for an illegal OP. -/
def drillMask (op : Nat) : Option Nat :=
  let rd := 0xF * 2 ^ 22
  let a := 0x1F * 2 ^ 17
  let b := 0x1F * 2 ^ 12
  let c := 0x1F * 2 ^ 7
  if op = 0 then some 0
  else if op = 0x12 then some (rd + 0xFF * 2 ^ 9)
  else if op = 1 ∨ (8 ≤ op ∧ op ≤ 0xF) then some (rd + a)
  else if [2, 3, 4, 6, 7, 0x10].contains op then some (rd + a + b)
  else if op = 5 ∨ op = 0x11 then some (rd + a + b + c)
  else none

/-- R196, R199: reserved fields of a drill image that are nonzero. -/
def drillRes (img : List Byte) : List Nat :=
  let n := fld img 4 1 % 128
  (if bits (fld img 4 4) 31 10 ≠ 0 then [4] else []) ++ (if fld img 0xC 4 ≠ 0 then [0xC] else [])
    ++ (List.range 64).filterMap fun i =>
      let w := fld img (0x10 + 4 * i) 4
      let bad := if n ≤ i then w != 0 else match drillMask (w / 2 ^ 26) with
        | some m => w % 2 ^ 26 != (w % 2 ^ 26) &&& m
        | none => false
      if bad then some (0x10 + 4 * i) else none

/-- R196, R199: MAGIC, COUNT and OPs of a drill image that are wrong. -/
def drillVal (img : List Byte) : List Nat :=
  let n := fld img 4 1 % 128
  (if fld img 0 4 ≠ 0x00014C44 then [0] else []) ++ (if n = 0 ∨ 64 < n then [4] else [])
    ++ (List.range 64).filterMap fun i =>
      if i < n ∧ (drillMask (fld img (0x10 + 4 * i) 4 / 2 ^ 26)).isNone then some (0x10 + 4 * i) else none

/-- R218: an entry of a region table: base, size in bytes, flags. -/
def regionEnt (tab : List Byte) (i : Nat) : Nat × Nat × Nat :=
  (fld tab (16 * i) 8 % 2 ^ 48 / 2 ^ 21 * 2 ^ 21, fld tab (16 * i + 8) 4 % 2 ^ 20 * 2 ^ 21, fld tab (16 * i + 12) 4)

/-- R218: reserved fields of a region table. -/
def regionRes (tab : List Byte) : List Nat :=
  (List.range 256).flatMap fun i =>
    (if fld tab (16 * i) 8 % 2 ^ 21 ≠ 0 ∨ fld tab (16 * i + 6) 2 ≠ 0 then [16 * i] else [])
      ++ (if bits (fld tab (16 * i + 8) 4) 31 20 ≠ 0 then [16 * i + 8] else [])
      ++ (if bits (fld tab (16 * i + 12) 4) 31 6 ≠ 0 then [16 * i + 12] else [])

/-- R218, R219: fields of the valid entries that are out of range: SIZE, the range, LOCAL's alignment, flags. -/
def regionVal (tab : List Byte) : List Nat :=
  (List.range 256).flatMap fun i =>
    let (b, n, f) := regionEnt tab i
    let hbm := decide (b + n ≤ 0xA000000000)
    let res := decide (0x10000000000 ≤ b ∧ b + n ≤ 0x10080000000)
    if !bit f 0 then []
    else (if !hbm && !res then [16 * i] else []) ++ (if n = 0 then [16 * i + 8] else [])
      ++ (if bit f 4 && b % 2 ^ 24 != 0 then [16 * i] else []) ++ (if bit f 4 && n % 2 ^ 24 != 0 then [16 * i + 8] else [])
      ++ (if (hbm && bit f 2) || (!hbm && (bit f 3 || bit f 4)) then [16 * i + 12] else [])

/-- R219: valid entries that overlap an earlier one, or a retired frame. -/
def regionCross (tab : List Byte) (frames : List Nat) : List Nat :=
  (List.range 256).filterMap fun i =>
    let (b, n, f) := regionEnt tab i
    let meets := fun (x y : Nat) => decide (b < x + y ∧ x < b + n)
    if bit f 0 && ((List.range i).any (fun j =>
        let (x, y, g) := regionEnt tab j
        bit g 0 && meets x y) || frames.any fun k => meets (k * 2 ^ 24) (2 ^ 24)) then some (16 * i) else none

/-- A field is out of the bounds that R434 gives. -/
def outside (x lo hi : Nat) : Bool := decide (x < lo ∨ hi < x)

/-- R434 to R436: reserved fields of the value at `v`, as image offsets. -/
def slRes (img : List Byte) (ty v : Nat) : List Nat :=
  let w := fun o => fld img (v + o) 4
  let bad := fun (o hi lo : Nat) => if bits (w o) hi lo ≠ 0 then [v + o] else []
  match ty with
  | 0x0001 => bad 0 31 16
  | 0x0002 => bad 4 31 10 ++ bad 8 31 16
  | 0x0003 => (regionRes (sub img v 4096)).map (v + ·)
  | 0x0004 => bad 0 31 11 ++ (if fld img (v + 14) 2 ≠ 0 then [v + 8] else []) ++ (if fld img (v + 22) 2 ≠ 0 then [v + 16] else [])
  | 0x0005 => bad 0 31 3
  | 0x0006 => bad 0 31 4
  | 0x0007 => bad 0 31 17 ++ bad 0xC 31 16
  | 0x0008 => bad 0 3 1 ++ bad 0 31 8 ++ bad 8 31 16
  | 0x0009 => bad 4 31 16
  | 0x8004 => bad 0 31 4 ++ bad 4 31 0 ++ (drillRes (sub img (v + 8) 336)).map (v + 8 + ·)
  | _ => []

/-- R434 to R436: fields of the value at `v` that are out of range, as image offsets. -/
def slVal (img : List Byte) (ty v : Nat) : List Nat :=
  let w := fun o => fld img (v + o) 4
  match ty with
  | 0x0003 => (regionVal (sub img v 4096)).map (v + ·)
  | 0x0004 => if 5 ≤ bits (w 0) 6 4 ∨ bits (w 0) 8 7 = 3 ∨ bits (w 0) 10 9 = 3 then [v] else []
  | 0x0005 => if 4 < bits (w 0) 2 0 then [v] else []
  | 0x0008 => (if outside (bits (w 4) 15 0) 400 1200 || outside (bits (w 4) 31 16) 150 1200 then [v + 4] else [])
      ++ (if outside (bits (w 8) 15 0) 6 400 then [v + 8] else [])
  | 0x0009 => (if outside (bits (w 0) 15 0) 800 950 || outside (bits (w 0) 31 16) 1500 2000 then [v] else [])
      ++ (if outside (bits (w 4) 15 0) 20 60 then [v + 4] else [])
  | 0x8004 => (drillVal (sub img (v + 8) 336)).map (v + 8 + ·)
  | _ => []

/-- R436: word `o` of the value of PORT TLVs, by port. -/
def portVals (img : List Byte) (ts : Tlvs) : List (Nat × Nat) :=
  (ts.filter fun t => t.1 == 4).map fun t => (fld img (t.2 + 8) 1 % 16, t.2 + 8)

/-- R449, R299: PORT values with a time role that they may not have. -/
def portCross (img : List Byte) (ts : Tlvs) : List Nat :=
  let role := fun (v : Nat) => bits (fld img v 4) 10 9
  let vs := (portVals img ts).map (·.2)
  (vs.filter fun v => decide (3 ≤ bits (fld img v 4) 6 4) && role v != 0)
    ++ ((vs.filter fun v => role v == 1).drop 1)

/-- R435: a bit of BLOCK_WORLD. -/
def worldBit (img : List Byte) (ts : Tlvs) (n : Nat) : Bool :=
  match tlvAt ts 2 with
  | some v => bit (fld img (v + n / 8) 1) (n % 8)
  | none => false

/-- R437 check 5, R438, R449, R459: cross-checks, as image offsets. -/
def slCross (img : List Byte) (ts : Tlvs) (frames : List Nat) : List Nat :=
  let reg := match tlvAt ts 3 with
    | some v => (regionCross (sub img v 4096) frames).map (v + ·) ++
        (if fld img 0xC 4 = 0 then (List.range 256).filterMap fun i =>
          if bits (fld img (v + 16 * i + 12) 4) 1 0 = 3 then some (v + 16 * i + 12) else none else [])
    | none => []
  let wld := match tlvAt ts 2 with
    | some v => if fld img 0xC 4 = 0 then ((List.range 16).filter fun i => fld img (v + 4 * i) 4 != 0).map fun i => v + 4 * i else []
    | none => []
  let bsh := match tlvAt ts 6 with
    | some v => if (List.range 4).any fun n => bit (fld img v 4) n && (worldBit img ts (96 + 8 * n + 7) != worldBit img ts (32 + n))
        then [match tlvAt ts 2 with
          | some u => u + 12
          | none => v] else []
    | none => []
  let pwr := match tlvAt ts 8 with
    | some v =>
      let s := if (portVals img ts).any fun q => bits (fld img q.2 4) 6 4 != 0 then 170 else 90
      if !bit (fld img v 4) 0 && decide (bits (fld img (v + 4) 4) 31 16 < s) then [v] else []
    | none => []
  reg ++ wld ++ portCross img ts ++ bsh ++ pwr

/-- The lowest of a list of offsets. -/
def lowest : List Nat → Option Nat
  | [] => none
  | x :: l => some (l.foldl min x)

/-- R437: checks 2 to 5 of an image: its TLVs, or the first failure. -/
def slCheck (img : List Byte) (frames : List Nat) : Except Bad Tlvs :=
  match slWalk img with
  | .error e => .error e
  | .ok ts =>
    if !slSigned img ts then .error (0xD, [])
    else match lowest (ts.flatMap fun t => slRes img t.1 (t.2 + 8)) with
      | some o => .error (slBad 5 o)
      | none => match lowest (ts.flatMap fun t => slVal img t.1 (t.2 + 8)) with
        | some o => .error (slBad 6 o)
        | none => match lowest (slCross img ts frames) with
          | some o => .error (slBad 6 o)
          | none => .ok ts

/-- R322, R434, R436, R439: the LK registers of port `p` with the values that an image gives them. -/
def lkValues (img : List Byte) (ts : Tlvs) (p : Nat) : List (Nat × Nat) :=
  let node := match tlvAt ts 1 with
    | some v => fld img v 2
    | none => 0
  let v := ((portVals img ts).find? fun q => q.1 == p).map (·.2)
  let f := fun (g : Nat → Nat) => match v with
    | some v => g v
    | none => 0
  let a := lnkAt p
  [(a, f fun v => bits (fld img v 4) 8 4), (a + 4, node), (a + 0x1C, f fun v => bits (fld img v 4) 10 9),
   (a + 0x20, f fun v => fld img (v + 4) 2), (a + 0x24, f fun v => fld img (v + 6) 2),
   (a + 0x28, f fun v => fld img (v + 8) 4), (a + 0x2C, f fun v => fld img (v + 12) 2),
   (a + 0x30, f fun v => fld img (v + 16) 4), (a + 0x34, f fun v => fld img (v + 20) 2)]

/-- R435, R443: the block worlds of an image. -/
def slWorlds (img : List Byte) (ts : Tlvs) : Worlds :=
  let sel := fun (base n : Nat) => (List.range n).filter fun k => worldBit img ts (base + k)
  { dies := sel 0 32, edges := sel 32 4, relays := sel 36 4, rvs := sel 40 2, ports := sel 64 16, chans := sel 96 32
    pods := sel 128 384 }

/-- R434, R481: the settings of the POWER TLV; a start-list budget is in effect from the commit on. -/
def State.slPower (s : State) (img : List Byte) (ts : Tlvs) : State :=
  let (w0, w4, w8) := match tlvAt ts 8 with
    | some v => (fld img v 4, fld img (v + 4) 4, fld img (v + 8) 4)
    | none => (0, 1200 + 1200 * 2 ^ 16, 24)
  let s := (s.putField pwrAt 6 6 (w0 % 2)).setRegN (pwrAt + 0x18) (bits w0 7 4 + w8 % 2 ^ 16 * 2 ^ 16)
  s.onPwr fun p => { p with
    ceiling := bits w4 15 0, budget := bits w4 31 16, budgetTick := some s.now, path := none, nextBudget := none, nextCeil := none }

/-- R434, R516, R518, R527: the settings of the SAFETY TLV. -/
def State.slSafety (s : State) (img : List Byte) (ts : Tlvs) : State :=
  let (w0, w4) := match tlvAt ts 9 with
    | some v => (fld img v 4, fld img (v + 4) 4)
    | none => (950 + 1500 * 2 ^ 16, 60)
  let thr := bits w0 15 0
  let s := s.setRegN (thmAt + 0xC) (thr + (thr - 100) * 2 ^ 12 + w4 % 2 ^ 16 * 2 ^ 24)
  let s := s.onThm fun t => { t with flowMin := bits w0 31 16 }
  s.setRegN (thmAt + 8) (s.flowReq (bits (s.regN (thmAt + 4)) 31 16))

/-- R434, R552: the TWIN TLV. -/
def State.slTwin (s : State) (img : List Byte) (ts : Tlvs) : State :=
  match tlvAt ts 7 with
  | none => s
  | some v => s.onTwin fun t => { t with
      given := true, node := fld img v 2, paired := bit (fld img v 4) 16, ownFeed := fld img (v + 4) 4
      twinFeed := fld img (v + 8) 4, twinTray := fld img (v + 12) 2 }

/-- R199, R434: the drill handles. -/
def slDrills (img : List Byte) (ts : Tlvs) : Tab (List Byte) :=
  (ts.filter fun t => t.1 == 0x8004).foldl
    (fun d t => Tab.set d (fld img (t.2 + 8) 1 % 16) (sub img (t.2 + 16) 336)) []

/-- R235, R434: the pin rate of all eight stacks in tenths of Gb/s; 9.6 Gb/s where the list has no HBM TLV. -/
def slPinRate (img : List Byte) (ts : Tlvs) : Nat :=
  match tlvAt ts 5 with
  | some v => 64 + 8 * bits (fld img v 4) 2 0
  | none => 96

/-- R439, R440: the firmware writes what the image gives, and locks. -/
def State.slApply (s : State) (img : List Byte) (ts : Tlvs) : State :=
  let regs := (List.range 16).flatMap (lkValues img ts)
  let s := regs.foldl (fun s q => s.setRegN q.1 q.2) s
  let rsv := match tlvAt ts 6 with
    | some v => fld img v 4
    | none => 0
  let s := s.forAll (List.range 4) fun e s => s.putField (bshAt e 7 + 0x44) 2 2 (b2n (bit rsv e))
  let s := { s with
    regions := match tlvAt ts 3 with
      | some v => sub img v 4096
      | none => List.replicate 4096 0
    pinRate := slPinRate img ts, worlds := slWorlds img ts, drills := slDrills img ts, digest := sha512 img, committed := true
    boot := { s.boot with staged := none, imageA := img, imageB := img } }
  ((s.slPower img ts).slSafety img ts).slTwin img ts

/-- R437, R439: SL_COMMIT of the staged image; the commit tick is this step's. A failed commit changes nothing. -/
def State.slCommit (s : State) (digest : List Byte) : Res :=
  match s.boot.staged with
  | none => .refuse s 8
  | some img =>
    if sha512 img ≠ digest then { st := 6, body := det 0 1 0, s := s }
    else match slCheck img ((s.retired.filter (·.kind == 1)).map (·.frame)) with
      | .error e => { st := e.1, body := e.2, s := s }
      | .ok ts => { s := ((s.slApply img ts).setHif 5).autoState.poolRefresh }

/-- SL_COMMIT (R400, R437). -/
def cmdSlCommit : Cmd :=
  { Cmd.base true false false .deferred [4] 64 (fun s r _ => s.slCommit r.data) with
    ok := fun s => s.boot.staged.isSome }

/-- SL_COMMIT (R400). -/
def execSlCommit (m : Nat) (h : HostDma) (s : State) : Host.Outcome State Fault Refusal :=
  guarded (decide (m < 11)) (s.mailbox m h 0x101 cmdSlCommit)

/-- R199: DRILL_INSTALL of an image into a handle: the signature, reserved fields, values; a handle that a shard
of a running job names is in use. Offsets of the detail lie in the payload. -/
def State.drillInstall (s : State) (p : List Byte) : Res :=
  let h := fld p 0 1 % 16
  let img := sub p 8 336
  let named := s.job.loaded && (List.range s.shardCount).any fun i => s.shOpt i == 0x10 && s.shHandle i == h
  if s.heat.active && named then .refuse s 0xB
  else { s := { s with drills := Tab.set s.drills h img } }

/-- R199, R386: steps 9 and 10 of DRILL_INSTALL. -/
def drillCheck (key : Option (List Byte)) (p : List Byte) : Option Bad :=
  let img := sub p 8 336
  if !key.any fun k => drillSigOk k img then some (0xD, [])
  else match lowest ((if bits (fld p 0 4) 31 4 ≠ 0 then [0] else []) ++ (if fld p 4 4 ≠ 0 then [4] else [])
      ++ (drillRes img).map (8 + ·)) with
    | some o => badRes o
    | none => match lowest ((drillVal img).map (8 + ·)) with
      | some o => badVal o
      | none => none

/-- DRILL_INSTALL (R401, R199). -/
def cmdDrillInstall : Cmd :=
  { Cmd.base false true false .completes [5] 344 (fun s r _ => s.drillInstall r.data) with
    check := fun s r => drillCheck (tlvFind s.image 0x8003 1024 16) r.data }

/-- DRILL_INSTALL (R401). -/
def execDrillInstall (m : Nat) (h : HostDma) (s : State) : Host.Outcome State Fault Refusal :=
  guarded (decide (m < 11)) (s.mailbox m h 0x210 cmdDrillInstall)

/-- R401: DRILL_CLEAR: a handle that a shard of the loaded job names is in use. -/
def State.drillClear (s : State) (h : Nat) : Res :=
  if s.job.loaded && (List.range s.shardCount).any fun i => s.shOpt i == 0x10 && s.shHandle i == h then .refuse s 0xB
  else { s := { s with drills := Tab.del s.drills h } }

/-- DRILL_CLEAR (R401): [3:0] HANDLE; the other bits of the word are reserved. -/
def cmdDrillClear : Cmd :=
  { Cmd.base false true false .completes [5] 4 (fun s r _ => s.drillClear (r.f 0 4 % 16)) with
    check := fun _ r => if bits (r.f 0 4) 31 4 ≠ 0 then badRes 0 else none }

/-- DRILL_CLEAR (R401). -/
def execDrillClear (m : Nat) (h : HostDma) (s : State) : Host.Outcome State Fault Refusal :=
  guarded (decide (m < 11)) (s.mailbox m h 0x211 cmdDrillClear)

/-- R537: the first LK register that differs from what the image gives it. -/
def State.lkWrong (s : State) (img : List Byte) : Option Nat :=
  match slWalk img with
  | .error _ => none
  | .ok ts => (((List.range 16).flatMap (lkValues img ts)).find? fun q => s.regN q.1 != q.2).map (·.1)

/-- CONFIG_CHECK (R537): a check at a multiple of 1,000,000 ticks after the commit. -/
def State.configCheck (s : State) : State :=
  let a := sha512 s.boot.imageA == s.digest
  let b := sha512 s.boot.imageB == s.digest
  let s := (s.setReg64 (safAt s.actHub + 0x10) s.now.toNat).count (safAt s.actHub + 0x18) 1
  let bad := fun (addr : Nat) => s.devCrimson 0x0626 7 s.hubSource .sable (leBytes 8 addr)
  if !a && !b then bad 0
  else match s.lkWrong (if a then s.boot.imageA else s.boot.imageB) with
    | some r => bad r
    | none =>
      if a && b then s
      else
        let img := if a then s.boot.imageA else s.boot.imageB
        ((s.onBoot fun x => { x with imageA := img, imageB := img }).latchSf 7).raise .sable 0x0625 1 s.hubSource
          (leBytes 4 (b2n a))

/-- CONFIG_CHECK (R537). -/
def execConfigCheck (s : State) : Host.Outcome State Fault Refusal :=
  .next (
    if s.committed && !s.safe && decide (s.now.toNat % 1000000 = 0) &&
      s.reg64 (safAt s.actHub + 0x10) != s.now.toNat then s.configCheck else s)

end Sys2Proof.Machine
end

