-- ==== Sys2Proof/Machine/JobDesc.lean ====
section
/-!
DEFINITION. The checks of a job descriptor and of the tables that it reaches (R407): its own fields at steps 9 and
10; at step 11 R161, R167, R171, R188, R199, R226, R228, R231, R325 to R331, R348, R356, R448, R565, R587; of a
baton map (R556). Step 11 looks at a state that holds the descriptor as its job, in the order of the descriptor's
fields (log 63).
-/
namespace Sys2Proof.Machine

/-- R407: BAD_JOB of the descriptor's own field, WHERE 1. -/
def jobBad (off : Nat) : Option Bad := some (9, det off 1 0)
/-- R407: BAD_JOB of a table entry at `a`, WHERE 3. -/
def entBad (off a : Nat) : Option Bad := some (9, det off 3 (a % 2 ^ 48))
/-- The first field of an entry that is at fault. -/
def entFirst (a : Nat) (l : List (Bool × Nat)) : Option Bad := (l.find? (·.1)).bind fun x => entBad x.2 a
/-- A refusal where a condition holds. -/
def badIf (c : Bool) (b : Option Bad) : Option Bad := if c then b else none
/-- The first refusal for the indices below `n`. -/
def badAmong (n : Nat) (f : Nat → Option Bad) : Option Bad := (List.range n).findSome? f

/-- R407: the address fields of the descriptor. -/
def jobAddrs : List Nat :=
  [0x18, 0x28, 0x30, 0x40, 0x50, 0x58, 0x68, 0x70, 0x78, 0x80, 0x88, 0xA0, 0xB0, 0xB8, 0xC0, 0xD0]

/-- R407: reserved fields of the descriptor: offset, bytes, highest defined bit + 1. -/
def jobReserved : List (Nat × Nat × Nat) :=
  [(4, 4, 14), (0x10, 1, 6), (0x11, 1, 6), (0x12, 1, 6), (0x13, 1, 6), (0x14, 1, 6), (0x15, 3, 0), (0x18, 8, 48),
   (0x20, 4, 24), (0x28, 8, 48), (0x30, 8, 48), (0x3C, 4, 13), (0x40, 8, 48), (0x50, 8, 48), (0x58, 8, 48), (0x64, 4, 25),
   (0x68, 8, 48), (0x70, 8, 48), (0x78, 8, 48), (0x80, 8, 48), (0x88, 8, 48), (0xA0, 8, 48), (0xA8, 4, 27)]

/-- R407 step 9: the first reserved field that is nonzero. -/
def jobRes (d : List Byte) : Option Nat :=
  match (jobReserved.find? fun q => 2 ^ q.2.2 ≤ fld d q.1 q.2.1).map (·.1) with
  | some o => some o
  | none =>
    if bits (fld d 0xAC 4) 15 13 ≠ 0 ∨ bits (fld d 0xAC 4) 31 28 ≠ 0 then some 0xAC
    else (([0xB0, 0xB8, 0xC0, 0xD0].find? fun o => decide (2 ^ 48 ≤ fld d o 8)).or
      (if allZero (sub d 0xDC 36) then none else some 0xDC))

/-- R407 step 10: fields that break their own limits (R34, R171, R186, R325, R329, R348, R353). -/
def jobVal (d : List Byte) : Option Nat :=
  let w := fun (o : Nat) => fld d o 4
  let al := fun (o n : Nat) => (o, fld d o 8 % n != 0)
  let op := fun (o : Nat) => (o, !decide (fld d o 1 % 8 ≤ bits (w o) 5 3 ∧ bits (w o) 5 3 ≤ 4))
  (([(4, outside (w 4 % 2 ^ 13) 1 4096), op 0x10, op 0x11, op 0x12, op 0x13, op 0x14, al 0x18 128,
     (0x20, w 0x20 % 2 ^ 24 == 0), al 0x28 16, al 0x30 16, (0x3C, outside (w 0x3C % 2 ^ 13) 1 4096), al 0x40 64,
     (0x48, w 0x48 == 0), (0x4C, outside (w 0x4C) 0 (min 32768 (w 0x48))), al 0x50 0x200000, al 0x58 0x10000,
     (0x64, fld d 0x64 2 == 0 || outside (bits (w 0x64) 24 16) 1 256), al 0x68 64, al 0x70 64, al 0x88 64,
     (0x94, fld d 0x96 2 != w 0x4C), (0xA0, fld d 0xA8 2 != 0 && fld d 0xA0 8 % 64 != 0),
     (0xA8, outside (bits (w 0xA8) 26 16) 0 1024),
     (0xAC, outside (w 0xAC % 2 ^ 13) 1 4096 || bits (w 0xAC) 27 16 == 0), al 0xB0 64, al 0xB8 64, al 0xC0 16,
     (0xC8, outside (w 0xC8) 1000 600000000), (0xCC, outside (w 0xCC) 1000 1000000), al 0xD0 0x200000] :
    List (Nat × Bool)).find? (·.2)).map (·.1)

/-- R386, R407: steps 9 and 10 of a descriptor. -/
def jobForm (d : List Byte) : Option Bad :=
  match jobRes d with
  | some o => badRes o
  | none => (jobVal d).bind badVal

/-- What a range has to lie in. -/
inductive Tier where
  | any
  | hbm
  | res
  deriving DecidableEq, Repr

/-- R407, R221: a range that the job names: unclaimed space and Sable space of an Ivory job give DENIED, any other
failure, and another tier than the named one (log 64), BAD_JOB. -/
def State.jobMem (j : State) (a n : Nat) (t : Tier) (bad : Option Bad) : Option Bad :=
  let tier := match t, j.place a with
    | .hbm, .hbm => true
    | .hbm, _ => false
    | .res, .res => true
    | .res, _ => false
    | .any, _ => true
  match j.check j.job.world a (max 1 n) with
  | .ok => badIf (!tier) bad
  | .denied => some (2, [])
  | _ => bad

/-- R448: an Ivory job names a Sable block. -/
def State.jobSable (j : State) (w : World) : Option Bad :=
  if j.job.world = .ivory ∧ w = .sable then some (2, []) else none

/-- R587: elements of a weight tensor. -/
def State.elemCount (j : State) (t : Nat) : Nat :=
  let rows := j.word (j.sbAddr t + 0x14) 4
  let cols := j.word (j.sbAddr t + 0x18) 8 % 2 ^ 42
  if rows = 0 then cols else rows * cols

/-- R587: the shape of a weight tensor does not stand. -/
def State.shapeBad (j : State) (t : Nat) : Bool :=
  decide (j.jobF 0x20 3 ≤ t) || j.word (j.sbAddr t + 0x18) 8 % 2 ^ 42 == 0 || decide (2 ^ 42 < j.elemCount t)

/-- R161, R169: a tile holds an element that is not frozen. -/
def State.tileTrains (j : State) (t x : Nat) : Bool :=
  (List.range 32).any fun r => (List.range 32).any fun c => (j.tileElem t x r c).any fun e => !j.frozen t e

/-- R167: entry `i` of the freeze table. -/
def State.freezeBad (j : State) (i : Nat) : Option Bad :=
  let a := j.jobA 0x30 + 16 * i
  let w := j.word a 4
  let t := w % 2 ^ 24
  let b := j.word (a + 8) 8
  let cls := bits w 25 24
  (entFirst a [(bits w 31 26 != 0 || cls == 3 || j.shapeBad t
      || (List.range i).any fun k => j.word (j.jobA 0x30 + 16 * k) 3 == t, 0),
    (j.word (a + 4) 4 != 0, 4), (decide (2 ^ 48 ≤ b) || (cls == 2 && b % 64 != 0) || (cls != 2 && b != 0), 8)])
  <|> (if cls = 2 then j.jobMem b (ceilDiv (j.elemCount t) 8) .any (entBad 8 a) else none)

/-- R161: a home is resident: it lies in the weight-gradient buffer of an enabled core. -/
def State.homeResident (j : State) (a : Nat) : Bool :=
  match j.place a with
  | .coreMem _ => decide (0x60000 ≤ a % 0x100000 ∧ a % 0x100000 < 0xA0000)
  | _ => false

/-- R160, R161: entry `i` of the home list. -/
def State.homeBad (j : State) (i : Nat) : Option Bad :=
  let a := j.jobA 0x28 + 16 * i
  let t := j.homeTensor i
  let h := j.homeAddr i
  let tier := decide (j.place h = .hbm ∨ j.place h = .res)
  (entFirst a [(j.word (a + 3) 1 != 0 || j.shapeBad t || j.freezeClass t == 1
      || (List.range i).any fun k => j.homeTensor k == t && j.homeTile k == j.homeTile i, 0),
    (j.word (a + 14) 2 != 0 || h % 4096 != 0 || (!tier && !j.homeResident h)
      || (List.range i).any fun k => j.homeAddr k == h, 8)])
  <|> j.jobMem h 4096 .any (entBad 8 a)

/-- R161, R167, R587: weight tensors of the job whose trainable tiles need homes: the entries of the scale book with the
role of a weight, and what shards, homes and the freeze table name. -/
def State.trained (j : State) : List Nat :=
  (((List.range (j.jobF 0x20 3)).filter (fun t => j.word (j.sbAddr t) 3 == t && bits (j.word (j.sbAddr t + 4) 4) 7 4 == 1)
    ++ (List.range j.shardCount).map j.shTensor ++ (List.range (j.jobF 0x24 4)).map j.homeTensor
    ++ (List.range (j.jobF 0x38 4)).map fun i => j.word (j.jobA 0x30 + 16 * i) 3).eraseDups).filter
      fun t => !j.shapeBad t && j.freezeClass t != 1

/-- R161: every tile that trains has a home. -/
def State.homesFull (j : State) : Bool :=
  let have_ := (List.range (j.jobF 0x24 4)).map fun i => (j.homeTensor i, j.homeTile i)
  j.trained.all fun t => (List.range (j.tileCount t)).all fun x => have_.contains (t, x) || !j.tileTrains t x

/-- R188: the scale-book entry of ID `t` + `k` has the role and FIXED bit of the table. -/
def State.roleOk (j : State) (t k : Nat) : Bool :=
  let w := j.word (j.sbAddr (t + k) + 4) 4
  decide (t + k < j.jobF 0x20 3) && bits w 7 4 == [1, 2, 4, 5].getD k 0 && (decide (k < 2) || bit w 21)

/-- R187, R188, R199, R556, R565, R587: the fields of index `i`, a shard or a baton entry. -/
def State.shardFields (j : State) (i : Nat) : Option Bad :=
  let a := j.shAddr i
  let baton := decide (j.shardCount ≤ i)
  let w4 := j.word (a + 4) 4
  let o := j.shOpt i
  let t := j.shTensor i
  let need := fun (u : Bool) (x : Nat) => u == (x == 0)
  entFirst a [(j.word (a + 3) 1 / 16 != 0 || j.freezeClass t == 1 || j.shapeBad t
      || !(List.range 4).all (j.roleOk t) || j.twin.retired.contains (j.shUnit i), 0),
    (bits w4 31 25 != 0 || !([1, 2, 3, 4, 0x10].contains o) || (o != 0x10 && j.shHandle i != 0)
      || (o == 0x10 && (Tab.get? j.drills (j.shHandle i)).isNone) || (j.shTwin i && (baton || o == 4))
      || (if baton then j.shGate i != 0 || o == 4 else decide (j.gateCount ≤ j.shGate i))
      || (o == 4 && (j.shRows i == 0 || j.shCols i % 32 != 0 || j.shFirst i != 0 || j.shCount i != j.elemCount t)), 4),
    (decide (2 ^ 42 ≤ j.word (a + 8) 8) || j.shFirst i % 32 != 0 || (List.range i).any fun k =>
        decide (j.shardCount ≤ k) == baton && j.shTensor k == t
          && decide (j.shFirst k < j.shFirst i + j.shCount i ∧ j.shFirst i < j.shFirst k + j.shCount k), 8),
    (j.shCount i == 0 || decide (j.elemCount t < j.shFirst i + j.shCount i), 0x10), (j.word (a + 0x14) 4 != 0, 0x14),
    (j.word (a + 0x1E) 2 != 0 || j.shW i == 0, 0x18),
    (j.word (a + 0x26) 2 != 0 || need (j.shUsesM i) (j.shM i), 0x20),
    (j.word (a + 0x2E) 2 != 0 || need (j.needsV i) (j.shV i), 0x28),
    (j.word (a + 0x36) 2 != 0 || j.shE i == 0, 0x30),
    (if baton then decide (2 ^ 16 ≤ j.word (a + 0x38) 8)
      else j.word (a + 0x3E) 2 != 0 || j.shG i == 0 || j.shG i % 64 != 0, 0x38)]

/-- R187, R188, R448: index `i`. -/
def State.shardBad (j : State) (i : Nat) : Option Bad :=
  let a := j.shAddr i
  j.jobSable (j.edgeWorld (j.shUnit i / 4)) <|> j.shardFields i
    <|> ((j.shObjects i).findSome? fun q => j.jobMem q.2.1 q.2.2 .any (entBad q.1 a))
    <|> (if j.shardCount ≤ i then none else j.jobMem (j.shG i) (4 * j.shCount i) .res (entBad 0x38 a))

/-- R188: undo slots that the indices below `n` can need on a unit. -/
def State.undoNeed (j : State) (n u : Nat) : Nat :=
  (if u = 0 then j.jobF 0x20 3 else 0) + (((List.range n).filter fun i => j.shUnit i == u).map fun i =>
    j.shBlocks i + (if j.shOpt i = 4 then ceilDiv (j.factorCount i) 32 else 0)).sum

/-- R186, R188: the undo ring of a unit. -/
def State.undoBad (j : State) (u : Nat) : Option Bad :=
  let a := j.jobA 0x78 + 16 * u
  entFirst a [(j.word (a + 6) 2 != 0 || j.undoBase u % 4096 != 0, 0),
    (decide (j.undoSlots u < j.undoNeed j.shardCount u), 8), (j.word (a + 12) 4 != 0, 12)]
  <|> (if j.undoSlots u = 0 then none else j.jobMem (j.undoBase u) (192 * j.undoSlots u) .hbm (entBad 0 a))

/-- R206: digest slots of the job. -/
def State.digestSlots (j : State) : Nat := ((List.range j.shardCount).map j.digestSlotsOf).sum + 1

/-- R226: floors and ceilings. -/
def State.floorsBad (j : State) : Option Bad :=
  badIf (decide ((j.poolUnits j.job.world).length < ((List.range 4).map j.poolFloor).sum)) (jobBad 0x90)
  <|> badAmong 4 fun c => badIf (decide (j.poolCeil c < j.poolFloor c)) (jobBad (0x90 + 4 * c))

/-- R225, R227: the scratch client cannot get the units of spilled homes, cursors and reduced gradients. -/
def State.scratchShort (j : State) : Option Bad :=
  let pool := j.poolUnits j.job.world
  let us := (j.homeUnits ++ j.cursorUnits ++ j.gsumUnits).eraseDups.filter fun u => !j.pool.near.contains u
  badIf (decide (j.poolCeil 3 < us.length ∨ pool.length < us.length + ((List.range 3).map j.poolFloor).sum)
    || us.any fun u => !pool.contains u) (some (0xA, []))

/-- R215, R231: `n` bytes at an address lie within one TIER_BULK object. -/
def State.inBulk (j : State) (a n : Nat) : Bool :=
  j.hub.objs.any fun o => bit o.2.flags 1 && decide (o.2.addr ≤ a ∧ a + n ≤ o.2.addr + o.2.size)

/-- R231: entry `i` of the prefetch table. -/
def State.prefetchBad (j : State) (i : Nat) : Option Bad :=
  let a := j.pfAddr i
  let w := j.word a 4
  let key := fun (w : Nat) => bits w 14 12 * 4096 + w % 4096
  let k0 := bits w 17 16 == 0
  let p := j.word (a + 0x10) 4
  entFirst a [(bit w 15 || bits w 31 18 != 0 || decide (2 ≤ bits w 14 12 ∨ 2 ≤ bits w 17 16)
      || (decide (0 < i) && decide (key w < key (j.word (j.pfAddr (i - 1)) 4))), 0), (j.word (a + 0xE) 2 != 0, 8),
    (decide (2 ^ 13 ≤ p) || (k0 && p != 0) || p % 16 != 0, 0x10), (decide (2 ^ 12 ≤ j.word (a + 0x14) 4), 0x14),
    (j.word (a + 0x18) 8 != 0, 0x18), (k0 && j.word (a + 4) 4 % 65536 != 0, 4),
    (k0 && !j.inBulk (j.word (a + 8) 6) (j.word (a + 4) 4), 8)]
  <|> j.jobMem (j.word (a + 8) 6) (if k0 then j.word (a + 4) 4 else 64) (if k0 then .hbm else .any) (entBad 8 a)

/-- R231, R448: the prefetch table. -/
def State.prefetchTable (j : State) : Option Bad :=
  if j.pfCount = 0 then none
  else
    ((List.range 4).findSome? fun e => j.jobSable (j.chanWorld e 7))
    <|> badIf ((List.range 4).any fun e => !bit (j.regN (bshAt e 7 + 0x44)) 2) (jobBad 0xA8)
    <|> j.jobMem (j.jobA 0xA0) (32 * j.pfCount) .hbm (jobBad 0xA0) <|> badAmong j.pfCount j.prefetchBad

/-- R325, R326, R328: group `g`: its directory entry, header and ranks. -/
def State.groupBad (j : State) (g : Nat) : Option Bad :=
  let d := j.jobA 0xB0 + 8 * g
  let a := j.group g
  let n := j.ranks g
  let two := j.gRows g != 0 || j.gCols g != 0
  badIf (j.word (d + 6) 2 != 0) (entBad 0 d) <|> j.jobMem a 16 .any (entBad 0 d)
  <|> entFirst a [(outside n 2 65536, 0),
    (two && (decide (j.gRows g < 2 ∨ j.gCols g < 2) || j.gRows g * j.gCols g != n), 4),
    (j.word (a + 0xA) 2 != 0 || decide (n ≤ j.self g), 8), (j.word (a + 0xC) 4 != 0, 0xC)]
  <|> j.jobMem a (16 + 8 * n) .any (entBad 0 d)
  <|> badAmong n fun r =>
    let e := j.rankEntry g r
    entFirst (a + 0x10 + 8 * r) [(decide (2 ^ 35 ≤ e)
      || (r == j.self g && (rValid e || rNode e != j.regN (lnkAt 0 + 4)))
      || (List.range r).any fun q => rNode (j.rankEntry g q) == rNode e, 0)]

/-- R328, R356, R448: the routes from this device to ranks of a group; `reach` is the farthest reach that a CUT
permits, and `a` the entry that names the group. -/
def State.routeBad (j : State) (g reach a : Nat) (peers : List Nat) : Option Bad :=
  (peers.filter (· != j.self g)).findSome? fun r =>
    let e := j.rankEntry g r
    badIf (!rValid e) (entBad 0 (j.group g + 0x10 + 8 * r)) <|> j.jobSable (j.portWorld (rPort e))
      <|> badIf (decide (reach < bits (j.regN (lnkAt (rPort e))) 4 3)) (entBad 0 a)

/-- R331: the KIND, ALGO and DTYPE that go together. -/
def kindOk (kind algo dtype : Nat) : Bool :=
  match kind with
  | 1 => decide (algo ≤ 1 ∧ dtype = 3)
  | 2 => decide (algo ≤ 1 ∧ dtype ≤ 4)
  | 3 => decide (algo ≤ 2 ∧ dtype = 3)
  | 4 => decide (algo = 3 ∧ dtype = 0)
  | 5 => decide (algo = 0 ∧ dtype ≤ 2)
  | 6 => decide (algo = 3 ∧ dtype = 0)
  | _ => false

/-- R329: chunks of the result of a reduction. -/
def State.resultChunks (j : State) (i : Nat) : Nat :=
  if j.cKind i = 1 then 1 else if j.cAlgo i = 2 then j.gRows (j.cGroup i) else j.cN i

/-- R329, R331: the fields of collective `i`. -/
def State.collFields (j : State) (i : Nat) : Option Bad :=
  let a := j.collAddr i
  let kind := j.cKind i
  let red := j.cReduce i
  let hi := fun (o : Nat) => j.word (a + o + 6) 2 != 0
  entFirst a [(bits (j.collW i) 31 18 != 0 || !kindOk kind (j.cAlgo i) (j.cDtype i) || decide (4 < j.cTrigger i), 0),
    (decide (j.jobF 0xAC 2 % 2 ^ 13 ≤ j.cGroup i)
      || (decide (j.cAlgo i = 1 ∨ j.cAlgo i = 2) && j.gRows (j.cGroup i) == 0) || (kind == 5 && decide (255 < j.cN i))
      || (red && decide (j.shardCount ≤ j.cShard i)), 4),
    (red && (j.cCount i % 32 != 0
      || ceilDiv (j.cCount i * j.resultChunks i) 32 != j.shBlocks (j.cShard i)), 8),
    (j.word (a + 0xF) 1 != 0, 0xC), (hi 0x10, 0x10),
    (hi 0x18 || (red && j.cDst i != (if kind = 3 then j.shG (j.cShard i) else 0)), 0x18), (hi 0x20, 0x20),
    (j.word (a + 0x2B) 1 != 0, 0x28), (j.word (a + 0x2C) 4 != 0, 0x2C), (hi 0x30, 0x30),
    (j.word (a + 0x38) 8 != 0, 0x38)]

/-- R329, R341 to R346: the addresses that collective `i` uses, with their offsets in the entry. -/
def State.collAddrs (j : State) (i : Nat) : List (Nat × Nat) :=
  let pool := j.cKind i == 2 && j.cPool i
  [(0x10, j.cSrc i)] ++ (if j.cKind i = 1 ∨ pool then [] else [(0x18, j.cDst i)])
    ++ (if [1, 3, 6].contains (j.cKind i) || pool then [(0x20, j.cAux i)] else []) ++ [(0x30, j.cFlag i)]

/-- R328, R329, R331, R356, R448: collective `i`. -/
def State.collBad (j : State) (i : Nat) : Option Bad :=
  let a := j.collAddr i
  j.jobSable (j.relayWorld (j.cEngine i)) <|> j.collFields i
    <|> ((j.collAddrs i).findSome? fun q => j.jobMem q.2 1 .any (entBad q.1 a))
    <|> j.routeBad (j.cGroup i) (if j.cCut i = 0 then 0 else if j.cCut i = 1 then 1 else 3) a
      (j.collPeers i ++ if j.cKind i = 6 then j.hrdPeers (j.cGroup i) else [])

/-- R348, R352: hurdle entry `e`. -/
def State.hurdleBad (j : State) (e : Nat) : Option Bad :=
  let a := j.hrdAddr e
  entFirst a [(decide (j.jobF 0xAC 2 % 2 ^ 13 ≤ j.hrdGroup e) || j.hrdLocal e == 0
      || (j.hrdKind e != 0 && j.hrdLocal e != 1), 0),
    (j.word (a + 4) 4 / 32 != 0 || j.hrdKind e == 3 || decide (4 < j.hrdPhase e)
      || (j.hrdKind e == 2 && (List.range e).any fun k => j.hrdKind k == 2), 4), (j.word (a + 8) 8 != 0, 8)]
  <|> j.routeBad (j.hrdGroup e) 3 a (j.hrdPeers (j.hrdGroup e))

/-- R407 step 11, first half: scale book, homes, freeze table, stash. -/
def State.jobBadA (j : State) : Option Bad :=
  j.jobMem (j.jobA 0x18) (128 * j.jobF 0x20 3) .hbm (jobBad 0x18)
  <|> (if j.jobF 0x24 4 = 0 then none else j.jobMem (j.jobA 0x28) (16 * j.jobF 0x24 4) .hbm (jobBad 0x28))
  <|> badAmong (j.jobF 0x24 4) j.homeBad
  <|> badIf (!j.homesFull) (jobBad 0x28)
  <|> (if j.jobF 0x38 4 = 0 then none else j.jobMem (j.jobA 0x30) (16 * j.jobF 0x38 4) .hbm (jobBad 0x30))
  <|> badAmong (j.jobF 0x38 4) j.freezeBad
  <|> j.jobMem (j.jobA 0x40) (8 * j.stashLayers) .hbm (jobBad 0x40)
  <|> j.jobMem (j.jobA 0x50) (65536 * j.jobF 0x48 4) .hbm (jobBad 0x50)
  <|> (if j.jobF 0x60 4 = 0 then none else j.jobMem (j.jobA 0x58) (65536 * j.jobF 0x60 4) .hbm (jobBad 0x58))

/-- R407 step 11, second half: shards, sweep, pool, prefetch table, groups, collectives, hurdles, gather stage. -/
def State.jobBadB (j : State) : Option Bad :=
  j.jobMem (j.jobA 0x68) (64 * j.shardCount) .hbm (jobBad 0x68)
  <|> badAmong j.shardCount j.shardBad
  <|> j.jobMem (j.jobA 0x70) 1024 .hbm (jobBad 0x70)
  <|> j.jobMem (j.jobA 0x78) 256 .any (jobBad 0x78)
  <|> badAmong 16 j.undoBad
  <|> j.jobMem (j.jobA 0x80) (16 * 65535) .res (jobBad 0x80)
  <|> j.jobMem (j.jobA 0x88) (32 * j.digestSlots) .hbm (jobBad 0x88)
  <|> j.floorsBad
  <|> j.prefetchTable
  <|> j.jobMem (j.jobA 0xB0) (8 * (j.jobF 0xAC 2 % 2 ^ 13)) .hbm (jobBad 0xB0)
  <|> badAmong (j.jobF 0xAC 2 % 2 ^ 13) j.groupBad
  <|> (if j.collCount = 0 then none else j.jobMem (j.jobA 0xB8) (64 * j.collCount) .hbm (jobBad 0xB8))
  <|> badAmong j.collCount j.collBad
  <|> j.jobMem (j.jobA 0xC0) (16 * j.hrdCount) .hbm (jobBad 0xC0)
  <|> badAmong j.hrdCount j.hurdleBad
  <|> badIf (!(List.range j.hrdCount).any fun e => j.hrdKind e == 2) (jobBad 0xC0)
  <|> (if j.jobF 0xD8 4 = 0 then none else j.jobMem (j.jobA 0xD0) (65536 * j.jobF 0xD8 4) .hbm (jobBad 0xD0))
  <|> j.scratchShort

/-- The state with a descriptor as its job. -/
def State.withJob (s : State) (w : World) (d : List Byte) : State :=
  { s with job := { loaded := true, world := w, desc := d } }

/-- R407: step 11 of a descriptor of a world. -/
def State.jobCheck (s : State) (w : World) (d : List Byte) : Option Bad :=
  let j := s.withJob w d
  j.jobBadA <|> j.jobBadB

/-- R556: TWIN_SHARD of baton index `i`. -/
def State.twinShard (j : State) (i : Nat) : Nat := j.shG i % 65536

/-- R556: two ranges meet. -/
def rangesMeet (x y : Nat × Nat × Nat) : Bool := decide (x.2.1 < y.2.1 + y.2.2 ∧ y.2.1 < x.2.1 + x.2.2)

/-- R556: baton index `i` of a state that holds the map. -/
def State.batonBad (j : State) (i : Nat) : Option Bad :=
  let a := j.shAddr i
  let shard := fun (k : Nat) => j.shObjects k ++ [(0x38, j.shG k, 4 * j.shCount k)]
  j.shardBad i
  <|> entFirst a [(decide (j.undoSlots (j.shUnit i) < j.undoNeed (i + 1) (j.shUnit i)), 0),
    ((List.range i).any fun k => decide (j.shardCount ≤ k) && j.twinShard k == j.twinShard i, 0x38)]
  <|> ((j.shObjects i).find? fun q => (List.range j.shardCount).any fun k => (shard k).any (rangesMeet q)).bind
    fun q => entBad q.1 a

/-- R556: step 11 of TWIN_MAP. -/
def State.mapBad (j : State) : Option Bad :=
  if j.job.batonCount = 0 then none
  else
    let groups := List.range (j.jobF 0xAC 2 % 2 ^ 13)
    let here := j.twin.given && groups.any fun g => (List.range (j.ranks g)).any fun r =>
      rNode (j.rankEntry g r) == j.twin.node
    j.jobMem j.job.batonTable (64 * j.job.batonCount) .any (jobBad 0)
    <|> badIf (!here) (entBad 0 j.job.batonTable)
    <|> (List.range j.job.batonCount).findSome? fun b => j.batonBad (j.shardCount + b)

end Sys2Proof.Machine
end

