-- ==== Sys2Proof/Machine/MailJob.lean ====
section
/-!
DEFINITION. The commands that change jobs, objects and power, and those of the twins (R401 to R403, R406): JOB_LOAD,
JOB_REPLACE, JOB_UNLOAD, HEAT_GO, JOB_STOP, OBJ_ALLOC, OBJ_FREE, PWR_BUDGET to PWR_CEILING, BATON_HOST, BATON_RESTORE,
TWIN_MAP.
-/
namespace Sys2Proof.Machine

/-- R401: "idle": a job is loaded and no heat runs. -/
def State.idle (s : State) : Bool := s.job.loaded && !s.heat.active

/-- R398: the loaded job belongs to the other world. -/
def State.foreignJob (s : State) (r : Req) : Bool := s.job.loaded && s.job.world != r.world

/-- R61, R188: at job start ERR_SCALE is 1.0 and AMAX_CUR is +0 in every entry. -/
def State.bookStart (s : State) : State :=
  s.forAll (List.range (s.jobF 0x20 3)) fun t s => s.arrive (s.sbAddr t + 0xC) (leBytes 4 0x3F800000 ++ leBytes 4 0)

/-- What an earlier job leaves in the units goes: grants, stash, gates, sweep, collectives, digests and pulls. -/
def State.jobClear (s : State) : State :=
  let s := { s with gates := {}, stash := {}, sweep := {}, relay := {}, pool := { s.pool with ents := [], reqs := [] } }
  let s := s.onTwin fun t => { t with
    rx := [], recs := [], redo := [], again := [], settled := [], pulls := [], serves := [], restored := [], restore := none
    stream := none, stopAsked := false, lost := [], lostAt := [] }
  (s.gateRefresh.poolRefresh.forAll (List.range 4) fun e s => s.rlyRefresh e).hrdRefresh

/-- R554, R500: a new descriptor is in force: the pacer starts anew, and a hello goes to the twin. The operating point
follows at the next sample boundary (R479). -/
def State.jobStart (s : State) : State := s.gateRefresh.ringShow.paceReset.helloStart

/-- R35, R188, R401: JOB_LOAD takes effect. -/
def State.jobLoad (s : State) (w : World) (d : List Byte) : State :=
  let s := (s.withJob w d).jobClear
  let s := { s with heat := { num := fld d 0 4, recs := s.heat.recs, lastTick := s.heat.lastTick } }
  let s := s.onTwin fun t => { t with batonHeat := 0 }
  s.bookStart.jobStart

/-- R35, R401, R556: JOB_REPLACE takes effect: the heat keeps its attempt count unless it has none left (log 65). -/
def State.jobReplace (s : State) (w : World) (d : List Byte) : State :=
  let keep := decide (s.heat.num = fld d 0 4 ∧ s.heat.attempt < 3)
  let r := s.twin.restored
  let s := (s.withJob w d).jobClear.onTwin fun t => { t with restored := r }
  let h := s.heat
  let new : Heat := { num := fld d 0 4, recs := h.recs, lastTick := h.lastTick, last := h.last }
  let s := { s with heat := if keep then h else new }
  s.jobStart

/-- JOB_LOAD (R401, R407). -/
def cmdJobLoad : Cmd :=
  { Cmd.base true true false .deferred [5] 256 (fun s r _ =>
      match s.jobCheck r.world r.data with
      | some e => { st := e.1, body := e.2, s := s }
      | none => { s := s.jobLoad r.world r.data }) with
    ok := fun s => !s.job.loaded, check := fun _ r => jobForm r.data }

/-- JOB_LOAD (R407). -/
def execJobLoad (m : Nat) (h : HostDma) (s : State) : Host.Outcome State Fault Refusal :=
  guarded (decide (m < 11)) (s.mailbox m h 0x200 cmdJobLoad)

/-- JOB_REPLACE (R401, R407): FIRST_HEAT is the last committed heat + 1 (log 66). -/
def cmdJobReplace : Cmd :=
  { Cmd.base true true false .deferred [5] 256 (fun s r _ =>
      if s.foreignJob r then .refuse s 2
      else if r.f 0 4 ≠ (s.lastHeat + 1) % 2 ^ 32 then { st := 9, body := det 0 1 0, s := s }
      else match s.jobCheck r.world r.data with
      | some e => { st := e.1, body := e.2, s := s }
      | none => { s := s.jobReplace r.world r.data }) with
    ok := State.idle, check := fun _ r => jobForm r.data }

/-- JOB_REPLACE (R401). -/
def execJobReplace (m : Nat) (h : HostDma) (s : State) : Host.Outcome State Fault Refusal :=
  guarded (decide (m < 11)) (s.mailbox m h 0x204 cmdJobReplace)

/-- R401: JOB_UNLOAD releases the job's pool grants and clears the map. -/
def State.jobUnload (s : State) : State :=
  let s := { s with job := {}, heat := { recs := s.heat.recs, lastTick := s.heat.lastTick } }
  s.jobClear.ringShow

/-- JOB_UNLOAD (R401). -/
def cmdJobUnload : Cmd :=
  { Cmd.base true true false .completes [5] 0 (fun s r _ =>
      if s.foreignJob r then .refuse s 2 else { s := s.jobUnload }) with ok := State.idle }

/-- JOB_UNLOAD (R401). -/
def execJobUnload (m : Nat) (h : HostDma) (s : State) : Host.Outcome State Fault Refusal :=
  guarded (decide (m < 11)) (s.mailbox m h 0x203 cmdJobUnload)

/-- R555: a twin job may run. -/
def State.twinReady (s : State) : Bool :=
  !s.twinJob || ((s.twin.pairing == 1 || s.twin.pairing == 2) && decide (48 ≤ s.jobF 0xD8 4)
    && (s.twin.pairing == 1 || s.twin.hostBuf.any fun b => decide (2 * s.slotBytes (s.job.batonCount + 1) ≤ b.2)))

/-- HEAT_GO (R401, R35, R36, R555): HEATS 0 runs until JOB_STOP. -/
def cmdHeatGo : Cmd :=
  { Cmd.base true true false .completes [5] 4 (fun s r _ =>
      let n := r.f 0 4
      if s.foreignJob r then .refuse s 2
      else if s.heat.last = some 0xFFFFFFFF ∨ 3 ≤ s.heat.attempt ∨ s.twinReady = false then .refuse s 8
      else { s := s.onHeat fun h => { h with
        active := true, left := n, endless := n == 0, stopping := false, stopNow := false, parkAsked := false } }) with
    ok := State.idle }

/-- HEAT_GO (R401). -/
def execHeatGo (m : Nat) (h : HostDma) (s : State) : Host.Outcome State Fault Refusal :=
  guarded (decide (m < 11)) (s.mailbox m h 0x201 cmdHeatGo)

/-- R401, R548: JOB_STOP of an active job: NOW voids the attempt (log 38), else the job stops after the next commit. -/
def State.jobStop (s : State) (now_ : Bool) : State :=
  if !now_ then s.onHeat fun h => { h with stopping := true }
  else if s.heat.running then
    let v : VoidFault := { tick := s.now, source := s.hubSource, code := 0, cmd := true }
    s.onHeat fun h => { h with stopping := true, stopNow := true, voids := h.voids ++ [v] }
  else if s.heat.rolling then s.onHeat fun h => { h with stopping := true, stopNow := true }
  else s.jobStopped

/-- JOB_STOP (R401): [0] NOW. -/
def cmdJobStop : Cmd :=
  { Cmd.base true true false .deferred [5] 4 (fun s r _ =>
      if s.foreignJob r then .refuse s 2
      else if !s.heat.active then { s := s }
      else { s := s.jobStop (bit (r.f 0 4) 0), wait := true }) with
    ok := fun s => s.job.loaded
    check := fun _ r => if bits (r.f 0 4) 31 1 ≠ 0 then badRes 0 else none }

/-- JOB_STOP (R401). -/
def execJobStop (m : Nat) (h : HostDma) (s : State) : Host.Outcome State Fault Refusal :=
  guarded (decide (m < 11)) (s.mailbox m h 0x202 cmdJobStop)

/-- R215, R402: steps 9 and 10 of OBJ_ALLOC. -/
def objCheck (r : Req) : Option Bad :=
  let f := r.f 0 1
  let near := bit f 0
  let loc := bit f 2
  let a := r.f 8 6
  let n := r.f 0x10 8
  if bits (r.f 0 4) 31 7 ≠ 0 then badRes 0
  else if r.f 4 4 ≠ 0 then badRes 4
  else if r.f 14 2 ≠ 0 then badRes 8
  else if near == bit f 1 || (loc && near) || (!loc && bits f 6 4 != 0) then badVal 0
  else if (near && a != 0) || a % 0x10000 != 0 then badVal 8
  else if n = 0 ∨ n % 0x10000 ≠ 0 then badVal 0x10
  else none

/-- R218, R220, R402: a TIER_BULK object lies wholly where its flags allow it. -/
def State.bulkFits (s : State) (w : World) (f a n : Nat) : Bool :=
  (List.range ((a + n - 1) / 0x200000 + 1 - a / 0x200000)).all fun i =>
    match s.regionOf ((a / 0x200000 + i) * 0x200000) with
    | none => false
    | some (b, z, g) =>
      let x := b + z / 8 * bits f 6 4
      bit g 3 && bit g 1 == (w == .sable) && (!bit f 3 || bit g 5)
        && (!bit f 2 || (bit g 4 && decide (x ≤ a ∧ a + n ≤ x + z / 8)))

/-- R402: the object meets another one. -/
def State.objMeets (s : State) (a n : Nat) : Bool :=
  s.hub.objs.any fun o => decide (o.2.addr < a + n ∧ a < o.2.addr + o.2.size)

/-- R402: the lowest free object slot. -/
def State.objSlot (s : State) : Option Nat :=
  if 65536 ≤ s.hub.objs.length then none
  else (List.range 65536).find? fun k => (Tab.get? s.hub.objs k).isNone

/-- R216: a unit that a TIER_NEAR object may take: free, or held by an unpinned prefetch entry that is filled. -/
def State.nearOpen (s : State) (u : Nat) : Bool :=
  s.pool.ents.all fun e => !e.us.contains u || (e.client == 0 && !e.pinned && e.age.isSome)

/-- R216: the pool after the grant of the units from `u` on. -/
def State.nearTake (s : State) (u n : Nat) : State :=
  let run := (List.range n).map (u + ·)
  let gone := s.pool.ents.filter fun e => e.us.any run.contains
  let ents := s.pool.ents.filter fun e => !e.us.any run.contains
  let s := s.count (cliAt 0 + 0x10) gone.length
  { s with pool := { s.pool with ents := ents, near := s.pool.near ++ run } }

/-- R216: the free units cover every client's unused floor. -/
def State.floorsHeld (s : State) : Bool :=
  decide (((List.range 4).map fun c => s.poolFloor c - s.poolUsed c).sum ≤ s.poolFree)

/-- R216: the lowest run of `n` consecutive units that a TIER_NEAR object may take and that leaves every floor. -/
def State.nearRun (s : State) (w : World) (n : Nat) : Option Nat :=
  let us := (s.poolUnits w).filter s.nearOpen
  us.find? fun u => (List.range n).all (fun i => us.contains (u + i)) && (s.nearTake u n).floorsHeld

/-- R402: a new object in a slot; the answer names it and its address. -/
def State.objPut (s : State) (k f : Nat) (w : World) (a n : Nat) : Res :=
  let g := Tab.get s.hub.gens k 0
  let o : Obj := { flags := f, world := w, addr := a, size := n }
  .okBody { s with hub := { s.hub with objs := Tab.set s.hub.objs k o } }
    (leBytes 4 (k + g * 65536) ++ leBytes 4 0 ++ leBytes 8 a)

/-- R216, R402: OBJ_ALLOC. A TIER_NEAR object is pinned by its tier, so its FLAGS show PIN (log 67). -/
def State.objAlloc (s : State) (r : Req) : Res :=
  let f := r.f 0 1
  let n := r.f 0x10 8
  let a := r.f 8 6
  if bit f 0 then
    match s.objSlot, s.nearRun r.world (n / 65536) with
    | some k, some u =>
      (s.nearTake u (n / 65536)).poolRefresh.objPut k (f ||| 8) r.world (0x10000000000 + u * 65536) n
    | _, _ => .refuse s 0xA
  else if !s.bulkFits r.world f a n then .refuse s 2
  else match s.objSlot with
    | none => .refuse s 0xA
    | some k => if s.objMeets a n then .refuse s 0xB else s.objPut k f r.world a n

/-- OBJ_ALLOC (R402). -/
def cmdObjAlloc : Cmd :=
  { Cmd.base true true false .completes [5] 24 (fun s r _ => s.objAlloc r) with check := fun _ r => objCheck r }

/-- OBJ_ALLOC (R402, R216). -/
def execObjAlloc (m : Nat) (h : HostDma) (s : State) : Host.Outcome State Fault Refusal :=
  guarded (decide (m < 11)) (s.mailbox m h 0x300 cmdObjAlloc)

/-- R402: the addresses that the loaded job uses: of its descriptor, its tables and their entries. -/
def State.usedAddrs (s : State) : List Nat :=
  let count := fun (o : Nat) => match o with
    | 0x28 => s.jobF 0x24 4
    | 0x30 => s.jobF 0x38 4
    | 0x58 => s.jobF 0x60 4
    | 0xA0 => s.pfCount
    | 0xB8 => s.collCount
    | 0xD0 => s.jobF 0xD8 4
    | _ => 1
  let freeze := (List.range (s.jobF 0x38 4)).map fun i => s.jobA 0x30 + 16 * i
  if !s.job.loaded then []
  else
    ((jobAddrs.filter fun o => count o != 0).map s.jobA)
    ++ (List.range s.idxCount).flatMap (fun i => (s.shObjects i).map fun q => q.2.1)
    ++ (List.range s.shardCount).map s.shG ++ (List.range (s.jobF 0x24 4)).map s.homeAddr
    ++ (freeze.filter fun a => s.word (a + 3) 1 % 4 == 2).map (fun a => s.word (a + 8) 6)
    ++ ((List.range 16).filter fun u => s.undoSlots u != 0).map s.undoBase
    ++ (List.range (s.jobF 0xAC 2 % 2 ^ 13)).map s.group
    ++ (List.range s.collCount).flatMap (fun i => (s.collAddrs i).map (·.2))
    ++ (List.range s.pfCount).map (fun i => s.word (s.pfAddr i + 8) 6)
    ++ (if s.job.batonCount = 0 then [] else [s.job.batonTable])

/-- R216, R402: an object goes: its slot's generation rises, a TIER_NEAR object's units come back to the pool. -/
def State.objDel (s : State) (k : Nat) (o : Obj) : State :=
  let us := resUnits o.addr o.size
  let gens := Tab.set s.hub.gens k ((Tab.get s.hub.gens k 0 + 1) % 65536)
  let s := { s with hub := { s.hub with objs := Tab.del s.hub.objs k, gens := gens } }
  if bit o.flags 0 then
    ({ s with pool := { s.pool with near := s.pool.near.filter fun u => !us.contains u } }).poolRefresh
  else s

/-- R402, R398: OBJ_FREE. -/
def State.objFree (s : State) (r : Req) : Res :=
  match s.objOf (r.f 0 4) with
  | none => .refuse s 0xC
  | some o =>
    if o.world ≠ r.world then .refuse s 2
    else if s.usedAddrs.any fun a => decide (o.addr ≤ a ∧ a < o.addr + o.size) then .refuse s 0xB
    else { s := s.objDel (r.f 0 4 % 65536) o }

/-- OBJ_FREE (R402). -/
def cmdObjFree : Cmd := .base true true false .completes [5] 4 fun s r _ => s.objFree r

/-- OBJ_FREE (R402). -/
def execObjFree (m : Nat) (h : HostDma) (s : State) : Host.Outcome State Fault Refusal :=
  guarded (decide (m < 11)) (s.mailbox m h 0x301 cmdObjFree)

/-- R403: steps 9 and 10 of a command that carries WATTS in its first word. -/
def wattsCheck (lo hi : Nat) (r : Req) : Option Bad :=
  if bits (r.f 0 4) 31 16 ≠ 0 then badRes 0
  else if outside (r.f 0 2) lo hi then badVal 0
  else none

/-- R403: an answer that comes when what was asked for holds (R390). -/
def Res.later (s : State) : Res := { s := s.pwrDone, wait := true }

/-- PWR_BUDGET (R403, R482): the new budget waits for its boundary. -/
def cmdPwrBudget : Cmd :=
  { Cmd.base true false true .deferred [5] 8 (fun s r _ =>
      .later (s.onPwr fun p => { p with nextBudget := some (r.f 0 2, r.f 4 4) })) with
    ok := State.budgetMode, check := fun _ r => wattsCheck 150 1200 r }

/-- PWR_BUDGET (R403). -/
def execPwrBudget (m : Nat) (h : HostDma) (s : State) : Host.Outcome State Fault Refusal :=
  guarded (decide (m < 11)) (s.mailbox m h 0x400 cmdPwrBudget)

/-- PWR_FLOOR (R403, R502). -/
def cmdPwrFloor : Cmd := .base true false true .deferred [5] 0 fun s _ _ => .later s.cmdFloor

/-- PWR_FLOOR (R403). -/
def execPwrFloor (m : Nat) (h : HostDma) (s : State) : Host.Outcome State Fault Refusal :=
  guarded (decide (m < 11)) (s.mailbox m h 0x401 cmdPwrFloor)

/-- PWR_PARK (R403, R502). -/
def cmdPwrPark : Cmd := .base true false true .deferred [5] 0 fun s _ _ => .later s.cmdPark

/-- PWR_PARK (R403). -/
def execPwrPark (m : Nat) (h : HostDma) (s : State) : Host.Outcome State Fault Refusal :=
  guarded (decide (m < 11)) (s.mailbox m h 0x402 cmdPwrPark)

/-- PWR_RESUME (R403, R502, R505). -/
def cmdPwrResume : Cmd := .base true false true .deferred [5] 0 fun s _ _ => .later s.cmdResume

/-- PWR_RESUME (R403). -/
def execPwrResume (m : Nat) (h : HostDma) (s : State) : Host.Outcome State Fault Refusal :=
  guarded (decide (m < 11)) (s.mailbox m h 0x403 cmdPwrResume)

/-- PWR_CEILING (R403, R484): in peak-guard mode. -/
def cmdPwrCeiling : Cmd :=
  { Cmd.base true false false .deferred [5] 4 (fun s r _ =>
      .later (s.onPwr fun p => { p with nextCeil := some (r.f 0 2) })) with
    ok := fun s => !s.budgetMode, check := fun _ r => wattsCheck 400 1200 r }

/-- PWR_CEILING (R403). -/
def execPwrCeiling (m : Nat) (h : HostDma) (s : State) : Host.Outcome State Fault Refusal :=
  guarded (decide (m < 11)) (s.mailbox m h 0x404 cmdPwrCeiling)

/-- BATON_HOST (R406, R560): SIZE 0 removes the buffer. -/
def cmdBatonHost : Cmd :=
  { Cmd.base true false false .completes [5] 16 (fun s r _ =>
      let b := if r.f 8 8 = 0 then none else some (r.f 0 8, r.f 8 8)
      { s := s.onTwin fun t => { t with hostBuf := b } }) with
    check := fun _ r => if r.f 0 8 % 4096 ≠ 0 then badVal 0 else none }

/-- BATON_HOST (R406). -/
def execBatonHost (m : Nat) (h : HostDma) (s : State) : Host.Outcome State Fault Refusal :=
  guarded (decide (m < 11)) (s.mailbox m h 0x702 cmdBatonHost)

/-- TWIN_MAP's map in force (R556); the scale book keeps its place behind the last index. -/
def State.mapSet (s : State) (table n : Nat) : State :=
  let old := s.idxCount
  let s := { s with job := { s.job with batonTable := table, batonCount := n } }
  s.onTwin fun t => { t with
    restored := (t.restored.filter fun q => decide (q.1 < s.shardCount) || q.1 == old).map fun q =>
      if q.1 = old then (s.idxCount, q.2) else q }

/-- TWIN_MAP (R556): steps 9 and 10 of its payload. -/
def mapCheck (r : Req) : Option Bad :=
  if r.f 6 2 ≠ 0 then badRes 0
  else if r.f 10 2 ≠ 0 then badRes 8
  else if r.f 12 4 ≠ 0 then badRes 12
  else if r.f 0 6 % 64 ≠ 0 then badVal 0
  else none

/-- TWIN_MAP (R556): its action. -/
def State.twinMap (s : State) (r : Req) : Res :=
  let t := s.mapSet (r.f 0 6) (r.f 8 2)
  if s.foreignJob r then .refuse s 2
  else if 65535 < s.shardCount + r.f 8 2 then { st := 6, body := det 8 1 0, s := s }
  else match t.mapBad with
    | some e => { st := e.1, body := e.2, s := s }
    | none => { s := t }

/-- TWIN_MAP (R556). -/
def cmdTwinMap : Cmd :=
  { Cmd.base true true false .completes [5] 16 (fun s r _ => s.twinMap r) with
    ok := State.idle, check := fun _ r => mapCheck r }

/-- TWIN_MAP (R556). -/
def execTwinMap (m : Nat) (h : HostDma) (s : State) : Host.Outcome State Fault Refusal :=
  guarded (decide (m < 11)) (s.mailbox m h 0x704 cmdTwinMap)

/-- R569: the indices that a restore covers; the scale book first, unless it stands at the heat already. -/
def State.restoreList (s : State) (first n heat : Nat) : List Nat :=
  (if s.twin.restored.contains (s.idxCount, heat) then [] else [s.idxCount]) ++ (List.range n).map (first + ·)

/-- R569: a restore from the twin: a pull for each group. -/
def State.restorePull (s : State) (l : List Nat) (heat : Nat) : State :=
  let ps := l.flatMap fun i => (s.groupsOf i).map fun g =>
    Pull.mk .restore i g s.twin.node (if i = s.idxCount then 2 else if i < s.shardCount then 0 else 1) heat 0xFF 0 false [] none
  let s := s.onTwin fun t => { t with restore := some { heat := heat }, pulls := t.pulls ++ ps }
  if ps.isEmpty then s.restoreEnd 0 else s.pullNext

/-- R560: the sections of a host slot: header and data; `n` bounds them. -/
def slotSections (b : List Byte) : Nat → Nat → List (List Byte × List Byte)
  | 0, _ => []
  | n + 1, p =>
    let d := fld b (p + 0x18) 8
    if b.length < p + 128 + d then []
    else (sub b p 128, sub b (p + 128) d) :: slotSections b n (p + 128 + d)

/-- R222, R560: the objects of index `i` from the data of its section. -/
def State.sectionTake (s : State) (i : Nat) (d : List Byte) : State :=
  ((s.shObjects i).foldl (fun (r : State × Nat) q => (r.1.arrive q.2.1 (sub d r.2 q.2.2), r.2 + align64 q.2.2)) (s, 0)).1

/-- R560, R569: the section of index `i` in a slot. -/
def State.sectionFor (s : State) (secs : List (List Byte × List Byte)) (i : Nat) : Option (List Byte × List Byte) :=
  secs.find? fun x => fld x.1 0 4 == s.digTensor i && fld x.1 8 8 == s.digFirst i

/-- R569: an index is restored from a slot, or the status that ends the restore. -/
def State.restoreFrom (secs : List (List Byte × List Byte)) : List Nat → Nat → State → State × Nat
  | [], _, s => (s, 0)
  | i :: t, heat, s =>
    match s.sectionFor secs i with
    | none => (s, 0xC)
    | some x =>
      if sha512 x.2 ≠ sub x.1 0x20 64 then (s, 0xD)
      else
        let s := if i = s.idxCount then s.arrive (s.sbAddr 0) x.2 else s.sectionTake i x.2
        State.restoreFrom secs t heat (s.restoreIdx i heat)

/-- R569: a restore from the host slot that the firmware reads. -/
def State.restoreHost (s : State) (l : List Nat) (heat addr : Nat) (h : HostDma) : Res :=
  match s.hostFetch h with
  | none => .refuse (s.dmaFail addr) 0xE
  | some b =>
    if fld b 0 4 ≠ 0x00014254 ∨ fld b 4 4 ≠ heat ∨ fld b 8 4 ≠ 1 then .refuse s 0xC
    else
      let x := State.restoreFrom (slotSections b (fld b 0xC 4) 64) l heat s
      { st := x.2, s := x.1 }

/-- BATON_RESTORE (R569): its action. -/
def State.batonRestore (s : State) (r : Req) (h : HostDma) : Res :=
  let first := r.f 4 2
  let n := r.f 6 2
  let heat := r.f 0x10 4
  let l := s.restoreList first n heat
  if s.foreignJob r then .refuse s 2
  else if s.idxCount < first + n then .refuse s 0xC
  else if r.f 0 4 = 1 then s.restoreHost l heat (r.f 8 8) h
  else if s.twin.pairing ≠ 1 ∧ s.twin.pairing ≠ 2 then .refuse s 8
  else { s := s.restorePull l heat, wait := true }

/-- BATON_RESTORE (R406): steps 9 and 10 of its payload. -/
def restoreCheck (r : Req) : Option Bad :=
  if bits (r.f 0 4) 31 2 ≠ 0 then badRes 0
  else if r.f 0x14 12 ≠ 0 then badRes 0x14
  else if 2 ≤ r.f 0 4 then badVal 0
  else none

/-- BATON_RESTORE (R406). -/
def cmdBatonRestore : Cmd :=
  { Cmd.base true true false .deferred [5] 32 (fun s r h => s.batonRestore r h) with
    ok := State.idle, check := fun _ r => restoreCheck r }

/-- BATON_RESTORE (R406). -/
def execBatonRestore (m : Nat) (h : HostDma) (s : State) : Host.Outcome State Fault Refusal :=
  guarded (decide (m < 11)) (s.mailbox m h 0x703 cmdBatonRestore)

end Sys2Proof.Machine
end

