-- ==== Sys2Proof/Machine/Deferred.lean ====
section
/-!
DEFINITION. Deferred commands run in their turn (R390, R391); the hubs' lockstep (R542, R543).
-/
namespace Sys2Proof.Machine

/-- R399 to R406, R556: the commands that change something, by opcode; R commands are never deferred. -/
def cmdOf (op : Nat) : Option Cmd :=
  match op with
  | 0x100 => some cmdSlLoad
  | 0x101 => some cmdSlCommit
  | 0x200 => some cmdJobLoad
  | 0x201 => some cmdHeatGo
  | 0x202 => some cmdJobStop
  | 0x203 => some cmdJobUnload
  | 0x204 => some cmdJobReplace
  | 0x210 => some cmdDrillInstall
  | 0x211 => some cmdDrillClear
  | 0x300 => some cmdObjAlloc
  | 0x301 => some cmdObjFree
  | 0x400 => some cmdPwrBudget
  | 0x401 => some cmdPwrFloor
  | 0x402 => some cmdPwrPark
  | 0x403 => some cmdPwrResume
  | 0x404 => some cmdPwrCeiling
  | 0x602 => some cmdEvtFilter
  | 0x603 => some cmdCoolantReport
  | 0x700 => some cmdTrayIdent
  | 0x702 => some cmdBatonHost
  | 0x703 => some cmdBatonRestore
  | 0x704 => some cmdTwinMap
  | 0x900 => some cmdSelftest
  | _ => none

/-- R390: the deferred command at place `i` may run: it has not begun, and none of its opcode group comes before it or
has begun and not ended. -/
def State.turnOf (s : State) (i : Nat) (d : Deferred) : Bool :=
  let same := fun (x : Deferred) => x.op / 256 == d.op / 256
  !d.begun && !(s.hub.deferred.take i).any same && !s.hub.deferred.any fun x => same x && x.begun

/-- R390: a deferred command is marked as begun. -/
def State.deferBegin (s : State) (d : Deferred) : State :=
  { s with hub := { s.hub with deferred := s.hub.deferred.map fun x =>
    if x.mbx = d.mbx ∧ x.pos = d.pos then { x with begun := true } else x } }

/-- R390: a deferred command runs: steps 5 and 11 and its action; its CMD_DONE, unless the action goes on. -/
def State.deferRun (s : State) (d : Deferred) (c : Cmd) (h : HostDma) : State :=
  match s.stateCheck d.mbx d.op c with
  | some bad => s.cmdDone d bad.1 bad.2
  | none =>
    let r : Req := { mbx := d.mbx, pos := d.pos, op := d.op, tag := d.tag, cap := 0, rsp := 0, data := d.payload }
    let x := c.run (s.deferBegin d) r h
    if x.wait then x.s else x.s.cmdDone d x.st x.body

/-- DEFERRED_COMMAND_RUN (R390): the deferred command at place `i` of the list, when its turn has come. -/
def execDeferredCommandRun (i : Nat) (h : HostDma) (s : State) : Host.Outcome State Fault Refusal :=
  .next (match s.hub.deferred[i]? with
    | none => s
    | some d =>
      match cmdOf d.op with
      | none => s
      | some c => if s.turnOf i d then s.deferRun d c h else s)

/-- R546: the role of a hub: 0 standby, 1 active, 2 lost. -/
def State.role (s : State) (h : Nat) : Nat := s.regN (safAt h) % 4

/-- R545, R546: a lockstep mismatch of a pair of hub `h` is counted, shown and raised. -/
def State.lockstep (s : State) (h pair : Nat) : State :=
  let s := (s.count (safAt h + 0x28) 1).raiseBits (safAt h) (2 ^ (2 + pair))
  s.raise .sable 0x0623 1 (blkSource h) (leBytes 8 (h + pair * 2) ++ leBytes 8 s.now.toNat)

/-- R542: hub `a` is halted and the other one acts for the device; the progress timer goes on there. Rows are whole, so
no request is replayed (log 39). -/
def State.takeover (s : State) (a : Nat) : State :=
  let e := s.reg64 (safAt a + 0x20)
  let s := (s.putField (safAt a) 1 0 2).putField (safAt (1 - a)) 1 0 1
  let s := ((s.setReg64 (safAt a + 0x20) 0).setReg64 (safAt (1 - a) + 0x20) e).latchSf 6
  s.raiseHub 0x0003 1 (leBytes 8 0 ++ leBytes 8 s.now.toNat)

/-- HUB_TAKEOVER (R542, R543): a mismatch in a pair of the active hub; without a standby it starts the safe state. -/
def execHubTakeover (pair : Nat) (s : State) : Host.Outcome State Fault Refusal :=
  guarded (decide (pair < 2))
    (let a := s.actHub
     if !s.pins.powered || s.role a != 1 then s
     else
      let t := s.lockstep a pair
      if t.role (1 - a) = 0 then t.takeover a else (t.putField (safAt a) 1 0 2).safeEnter 0x0623 6)

/-- STANDBY_LOST (R543): a mismatch in a pair of the standby hub. -/
def execStandbyLost (pair : Nat) (s : State) : Host.Outcome State Fault Refusal :=
  guarded (decide (pair < 2))
    (let b := 1 - s.actHub
     if !s.pins.powered || s.role b != 0 then s
     else
      ((s.lockstep b pair).putField (safAt b) 1 0 2).raise .sable 0x0624 1 (blkSource b) (leBytes 4 (pair * 2)))

end Sys2Proof.Machine
end

