-- ==== Sys2Proof/Machine/I3c.lean ====
section
/-!
DEFINITION. The sideband (R579 to R582): the common command codes, and private transfers over the window of the tray
mailbox.
-/
namespace Sys2Proof.Machine

/-- The sideband target changed. -/
def State.onI3c (s : State) (f : I3c → I3c) : State := { s with i3c := f s.i3c }

/-- R579: the bus works. -/
def State.i3cOn (s : State) : Bool := s.pins.powered && s.pins.pwrGood

/-- R581: the module acknowledges its address. -/
def State.i3cAck (s : State) : Bool := s.i3cOn && !s.pins.perst && decide (3 ≤ s.hif)

/-- R580: the regions of the window: first offset, end. -/
def i3cRegions : List (Nat × Nat) :=
  [(0, 0x4000), (0x4000, 0x8000), (0x8000, 0x8024), (0x8080, 0x8088), (0x8100, 0x8200)]

/-- R580: a transfer of `n` bytes at an offset obeys the window's rules. -/
def i3cFits (off n : Nat) : Bool :=
  off % 4 == 0 && n % 4 == 0 && decide (0 < n ∧ n ≤ 64) && i3cRegions.any fun r => decide (r.1 ≤ off ∧ off + n ≤ r.2)

/-- R365, R412: an ignored write of the tray controller, with its window offset. -/
def State.i3cIgnored (s : State) (off v : Nat) : State :=
  s.raise .ivory 0x0002 1 s.hubSource (leBytes 8 off ++ leBytes 8 v ++ leBytes 4 2)

/-- R580: where the window's ring bytes lie in hub SRAM: both rings of mailbox 10. -/
def i3cRing (off : Nat) : Nat := 0x1050000 + off

/-- R580: one word of a private write. -/
def State.i3cPut (s : State) (off : Nat) (b : List Byte) : State :=
  let v := BitVec.ofNat 32 (leNat b)
  if off < 0x4000 then { s with hubMem := Memory.writeN s.hubMem (i3cRing off) b }
  else if off < 0x8000 then s.i3cIgnored off v.toNat
  else if off < 0x8024 then s.mbxPut 10 (off - 0x8000) v
  else if off = 0x8084 then s.trayHead v
  else if off < 0x8100 then s
  else s.i3cIgnored off v.toNat

/-- R580: a word of the register page of mailbox 10. -/
def State.i3cPage (s : State) (o : Nat) : List Byte × State :=
  let r := s.mbxRead 10 o
  (leBytes 4 r.1.toNat, r.2)

/-- R580: one word of a private read. -/
def State.i3cGet (s : State) (off : Nat) : List Byte × State :=
  let word := fun (n : Nat) => leBytes 4 n
  if off < 0x8000 then (Memory.readN s.hubMem (i3cRing off) 4, s)
  else if off < 0x8024 then
    s.i3cPage (off - 0x8000)
  else if off = 0x8080 then (word s.hub.trayTail, s)
  else if off = 0x8084 then (word s.hub.trayHead, s)
  else (Memory.readN s.hubMem (trayRing + (off - 0x8100)) 4, s)

/-- R580: a private write. -/
def State.i3cWrite (s : State) (off : Nat) (data : List Byte) : State :=
  if s.i3cAck && i3cFits off data.length then
    s.forAll (List.range (data.length / 4)) fun k s => s.i3cPut (off + 4 * k) (sub data (4 * k) 4)
  else s

/-- I3C_PRIVATE_WRITE (R580, R581). -/
def execI3cPrivateWrite (off : Nat) (data : List Byte) (s : State) : Host.Outcome State Fault Refusal :=
  .next (s.i3cWrite off data)

/-- R580: a private read: its bytes; none when the address is not acknowledged. -/
def State.i3cRead (s : State) (off n : Nat) : State :=
  if !s.i3cAck then s.onI3c fun i => { i with answer := none }
  else if !i3cFits off n then s.onI3c fun i => { i with answer := some [] }
  else
    let r := (List.range (n / 4)).foldl (fun (r : List Byte × State) k =>
      let q := r.2.i3cGet (off + 4 * k)
      (r.1 ++ q.1, q.2)) (([] : List Byte), s)
    r.2.onI3c fun i => { i with answer := some r.1 }

/-- I3C_PRIVATE_READ (R580, R581). -/
def execI3cPrivateRead (off len : Nat) (s : State) : Host.Outcome State Fault Refusal := .next (s.i3cRead off len)

/-- R579: a dynamic address is given to a target that has none. -/
def State.i3cGive (s : State) (ok : Bool) (addr : Nat) : State :=
  if ok && s.i3c.dyn.isNone then (s.onI3c fun i => { i with dyn := some addr }).ibiFlush else s

/-- SETDASA (R579, R581): addressed to the static address. -/
def execSetdasa (addr : Nat) (s : State) : Host.Outcome State Fault Refusal :=
  guarded (decide (addr < 128)) (s.i3cGive s.i3cAck addr)

/-- ENTDAA (R579). -/
def execEntdaa (addr : Nat) (s : State) : Host.Outcome State Fault Refusal :=
  guarded (decide (addr < 128)) (s.i3cGive s.i3cOn addr)

/-- RSTDAA (R579). -/
def execRstdaa (s : State) : Host.Outcome State Fault Refusal :=
  .next (if s.i3cOn then s.onI3c fun i => { i with dyn := none } else s)

/-- SETMWL (R579). -/
def execSetmwl (n : Nat) (s : State) : Host.Outcome State Fault Refusal :=
  .next (if s.i3cOn then s.onI3c fun i => { i with mwl := some (n % 65536) } else s)

/-- IBI_ENABLE (R579, R582): what is due leaves. -/
def execIbiEnable (s : State) : Host.Outcome State Fault Refusal :=
  .next (if s.i3cOn then (s.onI3c fun i => { i with ibi := true }).ibiFlush else s)

/-- IBI_DISABLE (R579). -/
def execIbiDisable (s : State) : Host.Outcome State Fault Refusal :=
  .next (if s.i3cOn then s.onI3c fun i => { i with ibi := false } else s)

end Sys2Proof.Machine
end

