-- ==== Sys2Proof/Machine/ShuttleRun.lean ====
section
/-!
DEFINITION. The execution of shuttle descriptors (R245 to R260, R264, R176, R157): COPY, GATHER, SCATTER,
TRANSPOSE and IMM. One access is one raw, W16 or F32 element, one index, or one block and one scale of
a narrow side (log 60).
-/
namespace Sys2Proof.Machine

/-- A side of a descriptor: a device address, a core-local address (R246), or a place in a stash slot whose
64 KiB units are listed (R176, R245). -/
structure Side where
  core : Option Nat := none
  stash : Bool := false
  units : List Nat := []
  base : Nat := 0
  deriving DecidableEq, Repr

/-- A place of a stash slot, in pieces that do not cross its units; `n` bounds the pieces. -/
def stashPieces (us : List Nat) : Nat → Nat → Nat → List (Nat × Nat)
  | 0, _, _ => []
  | k + 1, x, n =>
    let here := min n (65536 - x % 65536)
    if n = 0 then [] else (us.getD (x / 65536) (2 ^ 48) + x % 65536, here) :: stashPieces us k (x + here) (n - here)

/-- The device ranges behind `n` bytes at a place of a side. -/
def Side.pieces (x : Side) (a n : Nat) : List (Nat × Nat) :=
  if x.stash then (if x.units.isEmpty then [] else stashPieces x.units (n / 65536 + 2) a n)
  else match x.core with
    | some c => localPieces c a n
    | none => [(a, n)]

/-- A descriptor in execution: the state, the destination bytes that arrived, how the accesses fare, how
many more accesses succeed before the one that fails for the fourth time (R264), the accesses issued, and whether
one has failed so. -/
structure Run where
  s : State
  n : Nat := 0
  st : AccSt := .ok
  left : Option Nat := none
  acc : Nat := 0
  lost : Bool := false

/-- What a shuttle needs for an access: its world, its event SOURCE, and whether it may address the register
range (R256). -/
structure Mover where
  w : World
  src : Nat
  imm : Bool := false

/-- R256: an access of another operation to the register range is ADDR_FAULT. -/
def Mover.check (m : Mover) (s : State) (rd : Bool) (p : Nat × Nat) : AccSt :=
  if !m.imm && decide (p.1 < blkBase + 0x100000000 ∧ blkBase < p.1 + p.2) then .addrFault
  else if rd then s.checkRead m.w p.1 p.2 else s.check m.w p.1 p.2

/-- R258: the first piece that fails ends the descriptor; R264: so does the access that fails four times. -/
def Mover.access (m : Mover) (rd : Bool) (ps : List (Nat × Nat)) (r : Run) : Run :=
  if r.st ≠ .ok then r
  else match r.left with
    | some 0 => { r with st := .void, acc := r.acc + 1, lost := true
                         s := r.s.logFail m.w m.src (ps.headD (0, 0)).1 .void }
    | l =>
      let r := { r with left := l.map (· - 1), acc := r.acc + 1 }
      match ps.find? fun p => m.check r.s rd p != .ok with
      | none => r
      | some p =>
        let st := m.check r.s rd p
        { r with st := st, s := r.s.logFail m.w m.src p.1 st }

/-- `n` bytes of a place that nothing has placed: free values (log 7). -/
def freeBytes (s : State) (n : Nat) : List Byte × State :=
  ((List.range n).map fun i => (Config.freeWord (s.free + i)).truncate 8, { s with free := s.free + n })

/-- One read access of a side. -/
def Mover.read (m : Mover) (x : Side) (a n : Nat) (r : Run) : Run × List Byte :=
  let ps := x.pieces a n
  let r := m.access true ps r
  if r.st ≠ .ok then (r, List.replicate n 0)
  else if ps.isEmpty then
    let q := freeBytes r.s n
    ({ r with s := q.2 }, q.1)
  else
    let q := ps.foldl (fun (acc : List Byte × State) p =>
      let q := pieceRead acc.2 p
      (acc.1 ++ q.1, q.2)) ([], r.s)
    ({ r with s := q.2 }, q.1)

/-- R9: a register write that the access code ignores. -/
def State.regIgnores (s : State) (a : Nat) : Bool :=
  match famAt a with
  | none => true
  | some (f, o) =>
    match f.def? o with
    | none => !(f == .vec && decide (0x80 ≤ o ∧ o < 0x100 ∨ 0x400 ≤ o ∧ o < 0xC00))
    | some d => d.acc == .ro || d.acc == .sb || (d.acc == .lk && s.committed)

/-- One write access to a piece: memory, with the late-lap rule of R166, or a register. The count of bytes
that arrived is 0 where R9 ignores the write (R256). -/
def Mover.put (m : Mover) (s : State) (a : Nat) (bs : List Byte) : State × AccSt × Bool :=
  if (s.place a).isReg then
    let ign := s.regIgnores a
    let q := s.regWrite (.world m.w) m.src a (BitVec.ofNat 32 (leNat bs))
    (q.1, q.2, ign)
  else ((s.arrive a bs).lateHome m.src a bs.length, .ok, false)

/-- One write access of a side; `cnt` destination bytes are counted. -/
def Mover.write (m : Mover) (x : Side) (a : Nat) (bs : List Byte) (cnt : Nat) (r : Run) : Run :=
  let ps := x.pieces a bs.length
  let r := m.access false ps r
  if r.st ≠ .ok then r
  else
    let q := ps.foldl (fun (acc : State × AccSt × Bool × List Byte) p =>
      let q := m.put acc.1 p.1 (acc.2.2.2.take p.2)
      (q.1, q.2.1, q.2.2, acc.2.2.2.drop p.2)) (r.s, .ok, false, bs)
    { r with s := q.1, st := q.2.1, n := if q.2.1 ≠ .ok ∨ q.2.2.1 then r.n else r.n + cnt }

/-- R249: byte offset and length of element `j` of width `w` in a packed row. -/
def elemSpan (w j : Nat) : Nat × Nat := (w * j / 8, (w * j + w + 7) / 8 - w * j / 8)

/-- R249: element `j` of a packed row at a place. -/
def Mover.readElem (m : Mover) (x : Side) (row w j : Nat) (r : Run) : Run × Nat :=
  let p := elemSpan w j
  let q := m.read x (row + p.1) p.2 r
  (q.1, (leNat q.2 >>> (w * j % 8)) % 2 ^ w)

/-- R249: element `j` of a packed row is written; other bits of its bytes keep their values, and a byte
counts once its first element arrives. -/
def Mover.writeElem (m : Mover) (x : Side) (row w j v : Nat) (r : Run) : Run :=
  let p := elemSpan w j
  let sh := w * j % 8
  let old := if w % 8 = 0 then 0
    else leNat ((x.pieces (row + p.1) p.2).flatMap fun q => r.s.bytes q.1 q.2)
  let new := putBits old (sh + w - 1) sh v
  m.write x (row + p.1) (leBytes p.2 new) (ceilDiv (w * (j + 1)) 8 - ceilDiv (w * j) 8) r

/-- R250: a raw element in another width. -/
def rawConvert (signed : Bool) (sw dw v : Nat) : Nat :=
  if signed ∧ bit v (sw - 1) then (v + (2 ^ dw - 2 ^ sw)) % 2 ^ dw else v % 2 ^ dw

/-- The fields that a running descriptor needs: its sides, pitches and counts. -/
structure Job2 where
  d : List Byte
  m : Mover
  core : Option Nat
  a : Side
  b : Side

/-- R251: SCALE of the source. -/
def Job2.srcScale (j : Job2) : Nat := scaleAt j.a.base (fld j.d 0x30 4) (dY j.d) (dSp j.d)
/-- R251: SCALE of the destination. -/
def Job2.dstScale (j : Job2) : Nat := scaleAt j.b.base (fld j.d 0x34 4) (dstRows j.d) (dDp j.d)

/-- R234: a read of a source row is counted at its first element. -/
def Job2.countRow (j : Job2) (row n col : Nat) (r : Run) : Run :=
  if col = 0 ∧ r.st = .ok ∧ j.a.core.isNone ∧ !j.a.stash then { r with s := r.s.pfCounts row n } else r

/-- R251: a block of a narrow source: its codes and its scale code. -/
def Job2.srcBlock (j : Job2) (row col : Nat) (r : Run) : Run × Nat × List Nat :=
  let f := dSf j.d
  let at' := j.a.base + row * dSp j.d
  let q := j.m.read j.a (at' + col / 32 * blockBytes f) (blockBytes f) r
  let z := j.m.read j.a (j.srcScale + row * ceilDiv (dX j.d) 32 + col / 32) 1 q.1
  (j.countRow at' (ceilDiv (dX j.d) 32 * blockBytes f) col z.1, leNat z.2, unpackCodes (fmtWidth f) q.2)

/-- R251: the value of a source element: its bits, and its value in F32 bits. -/
def Job2.srcElem (j : Job2) (row col : Nat) (r : Run) : Run × Nat × Word :=
  let f := dSf j.d
  if narrow f then
    let q := j.srcBlock row col r
    (q.1, 0, (decodeF32 f (q.2.2.getD (col % 32) 0) q.2.1 (q.1.s.sbTexp (dSt j.d))).1)
  else
    let at' := j.a.base + row * dSp j.d
    let q := j.m.readElem j.a at' (fmtWidth f) col r
    (j.countRow at' (ceilDiv (dX j.d * fmtWidth f) 8) col q.1, q.2, (decodeF32 f q.2 0 0).1)

/-- R252: the source element behind a destination element. -/
def srcOf (d : List Byte) (row col : Nat) : Nat × Nat := if dOp d = 3 then (col, row) else (row, col)

/-- R251: a block of a narrow destination is written, with its scale code; missing elements are 0. -/
def Job2.putBlock (j : Job2) (row k scale : Nat) (codes : List Nat) (r : Run) : Run :=
  let f := dDf j.d
  let r := j.m.write j.b (j.b.base + row * dDp j.d + k * blockBytes f) (packCodes (fmtWidth f) codes) (blockBytes f) r
  j.m.write j.b (j.dstScale + row * ceilDiv (dstCols j.d) 32 + k) (leBytes 1 scale) 1 r

/-- R251, R157: block `k` of a destination row: copied, or quantised with the destination's TEXP, or marked
when an indicator rises. -/
def Job2.block (j : Job2) (row k : Nat) (r : Run) : Run :=
  let n := min 32 (dstCols j.d - 32 * k)
  if dSf j.d = dDf j.d ∧ dOp j.d = 0 then
    let q := j.srcBlock row (32 * k) r
    j.putBlock row k q.2.1 (q.2.2.take n) q.1
  else
    let q := (List.range n).foldl (fun (acc : Run × List Word) i =>
      let p := srcOf j.d row (32 * k + i)
      let e := j.srcElem p.1 p.2 acc.1
      (e.1, acc.2 ++ [e.2.2])) (r, [])
    if q.1.st ≠ .ok then q.1
    else
      let b := quantiseBlock (dDf j.d) (q.1.s.sbTexp (dDt j.d)) (some (q.1.s.sbHead (dDt j.d))) (q.2.map f32Val)
      if b.trouble.any then j.putBlock row k 0xFF [] q.1 else j.putBlock row k b.scale b.codes q.1

/-- R251: element `c` of a W16 or F32 destination row. -/
def Job2.wide (j : Job2) (row c : Nat) (r : Run) : Run :=
  let p := srcOf j.d row c
  let e := j.srcElem p.1 p.2 r
  if e.1.st ≠ .ok then e.1
  else
    let v := if dSf j.d = dDf j.d then e.2.1
      else if dDf j.d = 1 then (toW16 (f32Val e.2.2)).1
      else e.2.2.toNat
    j.m.writeElem j.b (j.b.base + row * dDp j.d) (fmtWidth (dDf j.d)) c v e.1

/-- R248 to R250: a raw element from a source row to a destination row. -/
def Job2.raw (j : Job2) (srow scol drow dcol : Nat) (r : Run) : Run :=
  let e := j.m.readElem j.a srow (dSw j.d) scol r
  let r := j.countRow srow (ceilDiv (dX j.d * dSw j.d) 8) scol e.1
  if r.st ≠ .ok then r
  else j.m.writeElem j.b drow (dDw j.d) dcol (rawConvert (bit (dCtrl j.d) 6) (dSw j.d) (dDw j.d) e.2) r

/-- R250: elements `k0` to `k0 + n - 1` of a raw row pass through the 64-byte holding register: all are read before
the first is written. -/
def Job2.load (j : Job2) (srow drow k0 n : Nat) (r : Run) : Run :=
  let q := (List.range n).foldl (fun (acc : Run × List Nat) i =>
    let e := j.m.readElem j.a srow (dSw j.d) (k0 + i) acc.1
    (j.countRow srow (ceilDiv (dX j.d * dSw j.d) 8) (k0 + i) e.1, acc.2 ++ [e.2])) (r, [])
  if q.1.st ≠ .ok then q.1
  else (List.range n).foldl (fun r i =>
    j.m.writeElem j.b drow (dDw j.d) (k0 + i) (rawConvert (bit (dCtrl j.d) 6) (dSw j.d) (dDw j.d) (q.2.getD i 0)) r) q.1

/-- R250: a raw row of unequal widths, one holding register after the other. -/
def Job2.rawRow (j : Job2) (srow drow : Nat) (r : Run) : Run :=
  let k := 512 / dSw j.d
  (List.range (ceilDiv (dX j.d) k)).foldl (fun r g =>
    if r.st ≠ .ok then r else j.load srow drow (g * k) (min k (dX j.d - g * k)) r) r

/-- R248, R250, R252: COPY and TRANSPOSE: destination rows in ascending order, elements or blocks in ascending
order. -/
def Job2.copy (j : Job2) (r : Run) : Run :=
  (List.range (dstRows j.d)).foldl (fun r row =>
    if r.st ≠ .ok then r
    else if dConv j.d && narrow (dDf j.d) then
      (List.range (ceilDiv (dstCols j.d) 32)).foldl (fun r k => j.block row k r) r
    else if !dConv j.d && dOp j.d == 0 && dSw j.d != dDw j.d then
      j.rawRow (j.a.base + row * dSp j.d) (j.b.base + row * dDp j.d) r
    else (List.range (dstCols j.d)).foldl (fun r c =>
      if dConv j.d then j.wide row c r
      else
        let p := srcOf j.d row c
        j.raw (j.a.base + p.1 * dSp j.d) p.2 (j.b.base + row * dDp j.d) c r) r) r

/-- R253: the side that holds the index table. -/
def Job2.table (j : Job2) : Side := { core := if bit (dCtrl j.d) 7 then j.core else none }

/-- R253: GATHER and SCATTER: each index in ascending order; 0xFFFFFFFF skips its row, and GATHER then writes
zeros. -/
def Job2.indexed (j : Job2) (r : Run) : Run :=
  let g := dOp j.d == 1
  let tab := j.table
  (List.range (dY j.d)).foldl (fun r i =>
    let q := j.m.read tab (fld j.d 0x30 6 + 4 * i) 4 r
    let k := leNat q.2
    let drow := j.b.base + (if g then i else k) * dDp j.d
    let srow := j.a.base + (if g then k else i) * dSp j.d
    if q.1.st ≠ .ok ∨ (!g ∧ k = 0xFFFFFFFF) then q.1
    else if k ≠ 0xFFFFFFFF ∧ dSw j.d ≠ dDw j.d then j.rawRow srow drow q.1
    else (List.range (dX j.d)).foldl (fun r c =>
      if k = 0xFFFFFFFF then j.m.writeElem j.b drow (dDw j.d) c 0 r
      else j.raw srow c drow c r) q.1) r

/-- R256: IMM. -/
def Job2.immediate (j : Job2) (r : Run) : Run :=
  let n := dX j.d
  j.m.write j.b j.b.base (leBytes n (fld j.d 0x30 8)) n r

/-- R255: the range of the source. -/
def Job2.srcRange (j : Job2) : Nat × Nat := dSrcRange j.d j.a.base

/-- R255: the range of the destination. -/
def Job2.dstRange (j : Job2) : Nat × Nat := dDstRange j.d j.b.base

/-- Two lists of ranges share a byte. -/
def meet (p q : List (Nat × Nat)) : Bool :=
  p.any fun x => q.any fun y => decide (x.1 < y.1 + y.2 ∧ y.1 < x.1 + x.2)

/-- R255: the destination meets the source; two places of one stash slot are compared by their offsets, since a FULL
slot may not be placed yet (R177). The destination of a GATHER may not meet its index table either (DEDUCED
from the worked example of the chapter, log 100). -/
def Job2.overlaps (j : Job2) (ka kb : Option Nat) : Bool :=
  let p := j.srcRange
  let q := j.dstRange
  !dEmpty j.d &&
    ((dOp j.d == 0 || dOp j.d == 3) &&
      (if ka.isSome && ka == kb then meet [(p.1, p.2 - p.1)] [(q.1, q.2 - q.1)]
       else meet (j.a.pieces p.1 (p.2 - p.1)) (j.b.pieces q.1 (q.2 - q.1)))
     || (dOp j.d == 1 && meet (j.table.pieces (fld j.d 0x30 6) (4 * dY j.d)) (j.b.pieces q.1 (q.2 - q.1))))

/-- R176: what a stash reference meets. -/
inductive StashRef where
  | held
  | skipped
  | fault
  | release (key : Nat) (sl : Slot)
  | released
  | slot (key : Nat) (sl : Slot)
  deriving DecidableEq, Repr

/-- R176, R173: the outcome of a reference: held while its lap waits for its walk. `need` is the byte behind
the last that the descriptor names. -/
def State.stashRef (s : State) (ref need : Nat) : StashRef :=
  let layer := bits ref 11 0
  let lap := bits ref 23 12
  let cls := bits ref 25 24
  let key := lap * 4096 + layer
  if s.laps ≤ lap ∨ s.stashLayers ≤ layer ∨ cls = 3 then .fault
  else if s.stash.walked ≤ lap then (if s.heat.running then .held else .fault)
  else match Tab.get? s.stash.slots key with
    | none => .fault
    | some sl =>
      if cls = 2 then (if sl.released then .released else .release key sl)
      else if sl.released then .fault
      else if sl.full ≠ (cls == 0) then .skipped
      else if (if sl.full then s.stashBytes layer else s.anchorBytes layer) < need then .fault
      else .slot key sl

/-- A side as its descriptor names it, before stash translation. -/
def plainSide (d : List Byte) (core : Option Nat) (dst : Bool) : Side :=
  let c := dCtrl d
  { core := if bit c (if dst then 29 else 28) then core else none
    stash := bit c (if dst then 31 else 30)
    base := if bit c (if dst then 31 else 30) then bits (fld d (if dst then 0x18 else 0x10) 8) 63 32
            else fld d (if dst then 0x18 else 0x10) 6 }

/-- R245, R176: the outcome of both sides' stash references, source first. -/
def State.stashOf (s : State) (j : Job2) : List (Bool × StashRef) :=
  (if j.a.stash then [(false, s.stashRef (fld j.d 0x10 8) (if dEmpty j.d then 0 else j.srcRange.2))] else [])
    ++ (if j.b.stash then [(true, s.stashRef (fld j.d 0x18 8) (if dEmpty j.d then 0 else j.dstRange.2))] else [])

/-- The slot of one side's reference, if that is what it meets. -/
def slotOf (l : List (Bool × StashRef)) (dst : Bool) : Option (Nat × Slot) :=
  l.findSome? fun p => match p with
    | (b, .slot k sl) => if b = dst then some (k, sl) else none
    | _ => none

/-- The units of a slot as the state holds them. -/
def State.slotUnits (s : State) (k : Nat) : List Nat := ((Tab.get? s.stash.slots k).map (·.units)).getD []

/-- R176: a release among the references: of a slot, or of one already released. -/
def releaseOf (p : Bool × StashRef) : Option (Option (Nat × Slot)) :=
  match p.2 with
  | .release k sl => some (some (k, sl))
  | .released => some none
  | _ => none

/-- R177: the FULL slot that a descriptor writes and that nothing has placed yet. -/
def unplaced (j : Job2) (l : List (Bool × StashRef)) : Option (Nat × Slot) :=
  (slotOf l true).filter fun q => q.2.full && q.2.units.isEmpty && !dEmpty j.d

/-- R258 steps 4 to 6: the descriptor moves its data. -/
def State.moveDesc (s : State) (j : Job2) (l : List (Bool × StashRef)) (fail : Option Nat) : Run :=
  let j := match slotOf l false with
    | some (k, _) => { j with a := { j.a with units := s.slotUnits k } }
    | none => j
  let j := match slotOf l true with
    | some (k, _) => { j with b := { j.b with units := s.slotUnits k } }
    | none => j
  let r : Run := { s := s, left := fail }
  if dOp j.d = 4 then j.immediate r
  else if dEmpty j.d then r
  else if dOp j.d = 1 ∨ dOp j.d = 2 then j.indexed r
  else j.copy r

/-- R264: the accesses that a descriptor reissued: at most three times each, three times the one that failed a fourth
time. -/
def Run.retries (r : Run) (retry : Nat) : Nat :=
  if r.lost then 3 + min retry (3 * (r.acc - 1)) else min retry (3 * r.acc)

/-- The end of a descriptor: the state, the status, the destination bytes that arrived, the accesses reissued. -/
abbrev Ended := State × Nat × Nat × Nat

/-- The job of a source's descriptor. -/
def State.jobOf (s : State) (x : ShuSrc) (d : List Byte) : Job2 :=
  { d := d, m := { w := s.srcWorld x, src := x.evSource, imm := dOp d == 4 }, core := x.core?
    a := plainSide d x.core? false, b := plainSide d x.core? true }

/-- R177: what a descriptor that waits has the device do: a FULL slot that it writes is placed. -/
def State.placeAsk (s : State) (x : ShuSrc) (d : List Byte) : State :=
  let j := s.jobOf x d
  let l := s.stashOf j
  match if l.any fun p => p.2 == .held then none else unplaced j l with
  | some (k, sl) => s.stashPlace k x.evSource sl
  | none => s

/-- R155: a range of a side lies in V, the masks or the tile buffers of a core whose vector engine is busy. -/
def State.sideBusy (s : State) (x : Side) (r : Nat × Nat) : Bool :=
  if x.stash then false
  else match x.core with
    | some c => s.vecBusy c r.1 (r.2 - r.1)
    | none => s.outsideBusy r.1 (r.2 - r.1)

/-- R155: the data of a descriptor waits for a vector engine. -/
def State.dataBusy (s : State) (j : Job2) : Bool :=
  !dEmpty j.d && ((dOp j.d != 4 && s.sideBusy j.a j.srcRange) || s.sideBusy j.b j.dstRange)

/-- R155, R258: the outcome of a descriptor: none while a stash reference holds it, or a slot is not placed. Of a bulk channel's descriptor GO has
made the checks of steps 1 and 2 (R272, `pre`). -/
def State.runDesc (s : State) (x : ShuSrc) (d : List Byte) (pre : Option Nat) (retry : Nat) (fail : Option Nat) :
    Option Ended :=
  let bulk := match x with
    | .bulk _ _ => true
    | .pod _ _ => false
  let list := match x with
    | .pod _ n => decide (16 ≤ n)
    | .bulk _ _ => false
  let j := s.jobOf x d
  let bad := match pre with
    | some v => v
    | none => if dBad d bulk list then 7 else if s.dFmtBad d then 5 else 0
  if bad ≠ 0 then some (s, bad, 0, 0)
  else
    let l := s.stashOf j
    if l.any fun p => p.2 == .held then none
    else if l.any fun p => p.2 == .fault then some (s, 6, 0, 0)
    else match l.findSome? releaseOf with
      | some (some (k, sl)) => some (s.stashRelease k sl, 0, 0, 0)
      | some none => some (s, 0, 0, 0)
      | none =>
        if l.any fun p => p.2 == .skipped then some (s, 1, 0, 0)
        else
          let j' := { j with
            a := { j.a with units := ((slotOf l false).map fun (q : Nat × Slot) => q.2.units).getD [] }
            b := { j.b with units := ((slotOf l true).map fun (q : Nat × Slot) => q.2.units).getD [] } }
          let k := fun b => (slotOf l b).map fun (q : Nat × Slot) => q.1
          if j'.overlaps (k false) (k true) then some (s, 7, 0, 0)
          else if (unplaced j l).isSome || s.dataBusy j then none
          else
            let r := s.moveDesc j l fail
            some (r.s, r.st.code, r.n, r.retries retry)

/-- R259, R412: SHUTTLE_STATUS. -/
def State.shuStatus (s : State) (x : ShuSrc) (d : List Byte) (st : Nat) : State :=
  s.ochre (s.srcWorld x) 0x0211 2 x.evSource
    (leBytes 4 ((x.core?).getD 0x1FFF + x.num * 2 ^ 16) ++ leBytes 4 (dTag d) ++ leBytes 4 (st + dCq d * 256))

/-- R262 to R266: a descriptor ends: its record is complete, its source takes the next. -/
def State.endDesc (s : State) (x : ShuSrc) (a : Desc) (st retries n : Nat) : State :=
  let s := s.onSrc x fun r => { r with active := none }
  let s := match x with
    | .bulk e ch => s.setReg64 (bshAt e ch + 0x50) n
    | .pod _ _ => s
  let s := (s.recDone (x.queue a.bytes) x a.ticket (st, retries, n)).srcRefresh x
  let s := if 2 ≤ st ∧ !a.noheat ∧ s.heat.num = a.heat ∧ s.heat.attempt = a.attempt then s.shuStatus x a.bytes st else s
  State.acceptNext x (s.src x).waiting.length s

/-- R502, R503: no shuttle moves data in FLOOR, in PARK and while the device leaves them. -/
def State.shuttlesWait (s : State) : Bool := s.pst == 2 || s.pst == 4 || s.pst == 5

/-- A shuttle row: the source's active descriptor runs when its operation is the row's (a reserved OP runs, as
DESC_FAULT, under any of the rows). -/
def shuRow (op : Nat) (x : ShuSrc) (retry : Nat) (fail : Option Nat) (s : State) :
    Host.Outcome State Fault Refusal :=
  guarded x.wf (
    match (s.src x).active with
    | none => s
    | some a =>
      if (dOp a.bytes = op ∨ 4 < dOp a.bytes) ∧ !s.shuttlesWait then
        match s.runDesc x a.bytes a.verdict retry fail with
        | none => s.placeAsk x a.bytes
        | some (t, st, n, k) => t.endDesc x a st k n
      else s)

/-- COPY (R248 to R251). -/
def execCopy (src : ShuSrc) (retry : Nat) (fail : Option Nat) (s : State) : Host.Outcome State Fault Refusal :=
  shuRow 0 src retry fail s

/-- GATHER (R253). -/
def execGather (src : ShuSrc) (retry : Nat) (fail : Option Nat) (s : State) : Host.Outcome State Fault Refusal :=
  shuRow 1 src retry fail s

/-- SCATTER (R253). -/
def execScatter (src : ShuSrc) (retry : Nat) (fail : Option Nat) (s : State) : Host.Outcome State Fault Refusal :=
  shuRow 2 src retry fail s

/-- TRANSPOSE (R252, R157). -/
def execTranspose (src : ShuSrc) (retry : Nat) (fail : Option Nat) (s : State) :
    Host.Outcome State Fault Refusal :=
  shuRow 3 src retry fail s

/-- IMM (R256). -/
def execImm (src : ShuSrc) (retry : Nat) (fail : Option Nat) (s : State) : Host.Outcome State Fault Refusal :=
  shuRow 4 src retry fail s

end Sys2Proof.Machine
end

