-- ==== Sys2Proof/Machine/Messages.lean ====
section
/-!
DEFINITION. The messages that a port has received (R308 to R318): WRITE, READ_REQ, READ_RESP, ATOMIC_ADD,
ATOMIC_RESP, WRITE_ACK, COLL_FRAG and HURDLE. Each row executes the first message of its virtual channel
when that message is the row's and has no hop left.
-/
namespace Sys2Proof.Machine

/-- R315: the world of a message. -/
def Msg.world (m : Msg) : World := if m.sable then .sable else .ivory

/-- A message row: `f` runs on the first message of the type's VC. -/
def msgRow (p t : Nat) (f : Msg → State → State) (s : State) : Host.Outcome State Fault Refusal :=
  guarded (decide (p < 16)) (
    match s.headMsg p (msgVc t) with
    | none => s
    | some b =>
      let m := Msg.ofBytes b
      if m.hops = 0 ∧ m.mtype = t then f m s else s)

/-- R502: data messages bound for HBM, and fragments, wait in FLOOR, in PARK and while the device leaves them; R155: an
access to a busy core's V, masks or tile buffers waits. -/
def State.msgWaits (s : State) (m : Msg) : Bool :=
  (s.shuttlesWait && (m.mtype == 7 || decide (m.addr < 0xA000000000)))
    || (m.mtype != 7 && s.outsideBusy m.addr (max m.len 1))

/-- R309: the answer to a message goes back to its source with its tag and address. -/
def State.answer (s : State) (p : Nat) (m : Msg) (t st : Nat) (old : Nat) (data : List Byte) (len : Nat) : State :=
  s.sendNode m.src p { mtype := t, sable := m.sable, len := len, mtag := m.mtag, srcId := portSource p
                       status := st, addr := m.addr, operand := old, data := data }

/-- R317: ACCESS_REFUSED of a WRITE without WANT_ACK names SRC_NODE too; R412 gives the event no field for it: it stands
behind the status (DESIGN CHOICE, log 150). -/
def State.refusedFrom (s : State) (m : Msg) (st : AccSt) : State :=
  s.raise m.world 0x0300 1 m.srcId (leBytes 8 (m.addr % 2 ^ 48) ++ leBytes 4 st.code ++ leBytes 4 m.src)

/-- R185, R258, R317: one write of a message: to memory or to a register. -/
def State.msgPut (s : State) (m : Msg) (bs : List Byte) : State × AccSt :=
  match s.check m.world m.addr bs.length with
  | .ok =>
    if (s.place m.addr).isReg then s.regWrite (.world m.world) m.srcId m.addr (BitVec.ofNat 32 (leNat bs))
    else ((s.arrive m.addr bs).lateHome m.srcId m.addr bs.length, .ok)
  | st => (if m.mtype = 1 ∧ m.ack = false then s.refusedFrom m st else s.logFail m.world m.srcId m.addr st, st)

/-- R317: one read of a message. -/
def State.msgGet (s : State) (m : Msg) : State × AccSt × List Byte :=
  match s.checkRead m.world m.addr m.len with
  | .ok =>
    let q := pieceRead s (m.addr, m.len)
    (q.2, .ok, q.1)
  | st => (s.logFail m.world m.srcId m.addr st, st, [])

/-- R309, R317: WRITE; a refusal without WANT_ACK is counted and sets REFUSED. -/
def State.msgWrite (s : State) (p : Nat) (m : Msg) : State :=
  let q := s.msgPut m (m.data.take m.len)
  if m.ack then q.1.answer p m 6 q.2.code 0 [] 0
  else if q.2 = .ok then q.1
  else (q.1.count (lnkAt p + 0x70) 1).raiseBits (lnkAt p + 0x18) 0x20

/-- R309, R317: READ_REQ. -/
def State.msgRead (s : State) (p : Nat) (m : Msg) : State :=
  let q := s.msgGet m
  q.1.answer p m 3 q.2.1.code 0 q.2.2 q.2.2.length

/-- R309, R318: ATOMIC_ADD: the sum modulo 2^32 or 2^64, and the old value to who asks for it. -/
def State.msgAdd (s : State) (p : Nat) (m : Msg) : State :=
  let q := s.msgGet m
  let old := leNat q.2.2
  let r := if q.2.1 = .ok then q.1.msgPut m (leBytes m.len (old + m.operand)) else (q.1, q.2.1)
  if m.ack then r.1.answer p m 5 r.2.code (if r.2 = .ok then old else 0) [] m.len else r.1

/-- R350, R351, R354, R551: a HURDLE message: of the attempt in progress it is a round or a void; of another
it is stale, and of a later heat it is evidence of a split commit. -/
def State.hurdleRx (s : State) (m : Msg) : State :=
  let d := m.data
  let w := fld d 0x10 4
  let heat := fld d 0x18 4
  let s := s.splitCheck heat m.src
  let fresh := s.job.loaded && heat == s.stamp.1 && fld d 0x1C 1 == s.stamp.2 % 256
    && (s.heat.running || !s.heat.active)
  if !fresh then s.count (rlyAt 0 + 0x20) 1
  else if bit w 16 then s.voidRx (bits w 15 12) (fld d 0x16 2)
  else s.hrdRound (bits w 11 0)
    { epoch := fld d 0x14 2, round := bits w 15 12, tick := BitVec.ofNat 64 (fld d 0x20 8), node := fld d 0x28 2 }

/-- WRITE (R309, R315 to R317). -/
def execWrite (p : Nat) (s : State) : Host.Outcome State Fault Refusal :=
  msgRow p 1 (fun m s => if s.msgWaits m then s else (s.popMsg p 2).msgWrite p m) s

/-- READ_REQ (R309, R315 to R317). -/
def execReadReq (p : Nat) (s : State) : Host.Outcome State Fault Refusal :=
  msgRow p 2 (fun m s => if s.msgWaits m then s else (s.popMsg p 2).msgRead p m) s

/-- READ_RESP (R309): ends a read of this device; no rule lets the device's own units send READ_REQ, so
nothing waits for it. -/
def execReadResp (p : Nat) (s : State) : Host.Outcome State Fault Refusal :=
  msgRow p 3 (fun _ s => s.popMsg p 0) s

/-- ATOMIC_ADD (R309, R318). -/
def execAtomicAdd (p : Nat) (s : State) : Host.Outcome State Fault Refusal :=
  msgRow p 4 (fun m s => if s.msgWaits m then s else (s.popMsg p 2).msgAdd p m) s

/-- ATOMIC_RESP (R309): returns an old value; nothing waits for it. -/
def execAtomicResp (p : Nat) (s : State) : Host.Outcome State Fault Refusal :=
  msgRow p 5 (fun _ s => s.popMsg p 0) s

/-- WRITE_ACK (R309, R566): ends a write of an image that this device serves. -/
def execWriteAck (p : Nat) (s : State) : Host.Outcome State Fault Refusal :=
  msgRow p 6 (fun m s => (s.popMsg p 0).ackRx m.src m.mtag) s

/-- COLL_FRAG (R335, R336). -/
def execCollFrag (p : Nat) (s : State) : Host.Outcome State Fault Refusal :=
  msgRow p 7 (fun m s => if s.msgWaits m then s else (s.popMsg p 1).fragRx m) s

/-- HURDLE (R350, R351, R354). -/
def execHurdle (p : Nat) (s : State) : Host.Outcome State Fault Refusal :=
  msgRow p 8 (fun m s => (s.popMsg p 0).hurdleRx m) s

end Sys2Proof.Machine
end

