-- ==== Sys2Proof/Machine/Scalar.lean ====
section
/-!
DEFINITION. The scalar control unit (R111 to R114, R140, R586): RV32I with M, C and Zicsr in machine mode,
its core-local loads and stores, and its exceptions.
-/
namespace Sys2Proof.Machine

/-- A scalar instruction. `imm` and `off` are sign-extended; `f3` is the funct3 of the 32-bit form. -/
inductive SOp where
  | lui (rd : Nat) (imm : Word)
  | auipc (rd : Nat) (imm : Word)
  | jal (rd : Nat) (off : Word)
  | jalr (rd rs1 : Nat) (imm : Word)
  | branch (f3 rs1 rs2 : Nat) (off : Word)
  | load (f3 rd rs1 : Nat) (imm : Word)
  | store (f3 rs1 rs2 : Nat) (imm : Word)
  | aluImm (f3 : Nat) (alt : Bool) (rd rs1 : Nat) (imm : Word)
  | alu (f3 : Nat) (alt : Bool) (rd rs1 rs2 : Nat)
  | mulDiv (f3 rd rs1 rs2 : Nat)
  | fence
  | ecall
  | ebreak
  | csr (f3 rd rs1 num : Nat)
  deriving DecidableEq, Repr

/-- A field of `n` bits as a sign-extended word. -/
def sext (n v : Nat) : Word :=
  BitVec.ofNat 32 (if v % 2 ^ n < 2 ^ (n - 1) then v % 2 ^ n else v % 2 ^ n + 2 ^ 32 - 2 ^ n)

/-- The immediates of the I, S, B, U and J formats. -/
def immI (w : Nat) : Word := sext 12 (bits w 31 20)
/-- The S immediate. -/
def immS (w : Nat) : Word := sext 12 (bits w 31 25 * 32 + bits w 11 7)
/-- The B immediate. -/
def immB (w : Nat) : Word :=
  sext 13 (bits w 31 31 * 4096 + bits w 7 7 * 2048 + bits w 30 25 * 32 + bits w 11 8 * 2)
/-- The U immediate. -/
def immU (w : Nat) : Word := BitVec.ofNat 32 (bits w 31 12 * 4096)
/-- The J immediate. -/
def immJ (w : Nat) : Word :=
  sext 21 (bits w 31 31 * 1048576 + bits w 19 12 * 4096 + bits w 20 20 * 2048 + bits w 30 21 * 2)

/-- R111: the 32-bit words of RV32IM and Zicsr; none for an illegal instruction. -/
def decode32 (w : Nat) : Option SOp :=
  let rd := iRd w
  let f3 := iF3 w
  let r1 := iRs1 w
  let r2 := iRs2 w
  let k7 := iK7 w
  match iOp w with
  | 0x37 => some (.lui rd (immU w))
  | 0x17 => some (.auipc rd (immU w))
  | 0x6F => some (.jal rd (immJ w))
  | 0x67 => if f3 = 0 then some (.jalr rd r1 (immI w)) else none
  | 0x63 => if f3 = 2 ∨ f3 = 3 then none else some (.branch f3 r1 r2 (immB w))
  | 0x03 => if f3 = 3 ∨ 5 < f3 then none else some (.load f3 rd r1 (immI w))
  | 0x23 => if 2 < f3 then none else some (.store f3 r1 r2 (immS w))
  | 0x13 =>
    if f3 = 1 then (if k7 = 0 then some (.aluImm 1 false rd r1 (BitVec.ofNat 32 r2)) else none)
    else if f3 = 5 then
      (if k7 = 0 ∨ k7 = 0x20 then some (.aluImm 5 (k7 == 0x20) rd r1 (BitVec.ofNat 32 r2)) else none)
    else some (.aluImm f3 false rd r1 (immI w))
  | 0x33 =>
    if k7 = 1 then some (.mulDiv f3 rd r1 r2)
    else if k7 = 0 then some (.alu f3 false rd r1 r2)
    else if k7 = 0x20 ∧ (f3 = 0 ∨ f3 = 5) then some (.alu f3 true rd r1 r2)
    else none
  | 0x0F => if f3 = 0 then some .fence else none
  | 0x73 =>
    if f3 = 0 then (if w = 0x73 then some .ecall else if w = 0x100073 then some .ebreak else none)
    else if f3 = 4 then none
    else some (.csr f3 rd r1 (bits w 31 20))
  | _ => none

/-- The register of a three-bit field of a compressed instruction. -/
def cReg (v : Nat) : Nat := 8 + v % 8

/-- The jump offset of C.J and C.JAL. -/
def cJump (h : Nat) : Word :=
  sext 12 (bits h 12 12 * 2048 + bits h 11 11 * 16 + bits h 10 9 * 256 + bits h 8 8 * 1024 + bits h 7 7 * 64
    + bits h 6 6 * 128 + bits h 5 3 * 2 + bits h 2 2 * 32)

/-- The branch offset of C.BEQZ and C.BNEZ. -/
def cBranch (h : Nat) : Word :=
  sext 9 (bits h 12 12 * 256 + bits h 11 10 * 8 + bits h 6 5 * 64 + bits h 4 3 * 2 + bits h 2 2 * 32)

/-- The six-bit immediate of the CI format, sign-extended. -/
def cImm (h : Nat) : Word := sext 6 (bits h 12 12 * 32 + bits h 6 2)

/-- Quadrant 0 of RV32C. -/
def decodeC0 (h : Nat) : Option SOp :=
  let off := BitVec.ofNat 32 (bits h 12 10 * 8 + bits h 6 6 * 4 + bits h 5 5 * 64)
  let r1 := cReg (bits h 9 7)
  let r2 := cReg (bits h 4 2)
  match bits h 15 13 with
  | 0 =>
    let n := bits h 12 11 * 16 + bits h 10 7 * 64 + bits h 6 6 * 4 + bits h 5 5 * 8
    if n = 0 then none else some (.aluImm 0 false r2 2 (BitVec.ofNat 32 n))
  | 2 => some (.load 2 r2 r1 off)
  | 6 => some (.store 2 r1 r2 off)
  | _ => none

/-- Quadrant 1 of RV32C. -/
def decodeC1 (h : Nat) : Option SOp :=
  let rd := bits h 11 7
  let r := cReg (bits h 9 7)
  let r2 := cReg (bits h 4 2)
  let sh := BitVec.ofNat 32 (bits h 6 2)
  match bits h 15 13 with
  | 0 => some (.aluImm 0 false rd rd (cImm h))
  | 1 => some (.jal 1 (cJump h))
  | 2 => some (.aluImm 0 false rd 0 (cImm h))
  | 3 =>
    if rd = 2 then
      let n := bits h 12 12 * 512 + bits h 6 6 * 16 + bits h 5 5 * 64 + bits h 4 3 * 128 + bits h 2 2 * 32
      if n = 0 then none else some (.aluImm 0 false 2 2 (sext 10 n))
    else if cImm h = 0 then none
    else some (.lui rd (sext 18 (bits h 12 12 * 131072 + bits h 6 2 * 4096)))
  | 4 =>
    match bits h 11 10 with
    | 0 => if bit h 12 then none else some (.aluImm 5 false r r sh)
    | 1 => if bit h 12 then none else some (.aluImm 5 true r r sh)
    | 2 => some (.aluImm 7 false r r (cImm h))
    | _ =>
      if bit h 12 then none
      else match bits h 6 5 with
        | 0 => some (.alu 0 true r r r2)
        | 1 => some (.alu 4 false r r r2)
        | 2 => some (.alu 6 false r r r2)
        | _ => some (.alu 7 false r r r2)
  | 5 => some (.jal 0 (cJump h))
  | 6 => some (.branch 0 r 0 (cBranch h))
  | _ => some (.branch 1 r 0 (cBranch h))

/-- Quadrant 2 of RV32C. -/
def decodeC2 (h : Nat) : Option SOp :=
  let rd := bits h 11 7
  let r2 := bits h 6 2
  match bits h 15 13 with
  | 0 => if bit h 12 then none else some (.aluImm 1 false rd rd (BitVec.ofNat 32 r2))
  | 2 => if rd = 0 then none
         else some (.load 2 rd 2 (BitVec.ofNat 32 (bits h 12 12 * 32 + bits h 6 4 * 4 + bits h 3 2 * 64)))
  | 4 =>
    if bit h 12 then
      (if r2 ≠ 0 then some (.alu 0 false rd rd r2)
       else if rd = 0 then some .ebreak else some (.jalr 1 rd 0))
    else if r2 ≠ 0 then some (.alu 0 false rd 0 r2)
    else if rd = 0 then none else some (.jalr 0 rd 0)
  | 6 => some (.store 2 2 r2 (BitVec.ofNat 32 (bits h 12 9 * 4 + bits h 8 7 * 64)))
  | _ => none

/-- R111: the scalar instruction of a fetched word of a length. -/
def decodeScalar (w len : Nat) : Option SOp :=
  if len = 4 then decode32 w
  else match w % 4 with
    | 0 => decodeC0 w
    | 1 => decodeC1 w
    | _ => decodeC2 w

/-- The integer operations by funct3. -/
def aluOp (f3 : Nat) (alt : Bool) (a b : Word) : Word :=
  match f3 with
  | 0 => if alt then a - b else a + b
  | 1 => a <<< (b.toNat % 32)
  | 2 => if a.slt b then 1 else 0
  | 3 => if a.ult b then 1 else 0
  | 4 => a ^^^ b
  | 5 => if alt then a.sshiftRight (b.toNat % 32) else a >>> (b.toNat % 32)
  | 6 => a ||| b
  | _ => a &&& b

/-- The M extension by funct3. -/
def mulDivOp (f3 : Nat) (a b : Word) : Word :=
  match f3 with
  | 0 => a * b
  | 1 => BitVec.ofInt 32 ((a.toInt * b.toInt) / 2 ^ 32)
  | 2 => BitVec.ofInt 32 ((a.toInt * (b.toNat : Int)) / 2 ^ 32)
  | 3 => BitVec.ofNat 32 (a.toNat * b.toNat / 2 ^ 32)
  | 4 => if b = 0 then 0xFFFFFFFF else a.sdiv b
  | 5 => if b = 0 then 0xFFFFFFFF else a / b
  | 6 => if b = 0 then a else a.srem b
  | _ => if b = 0 then a else a % b

/-- The branch conditions by funct3. -/
def branchTaken (f3 : Nat) (a b : Word) : Bool :=
  match f3 with
  | 0 => a == b
  | 1 => a != b
  | 4 => a.slt b
  | 5 => !a.slt b
  | 6 => a.ult b
  | _ => !a.ult b

/-- R112: a CSR's value; none where the core has none. The cycle counter is a free value (log 7). -/
def State.csr (s : State) (c num : Nat) : Option (Word × State) :=
  match num with
  | 0xF14 => some (BitVec.ofNat 32 c, s)
  | 0x301 => some (0x40001104, s)
  | 0xB00 => some s.freeWord
  | 0xB80 => some s.freeWord
  | 0xB02 => some ((s.core c).retired.extractLsb' 0 32, s)
  | 0xB82 => some ((s.core c).retired.extractLsb' 32 32, s)
  | 0xC01 => some (s.now.extractLsb' 0 32, s)
  | 0xC81 => some (s.now.extractLsb' 32 32, s)
  | _ => none

/-- R113: the device address of a scalar access. -/
def scalarAddr (c a : Nat) : Nat :=
  if a < 0x100000 then coreBase c + a
  else if 0x1000000 ≤ a ∧ a < 0x1500000 then podBase (corePod c) + (a - 0x1000000)
  else 2 ^ 48

/-- R113, R114, R586: the exception code of an access of `n` bytes at a local address; `bad` is the code of an
access fault, one below it that of a misaligned access. -/
def State.scalarFault (s : State) (c a n bad : Nat) : Option Nat :=
  let d := scalarAddr c a
  if a % n ≠ 0 then some (bad - 1)
  else match s.place d with
    | .none => some bad
    | .coreMem _ => if bad = 7 ∧ 0xA0000 ≤ a ∧ a < 0xA8000 then some 7 else none
    | .podSram _ => none
    | _ => if n = 4 then none else some bad

/-- Bytes of a load or store by funct3. -/
def accSize (f3 : Nat) : Nat := 2 ^ (f3 % 4)

/-- The word that a load writes: sign-extended for LB and LH. -/
def loadExt (f3 v : Nat) : Word :=
  match f3 with
  | 0 => sext 8 v
  | 1 => sext 16 v
  | _ => BitVec.ofNat 32 v

/-- R22, R114: a scalar access that faults: where its address is unmapped, the Grey event that carries the address and
the source as well. -/
def State.scalarTrap (s : State) (c e a : Nat) : State :=
  let d := scalarAddr c a
  let s := if s.place d == .none then
      s.refused (s.podWorld (corePod c)) c (if d = 2 ^ 48 then a else d) (AccSt.code .addrFault) else s
  s.exception c e a

/-- R113, R114, R117: a load; one from a tile buffer, V or a mask waits for earlier instructions. -/
def State.scalarLoad (s : State) (c next f3 rd a : Nat) : State :=
  match s.scalarFault c a (accSize f3) 5 with
  | some e => s.scalarTrap c e a
  | none =>
    if !s.localClear c a (accSize f3) false then s.wait c
    else if s.eccBad (scalarAddr c a) (accSize f3) then
      (s.eccVoid (s.podWorld (corePod c)) c (scalarAddr c a)).exception c 5 a
    else
    let q := pieceRead s (scalarAddr c a, accSize f3)
    q.2.retireAt c (BitVec.ofNat 32 next) rd (loadExt f3 (leNat q.1))

/-- R113, R114, R117, R446: a store, which may have to wait for earlier instructions; a store that its register denies
is the unit address fault of R446. -/
def State.scalarStore (s : State) (c next f3 a : Nat) (v : Word) : State :=
  match s.scalarFault c a (accSize f3) 7 with
  | some e => s.scalarTrap c e a
  | none =>
    if !s.localClear c a (accSize f3) true then s.wait c else
    let d := scalarAddr c a
    let done := s.retireAt c (BitVec.ofNat 32 next) 0 0
    if (s.place d).isReg then
      let ag := Agent.world (s.podWorld (corePod c))
      let q := s.regWrite ag c d v
      if q.2 = .ok then (done.regWrite ag c d v).1 else q.1.exception c 29 a
    else (done.arrive d (leBytes (accSize f3) v.toNat)).lateHome c d (accSize f3)

/-- R112: an access to a CSR; a write to one of these read-only CSRs is illegal. -/
def State.scalarCsr (s : State) (c next f3 rd rs1 num : Nat) : State :=
  if f3 % 4 = 1 ∨ rs1 ≠ 0 then s.exception c 2 0
  else match s.csr c num with
    | none => s.exception c 2 0
    | some (v, s) => s.retireAt c (BitVec.ofNat 32 next) rd v

/-- R111: the effect of a scalar instruction of a length at the core's pc. -/
def State.scalarExec (s : State) (c len : Nat) (i : SOp) : State :=
  let pc := (s.core c).pc
  let next := pc + BitVec.ofNat 32 len
  let x := s.x c
  match i with
  | .lui rd imm => s.retireAt c next rd imm
  | .auipc rd imm => s.retireAt c next rd (pc + imm)
  | .jal rd off => s.retireAt c (pc + off) rd next
  | .jalr rd rs1 imm => s.retireAt c ((x rs1 + imm) &&& 0xFFFFFFFE) rd next
  | .branch f3 rs1 rs2 off => s.retireAt c (if branchTaken f3 (x rs1) (x rs2) then pc + off else next) 0 0
  | .load f3 rd rs1 imm => s.scalarLoad c next.toNat f3 rd (x rs1 + imm).toNat
  | .store f3 rs1 rs2 imm => s.scalarStore c next.toNat f3 (x rs1 + imm).toNat (x rs2)
  | .aluImm f3 alt rd rs1 imm => s.retireAt c next rd (aluOp f3 alt (x rs1) imm)
  | .alu f3 alt rd rs1 rs2 => s.retireAt c next rd (aluOp f3 alt (x rs1) (x rs2))
  | .mulDiv f3 rd rs1 rs2 => s.retireAt c next rd (mulDivOp f3 (x rs1) (x rs2))
  | .fence => s.retireAt c next 0 0
  | .ecall => s.exception c 11 0
  | .ebreak => s.exception c 3 0
  | .csr f3 rd rs1 num => s.scalarCsr c next.toNat f3 rd rs1 num

/-- R111, R114, R120: one scalar instruction of a core; a fetch outside instruction memory and an illegal word
halt it. The kernel extension's own instructions have rows of their own. -/
def State.scalarStep (s : State) (c : Nat) : State :=
  if s.issues c then
    match s.fetch c with
    | none => s.exception c 1 (s.core c).pc.toNat
    | some (w, len) =>
      match (if len = 4 then kop w else .scalar) with
      | .illegal => s.exception c 2 0
      | .scalar =>
        (match decodeScalar w len with
         | none => s.exception c 2 0
         | some i => s.scalarExec c len i)
      | _ => s
  else s

/-- SCALAR_INSTRUCTION (R111). -/
def execScalarInstruction (c : Nat) (s : State) : Host.Outcome State Fault Refusal :=
  guarded (coreOk c) (s.scalarStep c)

end Sys2Proof.Machine
end

