-- ==== Sys2Proof/Machine/Dispatch.lean ====
section
/-!
DEFINITION. The dispatch: one arm per command, each one call of its meaning.
-/
namespace Sys2Proof.Machine

def exec (i : Instr) (s : State) : Host.Outcome State Fault Refusal :=
  match i with
  | .hello m h => Sys2Proof.Machine.execHello m h s
  | .echo m h => Sys2Proof.Machine.execEcho m h s
  | .slLoad m h => Sys2Proof.Machine.execSlLoad m h s
  | .slCommit m h => Sys2Proof.Machine.execSlCommit m h s
  | .slDigest m h => Sys2Proof.Machine.execSlDigest m h s
  | .slRead m h => Sys2Proof.Machine.execSlRead m h s
  | .jobLoad m h => Sys2Proof.Machine.execJobLoad m h s
  | .heatGo m h => Sys2Proof.Machine.execHeatGo m h s
  | .jobStop m h => Sys2Proof.Machine.execJobStop m h s
  | .jobUnload m h => Sys2Proof.Machine.execJobUnload m h s
  | .jobReplace m h => Sys2Proof.Machine.execJobReplace m h s
  | .heatStatus m h => Sys2Proof.Machine.execHeatStatus m h s
  | .drillInstall m h => Sys2Proof.Machine.execDrillInstall m h s
  | .drillClear m h => Sys2Proof.Machine.execDrillClear m h s
  | .drillList m h => Sys2Proof.Machine.execDrillList m h s
  | .objAlloc m h => Sys2Proof.Machine.execObjAlloc m h s
  | .objFree m h => Sys2Proof.Machine.execObjFree m h s
  | .objQuery m h => Sys2Proof.Machine.execObjQuery m h s
  | .regionRead m h => Sys2Proof.Machine.execRegionRead m h s
  | .pwrBudget m h => Sys2Proof.Machine.execPwrBudget m h s
  | .pwrFloor m h => Sys2Proof.Machine.execPwrFloor m h s
  | .pwrPark m h => Sys2Proof.Machine.execPwrPark m h s
  | .pwrResume m h => Sys2Proof.Machine.execPwrResume m h s
  | .pwrCeiling m h => Sys2Proof.Machine.execPwrCeiling m h s
  | .pwrStatus m h => Sys2Proof.Machine.execPwrStatus m h s
  | .tlmSnapshot m h => Sys2Proof.Machine.execTlmSnapshot m h s
  | .tlmHeat m h => Sys2Proof.Machine.execTlmHeat m h s
  | .ledgerRead m h => Sys2Proof.Machine.execLedgerRead m h s
  | .ledgerLaps m h => Sys2Proof.Machine.execLedgerLaps m h s
  | .safeStatus m h => Sys2Proof.Machine.execSafeStatus m h s
  | .faultLog m h => Sys2Proof.Machine.execFaultLog m h s
  | .evtFilter m h => Sys2Proof.Machine.execEvtFilter m h s
  | .coolantReport m h => Sys2Proof.Machine.execCoolantReport m h s
  | .trayIdent m h => Sys2Proof.Machine.execTrayIdent m h s
  | .twinStatus m h => Sys2Proof.Machine.execTwinStatus m h s
  | .twinMap m h => Sys2Proof.Machine.execTwinMap m h s
  | .batonHost m h => Sys2Proof.Machine.execBatonHost m h s
  | .batonRestore m h => Sys2Proof.Machine.execBatonRestore m h s
  | .idKey m h => Sys2Proof.Machine.execIdKey m h s
  | .attest m h => Sys2Proof.Machine.execAttest m h s
  | .coreMap m h => Sys2Proof.Machine.execCoreMap m h s
  | .selftest m h => Sys2Proof.Machine.execSelftest m h s
  | .retireRead m h => Sys2Proof.Machine.execRetireRead m h s
  | .deferredCommandRun k h => Sys2Proof.Machine.execDeferredCommandRun k h s
  | .hubMbxDoorbell m v => Sys2Proof.Machine.execHubMbxDoorbell m v s
  | .hubMbxRspHead m v => Sys2Proof.Machine.execHubMbxRspHead m v s
  | .hubEvtHead ring v => Sys2Proof.Machine.execHubEvtHead ring v s
  | .hubTrayDoneHead v => Sys2Proof.Machine.execHubTrayDoneHead v s
  | .registerWrite ag a v => Sys2Proof.Machine.execRegisterWrite ag a v s
  | .hubTakeover pair => Sys2Proof.Machine.execHubTakeover pair s
  | .standbyLost pair => Sys2Proof.Machine.execStandbyLost pair s
  | .scalarInstruction c => Sys2Proof.Machine.execScalarInstruction c s
  | .acfg c => Sys2Proof.Machine.execAcfg c s
  | .lds c => Sys2Proof.Machine.execLds c s
  | .stream c => Sys2Proof.Machine.execStream c s
  | .headRelease c arr held => Sys2Proof.Machine.execHeadRelease c arr held s
  | .promote c => Sys2Proof.Machine.execPromote c s
  | .drain c => Sys2Proof.Machine.execDrain c s
  | .qstore c => Sys2Proof.Machine.execQstore c s
  | .await c => Sys2Proof.Machine.execAwait c s
  | .repeatTrap c => Sys2Proof.Machine.execRepeatTrap c s
  | .vadd c => Sys2Proof.Machine.execVadd c s
  | .vsub c => Sys2Proof.Machine.execVsub c s
  | .vmul c => Sys2Proof.Machine.execVmul c s
  | .vfma c => Sys2Proof.Machine.execVfma c s
  | .vmax c => Sys2Proof.Machine.execVmax c s
  | .vmin c => Sys2Proof.Machine.execVmin c s
  | .vmov c => Sys2Proof.Machine.execVmov c s
  | .vsel c => Sys2Proof.Machine.execVsel c s
  | .vabs c => Sys2Proof.Machine.execVabs c s
  | .vneg c => Sys2Proof.Machine.execVneg c s
  | .vexp c => Sys2Proof.Machine.execVexp c s
  | .vlog c => Sys2Proof.Machine.execVlog c s
  | .vrsqrt c => Sys2Proof.Machine.execVrsqrt c s
  | .vrcp c => Sys2Proof.Machine.execVrcp c s
  | .vclt c => Sys2Proof.Machine.execVclt c s
  | .vcle c => Sys2Proof.Machine.execVcle c s
  | .vceq c => Sys2Proof.Machine.execVceq c s
  | .mand c => Sys2Proof.Machine.execMand c s
  | .mor c => Sys2Proof.Machine.execMor c s
  | .mxor c => Sys2Proof.Machine.execMxor c s
  | .mnot c => Sys2Proof.Machine.execMnot c s
  | .mset c => Sys2Proof.Machine.execMset c s
  | .mtri c => Sys2Proof.Machine.execMtri c s
  | .mbox c => Sys2Proof.Machine.execMbox c s
  | .vrsumr c => Sys2Proof.Machine.execVrsumr c s
  | .vrmaxr c => Sys2Proof.Machine.execVrmaxr c s
  | .vrsumc c => Sys2Proof.Machine.execVrsumc c s
  | .vrmaxc c => Sys2Proof.Machine.execVrmaxc c s
  | .vamax c => Sys2Proof.Machine.execVamax c s
  | .vgetr c => Sys2Proof.Machine.execVgetr c s
  | .vgetc c => Sys2Proof.Machine.execVgetc c s
  | .vputr c => Sys2Proof.Machine.execVputr c s
  | .vputc c => Sys2Proof.Machine.execVputc c s
  | .vtrn c => Sys2Proof.Machine.execVtrn c s
  | .vdrop c => Sys2Proof.Machine.execVdrop c s
  | .vrand c => Sys2Proof.Machine.execVrand c s
  | .shq c => Sys2Proof.Machine.execShq c s
  | .shwait c => Sys2Proof.Machine.execShwait c s
  | .slvTake c => Sys2Proof.Machine.execSlvTake c s
  | .slvTurn c => Sys2Proof.Machine.execSlvTurn c s
  | .slvDone c => Sys2Proof.Machine.execSlvDone c s
  | .hrdArrive c => Sys2Proof.Machine.execHrdArrive c s
  | .hrdWait c => Sys2Proof.Machine.execHrdWait c s
  | .podHurdleComplete die pod slot => Sys2Proof.Machine.execPodHurdleComplete die pod slot s
  | .ksync c => Sys2Proof.Machine.execKsync c s
  | .sbTexp c => Sys2Proof.Machine.execSbTexp c s
  | .sbErrs c => Sys2Proof.Machine.execSbErrs c s
  | .sbRead c => Sys2Proof.Machine.execSbRead c s
  | .sbAmax c => Sys2Proof.Machine.execSbAmax c s
  | .coreRun c => Sys2Proof.Machine.execCoreRun c s
  | .coreStop c => Sys2Proof.Machine.execCoreStop c s
  | .corePark c park => Sys2Proof.Machine.execCorePark c park s
  | .podSlvTail p v => Sys2Proof.Machine.execPodSlvTail p v s
  | .edgGateLapclose v => Sys2Proof.Machine.execEdgGateLapclose v s
  | .edgGateFwdclose v => Sys2Proof.Machine.execEdgGateFwdclose v s
  | .edgPfMark v => Sys2Proof.Machine.execEdgPfMark v s
  | .prefetchFillDone k => Sys2Proof.Machine.execPrefetchFillDone k s
  | .poolGrant cl n pin => Sys2Proof.Machine.execPoolGrant cl n pin s
  | .gradientPathHomeRead k => Sys2Proof.Machine.execGradientPathHomeRead k s
  | .amaxReduction g peers => Sys2Proof.Machine.execAmaxReduction g peers s
  | .sweepPhaseStart => Sys2Proof.Machine.execSweepPhaseStart s
  | .sweepShardStart u => Sys2Proof.Machine.execSweepShardStart u s
  | .factorPass u => Sys2Proof.Machine.execFactorPass u s
  | .sweepBlock u => Sys2Proof.Machine.execSweepBlock u s
  | .scaleBookWrite => Sys2Proof.Machine.execScaleBookWrite s
  | .attemptStart => Sys2Proof.Machine.execAttemptStart s
  | .stashWalk => Sys2Proof.Machine.execStashWalk s
  | .heatVoid => Sys2Proof.Machine.execHeatVoid s
  | .rollbackDone => Sys2Proof.Machine.execRollbackDone s
  | .heatCommit => Sys2Proof.Machine.execHeatCommit s
  | .batonStream ok => Sys2Proof.Machine.execBatonStream ok s
  | .progressTimeout => Sys2Proof.Machine.execProgressTimeout s
  | .copy src retry fail => Sys2Proof.Machine.execCopy src retry fail s
  | .gather src retry fail => Sys2Proof.Machine.execGather src retry fail s
  | .scatter src retry fail => Sys2Proof.Machine.execScatter src retry fail s
  | .transpose src retry fail => Sys2Proof.Machine.execTranspose src retry fail s
  | .imm src retry fail => Sys2Proof.Machine.execImm src retry fail s
  | .completionRecordWrite q => Sys2Proof.Machine.execCompletionRecordWrite q s
  | .listPortFetch p lp => Sys2Proof.Machine.execListPortFetch p lp s
  | .podShuLpPush p lp v => Sys2Proof.Machine.execPodShuLpPush p lp v s
  | .edgBshGo e ch v => Sys2Proof.Machine.execEdgBshGo e ch v s
  | .shadowActivate e ch => Sys2Proof.Machine.execShadowActivate e ch s
  | .edgBshStop e ch => Sys2Proof.Machine.execEdgBshStop e ch s
  | .cqHead q v => Sys2Proof.Machine.execCqHead q v s
  | .cqEnable q v => Sys2Proof.Machine.execCqEnable q v s
  | .hbmScrub stack off met => Sys2Proof.Machine.execHbmScrub stack off met s
  | .portTrainStart p => Sys2Proof.Machine.execPortTrainStart p s
  | .pmdTrainDone p => Sys2Proof.Machine.execPmdTrainDone p s
  | .pcsLock p => Sys2Proof.Machine.execPcsLock p s
  | .trainStateTimeout p => Sys2Proof.Machine.execTrainStateTimeout p s
  | .trainFlit p f => Sys2Proof.Machine.execTrainFlit p f s
  | .dataFlit p f => Sys2Proof.Machine.execDataFlit p f s
  | .nullFlit p f => Sys2Proof.Machine.execNullFlit p f s
  | .keepalive p f => Sys2Proof.Machine.execKeepalive p f s
  | .keepaliveSend p => Sys2Proof.Machine.execKeepaliveSend p s
  | .creditFlitSend p => Sys2Proof.Machine.execCreditFlitSend p s
  | .replayTimeout p => Sys2Proof.Machine.execReplayTimeout p s
  | .silence p => Sys2Proof.Machine.execSilence p s
  | .ethFrame p f => Sys2Proof.Machine.execEthFrame p f s
  | .lnkRetrain p => Sys2Proof.Machine.execLnkRetrain p s
  | .lnkHoldDown p hold => Sys2Proof.Machine.execLnkHoldDown p hold s
  | .messageForward p vc => Sys2Proof.Machine.execMessageForward p vc s
  | .write p => Sys2Proof.Machine.execWrite p s
  | .readReq p => Sys2Proof.Machine.execReadReq p s
  | .readResp p => Sys2Proof.Machine.execReadResp p s
  | .atomicAdd p => Sys2Proof.Machine.execAtomicAdd p s
  | .atomicResp p => Sys2Proof.Machine.execAtomicResp p s
  | .writeAck p => Sys2Proof.Machine.execWriteAck p s
  | .collFrag p => Sys2Proof.Machine.execCollFrag p s
  | .hurdle p => Sys2Proof.Machine.execHurdle p s
  | .mail p => Sys2Proof.Machine.execMail p s
  | .mirror p => Sys2Proof.Machine.execMirror p s
  | .collectiveTrigger k => Sys2Proof.Machine.execCollectiveTrigger k s
  | .collectiveEnd k => Sys2Proof.Machine.execCollectiveEnd k s
  | .edgRlyKick e v => Sys2Proof.Machine.execEdgRlyKick e v s
  | .edgRlyRelease e v => Sys2Proof.Machine.execEdgRlyRelease e v s
  | .twinHelloTimeout => Sys2Proof.Machine.execTwinHelloTimeout s
  | .jogDigestPass idx group => Sys2Proof.Machine.execJogDigestPass idx group s
  | .powerSample uw pnc pcore => Sys2Proof.Machine.execPowerSample uw pnc pcore s
  | .opSlewDone => Sys2Proof.Machine.execOpSlewDone s
  | .floorLate => Sys2Proof.Machine.execFloorLate s
  | .leavingDone => Sys2Proof.Machine.execLeavingDone s
  | .staggerEnd => Sys2Proof.Machine.execStaggerEnd s
  | .longSliver c => Sys2Proof.Machine.execLongSliver c s
  | .podGateOff p => Sys2Proof.Machine.execPodGateOff p s
  | .wakeTokenReturn die => Sys2Proof.Machine.execWakeTokenReturn die s
  | .podTurnOn p => Sys2Proof.Machine.execPodTurnOn p s
  | .softStartDone p => Sys2Proof.Machine.execSoftStartDone p s
  | .wakeHoldN level => Sys2Proof.Machine.execWakeHoldN level s
  | .railSetpointWindow g mv sensor => Sys2Proof.Machine.execRailSetpointWindow g mv sensor s
  | .fastDroopStart g sensor mv => Sys2Proof.Machine.execFastDroopStart g sensor mv s
  | .fastDroopEnd skips => Sys2Proof.Machine.execFastDroopEnd skips s
  | .droopFloor g sensor mv => Sys2Proof.Machine.execDroopFloor g sensor mv s
  | .phaseLost g ph => Sys2Proof.Machine.execPhaseLost g ph s
  | .railOvercurrent g da => Sys2Proof.Machine.execRailOvercurrent g da s
  | .podOvercurrent p ma => Sys2Proof.Machine.execPodOvercurrent p ma s
  | .sliceLost p => Sys2Proof.Machine.execSliceLost p s
  | .podDark p => Sys2Proof.Machine.execPodDark p s
  | .crackMeasure p bin drop => Sys2Proof.Machine.execCrackMeasure p bin drop s
  | .edgRailMinvReset g => Sys2Proof.Machine.execEdgRailMinvReset g s
  | .inputUvWarn cv => Sys2Proof.Machine.execInputUvWarn cv s
  | .inputUvRecover cv => Sys2Proof.Machine.execInputUvRecover cv s
  | .inputTrip cv => Sys2Proof.Machine.execInputTrip cv s
  | .railBringUp cv => Sys2Proof.Machine.execRailBringUp cv s
  | .sensorReading hs ra rb fa fb => Sys2Proof.Machine.execSensorReading hs ra rb fa fb s
  | .thermalPeriod => Sys2Proof.Machine.execThermalPeriod s
  | .coolantStale => Sys2Proof.Machine.execCoolantStale s
  | .flowFailN level => Sys2Proof.Machine.execFlowFailN level s
  | .criticalTrip hs => Sys2Proof.Machine.execCriticalTrip hs s
  | .configCheck => Sys2Proof.Machine.execConfigCheck s
  | .pllUnlock => Sys2Proof.Machine.execPllUnlock s
  | .perstNAssert => Sys2Proof.Machine.execPerstNAssert s
  | .perstNRelease => Sys2Proof.Machine.execPerstNRelease s
  | .pcieLinkReset => Sys2Proof.Machine.execPcieLinkReset s
  | .d3hotEntry => Sys2Proof.Machine.execD3hotEntry s
  | .bar0Access off w len => Sys2Proof.Machine.execBar0Access off w len s
  | .bar2Access off w len => Sys2Proof.Machine.execBar2Access off w len s
  | .hostDmaFail a => Sys2Proof.Machine.execHostDmaFail a s
  | .msixHoldoffEnd vec => Sys2Proof.Machine.execMsixHoldoffEnd vec s
  | .bootGo => Sys2Proof.Machine.execBootGo s
  | .bootEnrol => Sys2Proof.Machine.execBootEnrol s
  | .selftestDone r => Sys2Proof.Machine.execSelftestDone r s
  | .selftestWindowExpiry => Sys2Proof.Machine.execSelftestWindowExpiry s
  | .i3cPrivateWrite off data => Sys2Proof.Machine.execI3cPrivateWrite off data s
  | .i3cPrivateRead off len => Sys2Proof.Machine.execI3cPrivateRead off len s
  | .setdasa addr => Sys2Proof.Machine.execSetdasa addr s
  | .entdaa addr => Sys2Proof.Machine.execEntdaa addr s
  | .rstdaa => Sys2Proof.Machine.execRstdaa s
  | .setmwl n => Sys2Proof.Machine.execSetmwl n s
  | .ibiEnable => Sys2Proof.Machine.execIbiEnable s
  | .ibiDisable => Sys2Proof.Machine.execIbiDisable s
  | .lossOfBlockLock p lane => Sys2Proof.Machine.execLossOfBlockLock p lane s
  | .podSlvCtrl p v => Sys2Proof.Machine.execPodSlvCtrl p v s
  | .returnToD0 => Sys2Proof.Machine.execReturnToD0 s
  | .busMasterEnable => Sys2Proof.Machine.execBusMasterEnable s
  | .bar2Resize lg => Sys2Proof.Machine.execBar2Resize lg s
  | .hbmTemperatureReadout stack t => Sys2Proof.Machine.execHbmTemperatureReadout stack t s
  | .previousLimitEnd p => Sys2Proof.Machine.execPreviousLimitEnd p s
  | .thermTripNClear cv => Sys2Proof.Machine.execThermTripNClear cv s
  | .syntheticArrayPass c arr products => Sys2Proof.Machine.execSyntheticArrayPass c arr products s

end Sys2Proof.Machine
end

