-- ==== Sys2Proof/Safety.lean ====
section
/-!
DEFINITION. The terms in which claims are stated: a safe step, a command that completes, a request that a mailbox
takes, a response that it writes, the canonical form of the memories.
-/
namespace Sys2Proof.Machine

/-- The step answers a next state, not a stop. -/
def SafeStep (s : State) : Prop := ∃ t, step s = .next t

/-- The command completes, and its next state is as told. -/
def Completes (c : Instr) (s : State) (p : State → Prop) : Prop := ∃ t, exec c s = .next t ∧ p t

/-- Every memory that a command can write is in its canonical form. -/
def State.memOk (s : State) : Prop :=
  Memory.wf s.mem = true ∧ Memory.wf s.hubMem = true ∧ Memory.wf s.hostMem = true

/-- Every command that waits is well formed. -/
def State.queueOk (s : State) : Prop := ∀ c ∈ s.pending, c.wf = true

/-- R380: the 64 bytes of the request at the head of mailbox `m`. -/
def State.headSlot (s : State) (m : Nat) : List Byte := Memory.readN s.hubMem (slotAt m (s.regN (mbxAt m + 4))) 64

/-- R386, R389: the request at the head of mailbox `m` is the one that is begun, names the opcode, and passes steps 1 to
10 as `r`, which leaves the state `u`. -/
def State.takes (s : State) (m : Nat) (h : HostDma) (op : Nat) (c : Cmd) (u : State) (r : Req) : Prop :=
  m < 11 ∧ s.mbxOpen = true ∧ s.nextBox = some m ∧ fld (s.headSlot m) 0 2 = op
    ∧ (s.beginReq m).accept m (s.regN (mbxAt m + 4)) c (s.headSlot m) h = (u, .ok r)

/-- R364: writes to host memory work. -/
def State.hostWrites (s : State) (h : HostDma) : Prop := h.write = true ∧ s.host.bme = true ∧ s.host.d3hot = false

/-- R381, R385: in `t` the request that stood at the head of mailbox `m` in `s` has its response: the slot with STATUS
and payload, the payload in host memory when it exceeds 32 bytes, RSP_TAIL one further. -/
def State.answers (s t : State) (m st : Nat) (body : List Byte) : Prop :=
  Memory.readN t.hubMem (slotAt m (s.regN (mbxAt m + 4)) + 0x4000) 64 = rspSlot (s.headSlot m) st body
    ∧ t.regN (mbxAt m + 8) = (s.regN (mbxAt m + 4) + 1) % 2 ^ 32
    ∧ (32 < body.length → Memory.readN t.hostMem (fld (s.headSlot m) 0x18 8) body.length = body)

/-- R111, R118: core `c` issues, and the instruction at its pc is the word `w` of the row `k`. -/
def State.atRow (s : State) (c : Nat) (k : KOp) (w : Nat) : Prop :=
  coreOk c = true ∧ s.issues c = true ∧ (∃ n, s.fetch c = some (w, n)) ∧ kop w = k

/-- R116, R117: the queue of unit `u` of core `c` (A0, A1, the vector engine) is empty, and the unit may run the instruction
`w` as the core issues it. -/
def State.unitTakes (s : State) (c u w : Nat) : Prop := s.unitQ c u = [] ∧ s.mayRun c u (s.qins c w) = true

/-- R126: core `c` issues the vector instruction `w` with VOP `op`, and the engine takes it at once. -/
def State.vecRow (s : State) (c op w : Nat) : Prop := s.atRow c (.vec op) w ∧ s.unitTakes c 2 w

/-- R121: core `c` issues the array instruction `w`, and its array takes it at once. -/
def State.arrRow (s : State) (c : Nat) (k : KOp) (w : Nat) : Prop := s.atRow c k w ∧ s.unitTakes c (iArr w) w

/-- R126, R128: element `i` of V takes its new value: with MEN set, as Config.vElem has it (log 20). -/
def State.vElemOn (s : State) (c w i : Nat) : Bool := !vMen w || Config.vElem ((s.core c).mask (vMk w)) i

/-- A core after an instruction of the kernel extension that writes `v` to register `rd` and changes nothing else. -/
def Core.after (k : Core) (rd : Nat) (v : Word) : Core :=
  { k.putX rd v with pc := k.pc + 4, retired := k.retired + 1, parked := false }

/-- Core `c` becomes `k` and runs; no other core changes; registers change only at CORE_STATE of `c` and in `l`; nothing else
but memory changes. -/
def State.coreGoes (s t : State) (c : Nat) (l : List Nat) (k : Core) : Prop :=
  t.core c = k ∧ (∀ j, j ≠ c → t.core j = s.core j) ∧ t.coreState c = 1
    ∧ (∀ a, a ≠ ctlAt c + 4 → a ∉ l → t.reg a = s.reg a)
    ∧ t = { s with cores := t.cores, regs := t.regs, mem := t.mem }

/-- R110: tile buffer `n` of core `c` holds the elements `f`; memory outside it is as before. -/
def State.tileGoes (s t : State) (c n : Nat) (f : Nat → Word) : Prop :=
  (∀ e, e < 1024 → (t.tile c n).getD e 0 = f e)
    ∧ ∀ a, a < tileBase c n ∨ tileBase c n + 4096 ≤ a → t.mem.read a = s.mem.read a

/-- R126, R127, R133: a vector instruction in tile form: each element of the destination that is on takes `f`, the others
stay; CORE_CNT_VLANE counts 1,024 lanes; the core runs on. -/
def State.vectorTile (s t : State) (c w : Nat) (f : Nat → Word) : Prop :=
  s.tileGoes t c (vTd w) (fun e => if s.vOn c w e then f e else (s.tile c (vTd w)).getD e 0)
    ∧ s.coreGoes t c [ctlAt c + 0x48, ctlAt c + 0x4C] ((s.core c).after 0 0)
    ∧ t.reg64 (ctlAt c + 0x48) = (s.reg64 (ctlAt c + 0x48) + 1024) % 2 ^ 64

/-- R109, R133: a vector instruction that leaves `k` as the core before it runs on, counts `n` lanes and writes no memory. -/
def State.vectorCore (s t : State) (c n : Nat) (k : Core) : Prop :=
  t.mem = s.mem ∧ s.coreGoes t c [ctlAt c + 0x48, ctlAt c + 0x4C] (k.after 0 0)
    ∧ t.reg64 (ctlAt c + 0x48) = (s.reg64 (ctlAt c + 0x48) + n) % 2 ^ 64

/-- R109: element `e` of mask register `m` of core `c`. -/
def State.maskBit (s : State) (c m e : Nat) : Bool := ((s.core c).mask m).getLsbD e

/-- R109, R128: the mask register that a vector instruction writes holds the bits `f`; the others stay. -/
def State.vectorMask (s t : State) (c w : Nat) (f : Nat → Bool) : Prop :=
  (∀ e, e < 1024 → t.maskBit c (vMk w) e = f e)
    ∧ (∀ m, m ≠ vMk w → (t.core c).mask m = (s.core c).mask m)
    ∧ s.vectorCore t c 1024 { s.core c with masks := (t.core c).masks }

/-- R412: a Grey event goes out (R9: a write that is ignored, R446: an access that is refused), and nothing else of the
device changes: no memory, no core, no register but those of the event rings. -/
def State.onlyGrey (s t : State) : Prop :=
  t.evt.grey = s.evt.grey + 1 ∧ t.mem = s.mem ∧ t.cores = s.cores ∧ ∀ b, 0x10B000 ≤ b → t.reg b = s.reg b

/-- R540, R548: in `t` a fault with a code, stamped now, has voided the attempt in progress. -/
def State.voidedBy (s t : State) (code : Nat) : Prop :=
  t.heat.voids ≠ [] ∧ ∃ v ∈ t.heat.voids, v.code = code ∧ v.tick = s.now

/-- Bytes outside a range of device memory are as before. -/
def State.keepsOutside (s t : State) (a n : Nat) : Prop := ∀ b, b < a ∨ a + n ≤ b → t.mem.read b = s.mem.read b

/-- R227: no eviction makes room for `n` units of client `c`, or the room holds no place for them. -/
def State.poolRefuses (s : State) (c n : Nat) : Prop :=
  ∀ ev, s.poolTrial c n = some ev → placeUnits c n (s.poolOpen c (s.pool.ents.filter fun e => !ev.contains e.id)) = none

/-- R227: once the entries `ev` have left, `us` are the units of a grant of `n` to client `c`. -/
def State.poolPlaces (s : State) (c n : Nat) (ev us : List Nat) : Prop :=
  placeUnits c n (s.poolOpen c (s.pool.ents.filter fun e => !ev.contains e.id)) = some us

/-- R227, R230: in `t` the entries `ev` have left the pool and `e` is new; the evictions are counted, FREE is exact. -/
def State.poolMakes (s t : State) (ev : List Nat) (e : PoolEnt) : Prop :=
  t.pool = { s.pool with ents := (s.pool.ents.filter fun x => !ev.contains x.id) ++ [{ e with id := s.pool.nextId }]
                         nextId := s.pool.nextId + 1 }
    ∧ t.regN (poolAt + 4) = t.poolFree ∧ t.reg (cliAt 0 + 0x10) = s.reg (cliAt 0 + 0x10) + BitVec.ofNat 32 ev.length

/-- Two ranges, address and length, share no byte. -/
def apart (p q : Nat × Nat) : Prop := p.1 + p.2 ≤ q.1 ∨ q.1 + q.2 ≤ p.1

/-- R190, R203: sweep units run: an attempt without a fault, not paused. -/
def State.unitRuns (s : State) : Bool := s.heat.running && s.heat.voids.isEmpty && !s.sweepPaused

/-- R190: unit `u` may begin a shard: the sweep has begun, it holds none, and is idle, waiting or done. -/
def State.unitFree (s : State) (u : Nat) : Bool :=
  s.unitRuns && s.heat.sweepBegun && (s.unit u).cur.isNone && [0, 1, 6].contains (s.unitState u)

/-- R195: in `t` unit `u` has stopped, and a fault with a code has voided the attempt. -/
def State.unitStops (s t : State) (u code : Nat) : Prop := t.unitState u = 7 ∧ s.voidedBy t code ∧ t.cores = s.cores

/-- R190, R210: in `t` unit `u` has begun shard `i`, with a STATE; the other units are as before. -/
def State.shardTaken (s t : State) (u i st : Nat) : Prop :=
  (t.unit u).cur = some i ∧ (∀ k, k ≠ u → t.unit k = s.unit k) ∧ t.regN (swpAt u + 4) = i % 2 ^ 32 ∧ t.unitState u = st

/-- R200, R201: the state, slot and cursor record of block `k` of shard `i` lie apart from the shard's entry; its weights from
its cursor record. -/
def State.blockApart (s : State) (u i k : Nat) : Prop :=
  (∀ r ∈ s.slotRange u 1 :: s.cursorRange i :: s.blockRanges i k false, apart r (s.shAddr i, 64))
    ∧ apart (s.shW i + 64 * k, 64) (s.cursorRange i)

/-- R195, R200, R207: unit 0 may read every scale-book entry, write a slot for each and the group's record; slots, book, record
and the tables that name them lie apart. -/
def State.bookClear (s : State) : Prop :=
  let n := s.jobF 0x20 3
  let w := s.edgeWorld 0
  let book := (s.sbAddr 0, 128 * n)
  let ring := s.slotRange 0 n
  let digest := (s.digestAddr s.idxCount 0, 32)
  (∀ t, t < n → s.checkRead w (s.sbAddr t) 128 = .ok) ∧ (∀ j, j < n → s.check w (ring.1 + 192 * j) 192 = .ok)
    ∧ s.check w digest.1 32 = .ok ∧ s.undoHead 0 + n ≤ 2 ^ 32
    ∧ (∀ r ∈ [book, ring], apart r (s.jobA 0x68, 64 * s.shardCount) ∧ apart r (s.job.batonTable, 64 * s.job.batonCount)
        ∧ apart r (s.jobA 0x78, 16))
    ∧ apart book ring ∧ apart book digest

/-- R179, R548: every slot and anchor of the attempt is released, and charges nothing. -/
def State.stashGone (s t : State) : Prop :=
  t.stash.slots.map (·.1) = s.stash.slots.map (·.1) ∧ (∀ p ∈ t.stash.slots, p.2.released = true) ∧ t.stash.charge = 0
    ∧ t.stash.resCharge = 0

/-- R244, R247: source `x` has the descriptor `a` in execution, which names no stash and no core-local side, converts
nothing and breaks no rule of R247; the gradient path has read no home; shuttles move data. -/
def State.movesPlain (s : State) (x : ShuSrc) (a : Desc) (op : Nat) : Prop :=
  x.wf = true ∧ (s.src x).active = some a ∧ (s.src x).waiting = [] ∧ s.shuttlesWait = false ∧ s.gates.homesRead = []
    ∧ dOp a.bytes = op ∧ dConv a.bytes = false ∧ bits (dCtrl a.bytes) 31 28 = 0 ∧ bit (dCtrl a.bytes) 7 = false
    ∧ a.verdict.getD 0 = 0
    ∧ dBad a.bytes (match x with | .bulk _ _ => true | .pod _ _ => false)
        (match x with | .pod _ n => decide (16 ≤ n) | .bulk _ _ => false) = false

/-- R221: source `x` may read `n` bytes of HBM at `a`, and they can be corrected. -/
def State.shuReads (s : State) (x : ShuSrc) (a n : Nat) : Prop :=
  a + n ≤ 0xA000000000 ∧ s.checkRead (s.srcWorld x) a n = .ok

/-- R221: source `x` may write `n` bytes of HBM at `a`. -/
def State.shuWrites (s : State) (x : ShuSrc) (a n : Nat) : Prop :=
  a + n ≤ 0xA000000000 ∧ s.check (s.srcWorld x) a n = .ok

/-- R258, R262, R264: the descriptor `a` of source `x` has ended OK after `n` destination bytes: the source is free, and the
record that waits for it has its outcome, with the reissues that its accesses can have. -/
def State.descEnds (s t : State) (x : ShuSrc) (a : Desc) (retry n : Nat) : Prop :=
  (t.src x).active = none ∧ t.heat = s.heat
    ∧ ∀ r ∈ s.recs (x.queue a.bytes), r.ticket = a.ticket → t.cores = s.cores
        ∧ ∃ q ∈ t.recs (x.queue a.bytes), q.ticket = a.ticket
          ∧ ∃ k, q.done = some (0, k, n) ∧ k ≤ retry ∧ (0 < n → retry ≤ 3 → k = retry)

/-- R302: a port goes down with a cause: its STATE, its cause, and its counter. -/
def State.goesDown (s t : State) (p cause : Nat) : Prop :=
  t.linkState p = 6 ∧ bits (t.regN (lnkAt p + 8)) 11 8 = cause ∧ t.reg (lnkAt p + 0x74) = s.reg (lnkAt p + 0x74) + 1
    ∧ (t.port p).inq = [] ∧ (t.port p).replay = [] ∧ t.mem = s.mem ∧ t.cores = s.cores

/-- R308, R312: the first message of a virtual channel of port `p`, and what its header says. -/
def State.headIs (s : State) (p vc : Nat) (m : Msg) : Prop :=
  p < 16 ∧ ∃ b, s.headMsg p vc = some b ∧ Msg.ofBytes b = m

/-- R294: in `t` the first message of a virtual channel of port `p` has left the receive buffers. -/
def State.popped (s t : State) (p vc : Nat) : Prop :=
  ∃ m, (s.port p).inq.find? (·.1 == vc) = some m ∧ (t.port p).inq = (s.port p).inq.erase m

/-- R286, R288, R294, R295: port `p` sends a message of a virtual channel at once. -/
def State.sendsAtOnce (s : State) (p vc : Nat) : Prop :=
  s.linkState p = 4 ∧ (s.port p).outq = [] ∧ (s.port p).tx = [] ∧ (s.port p).replay.length < 512 ∧ (s.port p).sinceCounts < 32
    ∧ s.keepDue p = false ∧ (s.port p).hole = none ∧ 0 < (s.port p).credit.getD vc 0 ∧ s.vcOpen vc = true
    ∧ (s.port p).seq < 4096

/-- R319, R320: what leaves port `p` when one flit is ready: the flit, or a frame with it. -/
def State.wireOut (s : State) (p : Nat) (f : List Byte) : List Byte := if 3 ≤ s.linkMode p then s.ethFrameOf p [f] else f

/-- R283: one more flit has left through port `p`: good, of a kind, and with these first payload bytes. -/
def State.flitLeaves (s t : State) (p kind : Nat) (payload : List Byte) : Prop :=
  ∃ f, t.wire = s.wire ++ [(p, s.wireOut p f)] ∧ f.length = 256 ∧ checkFlit f = .good ∧ fld f 0 1 % 8 = kind
    ∧ sub f 4 payload.length = payload

/-- R282, R319, R320: the first flit that has left through port `p` is `f`, bare or first in a frame of up to four. -/
def State.firstOut (s t : State) (p : Nat) (f : List Byte) : Prop :=
  (s.linkMode p < 3 → ∃ rest, t.wire = s.wire ++ (p, f) :: rest)
    ∧ (3 ≤ s.linkMode p → ∃ fs rest, fs.length ≤ 3 ∧ t.wire = s.wire ++ (p, s.ethFrameOf p (f :: fs)) :: rest)

/-- R280: in `t` the FEC decoder of port `p` has counted the codewords of flit `f`. -/
def State.fecCounts (s t : State) (p : Nat) (f : Flit) : Prop :=
  t.reg64 (lnkAt p + 0x58) = (s.reg64 (lnkAt p + 0x58) + f.corr) % 2 ^ 64
    ∧ t.reg (lnkAt p + 0x60) = s.reg (lnkAt p + 0x60) + BitVec.ofNat 32 f.uncorr

end Sys2Proof.Machine

/-- R398: the commands of mailbox class R. -/
def Sys2Proof.Instr.isReport : Sys2Proof.Instr → Bool
  | .hello _ _ | .echo _ _ | .slDigest _ _ | .slRead _ _ | .heatStatus _ _ | .drillList _ _ | .objQuery _ _
  | .regionRead _ _ | .pwrStatus _ _ | .tlmSnapshot _ _ | .tlmHeat _ _ | .ledgerRead _ _ | .ledgerLaps _ _
  | .safeStatus _ _ | .faultLog _ _ | .twinStatus _ _ | .idKey _ _ | .attest _ _ | .coreMap _ _ | .retireRead _ _ => true
  | _ => false
end

