-- ==== Sys2Proof/Certificates/Slice0/Obligations.lean ====
section
/-!
DEFINITION. The statements for the provers: what each command does, what it leaves, and what every step keeps.
-/

open Sys2Proof Sys2Proof.Machine

/-- R380, R389: the command at the front of the queue is the one that a step runs, on the state with the queue's rest;
whatever it answers is the step's outcome. -/
def Obligations.StepRunsFront : Prop :=
  ∀ (s : State) (c : Instr) (q : List Instr),
    step { s with pending := c :: q } = exec c { s with pending := q }

/-- Log 3, log 147 (DESIGN CHOICE): on an empty queue one T-tick passes: the tick counter rises by 1, wrapping, and one
free value is drawn; no core, no job, no heat, no memory byte and no event changes. Only what the spec ties to time moves:
an upset of a memory cell where Config.upset has one; the slew of the timebase (R301), which with no offset left makes a
tick of 14 X-cycles; the ports in training (R304); the In-Band Interrupts that are due (R582). -/
def Obligations.EmptyQueueTicks : Prop :=
  ∀ s : State, s.pending = [] →
    ∃ t, step s = .next t
      ∧ t = { s with now := s.now + 1, free := s.free + 1, soft := t.soft, badEcc := t.badEcc, time := t.time,
                     regs := t.regs, ports := t.ports, wire := t.wire, i3c := t.i3c }
      ∧ (Config.upset s.free = none → t.soft = s.soft ∧ t.badEcc = s.badEcc)
      ∧ (s.time.want = 0 → t.time = { s.time with len := 14 })
      ∧ ((∀ p, p < 16 → s.linkState p ≠ 3) → t.regs = s.regs ∧ t.ports = s.ports ∧ t.wire = s.wire)
      ∧ (s.i3c.due = [] → t.i3c = s.i3c)

/-- R11, R370, R546: what reset leaves: no command waits, no heat runs, no job is loaded, nothing is committed, memory
reads as 0 (log 2, DESIGN CHOICE), every core reads x0 to x31 and its pc as 0, every register reads its map's reset value,
HIF_STATE among them. -/
def Obligations.ResetLeaves : Prop :=
  State.reset.pending = [] ∧ State.reset.heat.active = false ∧ State.reset.heat.running = false
    ∧ State.reset.job.loaded = false ∧ State.reset.committed = false
    ∧ (∀ a n, State.reset.bytes a n = List.replicate n 0)
    ∧ (∀ a, State.reset.reg a = resetAt a)
    ∧ (∀ c r, State.reset.x c r = 0 ∧ (State.reset.core c).pc = 0)
    ∧ State.reset.reg 0 = 0x11 ∧ State.reset.reg 4 = 0 ∧ State.reset.reg 0x28 = 0x64

/-- R12 to R20, R242, R511: a command stops exactly when one of its operands names a unit that the device does not have;
no command is ever refused. -/
def Obligations.StopsExactlyOutsideTheDevice : Prop :=
  ∀ (c : Instr) (s : State),
    (c.wf = true → ∃ t, exec c s = .next t) ∧ (c.wf = false → exec c s = .fault .noSuchUnit)

/-- A queue of commands that name units of the device runs to its end: no step stops, no command is added, dropped or
reordered, and after as many steps as commands waited the queue is empty. -/
def Obligations.QueueRunsToItsEnd : Prop :=
  ∀ s : State, s.queueOk →
    (∀ t, step s = .next t → t.pending = s.pending.tail ∧ t.queueOk)
      ∧ ∃ t, Host.Core.run Sys2Proof.core s.pending.length s = .next t ∧ t.pending = []

/-- Every step keeps the canonical form of device memory, of the hub's SRAM and of host memory. -/
def Obligations.MemoryStaysCanonical : Prop :=
  ∀ s t : State, s.memOk → step s = .next t → t.memOk

/-- The canonical form holds at reset. -/
def Obligations.ResetMemoryCanonical : Prop :=
  State.reset.memOk

/-- R381, R385, R399, R401, R402, R403, R404, R405, R406: the reports whose payload fits the slot: HELLO, ECHO,
HEAT_STATUS, OBJ_QUERY, PWR_STATUS, TLM_SNAPSHOT, SAFE_STATUS, TWIN_STATUS, ID_KEY, once their request has passed its
checks. -/
def Obligations.ShortReportsAnswer : Prop :=
  ∀ (s u : State) (m : Nat) (h : HostDma) (r : Req),
    (s.takes m h 0 cmdHello u r → Completes (.hello m h) s fun t =>
      s.answers t m 0 (leBytes 4 (1 + 2 ^ 4 + Config.fwMinor.toNat * 2 ^ 8 + u.hif * 2 ^ 16)
        ++ leBytes 4 (u.regN (bootAt + 0x10)) ++ leBytes 4 (m + b2n (mbxWorld m == .sable) * 16) ++ leBytes 4 0))
    ∧ (s.takes m h 1 cmdEcho u r → r.data.length ≤ 32 → Completes (.echo m h) s fun t => s.answers t m 0 r.data)
    ∧ (s.takes m h 0x205 cmdHeatStatus u r → Completes (.heatStatus m h) s fun t =>
      s.answers t m 0 (leBytes 4 u.heat.num
        ++ leBytes 4 (u.heat.attempt % 256 + (if u.heat.running then u.phaseNow + 1 else 0) * 2 ^ 8
          + max u.heat.wideFwd u.heat.wideBwd % 4 * 2 ^ 11 + b2n u.heat.active * 2 ^ 13)
        ++ leBytes 4 u.heat.left ++ leBytes 4 u.heat.lastTick.toNat))
    ∧ (∀ o, s.takes m h 0x302 cmdObjQuery u r → u.objOf (r.f 0 4) = some o → (o.world = .sable → mbxWorld m = .sable) →
      Completes (.objQuery m h) s fun t =>
        s.answers t m 0 (leBytes 4 (o.flags + b2n (o.world == .sable) * 2 ^ 8) ++ leBytes 4 0 ++ leBytes 8 o.addr
          ++ leBytes 8 o.size))
    ∧ (s.takes m h 0x405 cmdPwrStatus u r → Completes (.pwrStatus m h) s fun t =>
      s.answers t m 0 (leBytes 2 (u.regN (railInAt + 4)) ++ leBytes 2 (u.regN (pwrAt + 4) / 2 ^ 16)
        ++ leBytes 4 (pstMode u.pst + b2n u.budgetMode * 4 + u.effOp * 8) ++ leBytes 4 (u.regN (pwrAt + 0x14) % 65536)
        ++ leBytes 4 (u.allCores.filter fun c => !u.parkBit c).length ++ leBytes 8 (u.reg64 (pwrAt + 0x40)) ++ leBytes 8 0))
    ∧ (s.takes m h 0x500 cmdTlmSnapshot u r → Completes (.tlmSnapshot m h) s fun t =>
      ∃ low, s.answers t m 0 (leBytes 2 (u.regN (railInAt + 4)) ++ leBytes 2 u.vcoreNow.1
        ++ leBytes 2 (u.regN thmAt % 4096) ++ leBytes 2 (u.regN (thmAt + 4)) ++ leBytes 4 low ++ leBytes 4 0
        ++ leBytes 8 s.now.toNat ++ leBytes 8 0) ∧ ∀ g < 16, low ≤ u.regN (railAt g + 0x1C) % 1024)
    ∧ (s.takes m h 0x600 cmdSafeStatus u r → Completes (.safeStatus m h) s fun t =>
      s.answers t m 0 (leBytes 4 (u.safState + u.regN (safAt u.actHub + 4) % 256 * 2 ^ 8) ++ leBytes 4 u.evt.lastCrimson
        ++ leBytes 4 u.evt.grey ++ leBytes 4 u.evt.ochre ++ leBytes 4 u.evt.crimson
        ++ leBytes 4 ((List.range 384).filter fun p => u.mapDark p || (u.pod p).dark).length
        ++ leBytes 4 ((List.range 384).filter fun p => (u.pod p).retired).length ++ leBytes 4 0))
    ∧ (s.takes m h 0x701 cmdTwinStatus u r → Completes (.twinStatus m h) s fun t =>
      s.answers t m 0 (leBytes 4 (u.twin.node + u.twin.pairing * 2 ^ 16) ++ leBytes 4 u.twin.batonHeat
        ++ leBytes 4 u.ownFeed ++ leBytes 4 (u.twin.peer.getD (u.twin.twinFeed, u.twin.twinTray)).1
        ++ leBytes 2 u.ownTray ++ leBytes 2 (u.twin.peer.getD (u.twin.twinFeed, u.twin.twinTray)).2
        ++ List.replicate 12 0))
    ∧ (∀ k, s.takes m h 0x800 cmdIdKey u r → u.boot.seed = some k → Completes (.idKey m h) s fun t =>
      s.answers t m 0 (edPublic k))

/-- R385, R400, R401, R402, R404, R405, R406: the reports whose payload goes to host memory: SL_DIGEST, SL_READ,
DRILL_LIST, REGION_READ, TLM_HEAT, LEDGER_READ, LEDGER_LAPS (whose values are free, log 37), FAULT_LOG, ATTEST, CORE_MAP,
RETIRE_READ, once their request has passed its checks and writes to host memory work. -/
def Obligations.LongReportsAnswer : Prop :=
  ∀ (s u : State) (m : Nat) (h : HostDma) (r : Req), u.hostWrites h →
    (s.takes m h 0x102 cmdSlDigest u r → u.committed = true → Completes (.slDigest m h) s fun t =>
      s.answers t m 0 (fit 64 u.digest))
    ∧ (s.takes m h 0x103 cmdSlRead u r → u.committed = true → Completes (.slRead m h) s fun t =>
      s.answers t m 0 (u.imageFor (mbxWorld m)))
    ∧ (s.takes m h 0x212 cmdDrillList u r → Completes (.drillList m h) s fun t =>
      s.answers t m 0 ((List.range 16).flatMap fun k => match Tab.get? u.drills k with
        | some img => sub img 8 4 ++ leBytes 4 (fld img 4 1 % 128 + 128)
        | none => List.replicate 8 0))
    ∧ (s.takes m h 0x303 cmdRegionRead u r → Completes (.regionRead m h) s fun t => s.answers t m 0 (fit 4096 u.regions))
    ∧ (∀ x, s.takes m h 0x501 cmdTlmHeat u r → u.recOfHeat (r.f 0 4) = some x →
      (x.world = .sable → mbxWorld m = .sable) → Completes (.tlmHeat m h) s fun t => s.answers t m 0 x.bytes)
    ∧ (∀ x, s.takes m h 0x502 cmdLedgerRead u r → u.ledgerOf (r.f 0 4) = some x →
      (x.world = .sable → mbxWorld m = .sable) → Completes (.ledgerRead m h) s fun t => s.answers t m 0 x.bytes)
    ∧ (∀ x, s.takes m h 0x503 cmdLedgerLaps u r → u.ledgerOf (r.f 0 4) = some x →
      (x.world = .sable → mbxWorld m = .sable) → Completes (.ledgerLaps m h) s fun t =>
        ∃ body, s.answers t m 0 body ∧ body.length = 8 * bits (r.f 4 4) 24 12)
    ∧ (s.takes m h 0x601 cmdFaultLog u r → u.evt.logCount - u.evt.log.length ≤ r.f 0 4 → r.f 0 4 < u.evt.logCount →
      Completes (.faultLog m h) s fun t =>
        s.answers t m 0 ((((u.evt.log.drop (r.f 0 4 - (u.evt.logCount - u.evt.log.length))).take (r.f 4 4)).zipIdx).flatMap
          fun x => x.1.bytes (r.f 0 4 + x.2) (mbxWorld m)))
    ∧ (∀ k, s.takes m h 0x801 cmdAttest u r → u.boot.seed = some k → Completes (.attest m h) s fun t =>
      s.answers t m 0 (u.report r.data ++ edSign k (u.report r.data)))
    ∧ (s.takes m h 0x802 cmdCoreMap u r → Completes (.coreMap m h) s fun t =>
      s.answers t m 0 ((List.range 384).flatMap fun p => leBytes 4 (Tab.get u.coreMap p 0).toNat))
    ∧ (s.takes m h 0x901 cmdRetireRead u r → Completes (.retireRead m h) s fun t =>
      s.answers t m 0 (leBytes 4 u.retired.length ++ leBytes 4 (u.retired.filter (·.kind == 1)).length ++ leBytes 8 0
        ++ u.retired.flatMap retBytes))

/-- R390, R391: a report changes nothing but the mailbox's own registers and rings, host memory, what an event or a vector
leaves, and the count of free values: no device memory, no job, no heat, no core, no power state. -/
def Obligations.ReportsChangeNothingElse : Prop :=
  ∀ (s t : State) (c : Instr), c.isReport = true → exec c s = .next t →
    t = { s with regs := t.regs, hubMem := t.hubMem, hostMem := t.hostMem, hub := t.hub, host := t.host, i3c := t.i3c,
                 evt := t.evt, free := t.free }
      ∧ (∀ a, 0x10B000 ≤ a → t.reg a = s.reg a)

/-- R390, R400, R401, R402, R405, R406, R556: the commands that act at once: SL_LOAD, HEAT_GO, JOB_UNLOAD, EVT_FILTER,
COOLANT_REPORT, TRAY_IDENT, BATON_HOST, TWIN_MAP, once their request has passed its checks and no command of its opcode
group waits: STATUS OK and their effect. R199, R402: OBJ_ALLOC of an HBM object, OBJ_FREE, DRILL_INSTALL and DRILL_CLEAR
act at once: a new object gets the lowest free slot and does not meet another one; a freed handle names no object; a
handle holds the image that was installed, or none. -/
def Obligations.ImmediateCommandsAct : Prop :=
  (∀ (s u : State) (m : Nat) (h : HostDma) (r : Req),
      (s.takes m h 0x100 cmdSlLoad u r → u.queued 0x100 cmdSlLoad = false → Completes (.slLoad m h) s fun t =>
        s.answers t m 0 [] ∧ t.boot.staged = some r.data)
      ∧ (s.takes m h 0x201 cmdHeatGo u r → u.queued 0x201 cmdHeatGo = false → u.job.world = mbxWorld m →
        u.heat.last ≠ some 0xFFFFFFFF → u.heat.attempt < 3 → u.twinReady = true → Completes (.heatGo m h) s fun t =>
          s.answers t m 0 [] ∧ t.heat = { u.heat with active := true, left := r.f 0 4, endless := (r.f 0 4 == 0),
                                                       stopping := false, stopNow := false, parkAsked := false })
      ∧ (s.takes m h 0x203 cmdJobUnload u r → u.queued 0x203 cmdJobUnload = false → u.job.world = mbxWorld m →
        Completes (.jobUnload m h) s fun t => s.answers t m 0 [] ∧ t.job.loaded = false ∧ t.pool.ents = [])
      ∧ (s.takes m h 0x602 cmdEvtFilter u r → u.queued 0x602 cmdEvtFilter = false → Completes (.evtFilter m h) s fun t =>
        s.answers t m 0 [] ∧ (mbxWorld m = .ivory → t.evt = { u.evt with filter0 := r.f 0 4 })
          ∧ (mbxWorld m = .sable → t.evt = { u.evt with filter1 := r.f 0 4 }))
      ∧ (s.takes m h 0x603 cmdCoolantReport u r → u.queued 0x603 cmdCoolantReport = false →
        Completes (.coolantReport m h) s fun t => s.answers t m 0 [] ∧ t.thm.report = some s.now)
      ∧ (s.takes m h 0x700 cmdTrayIdent u r → u.queued 0x700 cmdTrayIdent = false → Completes (.trayIdent m h) s fun t =>
        s.answers t m 0 [] ∧ t.twin.tray = some (r.f 0 4, r.f 4 2))
      ∧ (s.takes m h 0x702 cmdBatonHost u r → u.queued 0x702 cmdBatonHost = false → Completes (.batonHost m h) s fun t =>
        s.answers t m 0 [] ∧ t.twin.hostBuf = if r.f 8 8 = 0 then none else some (r.f 0 8, r.f 8 8))
      ∧ (s.takes m h 0x704 cmdTwinMap u r → u.queued 0x704 cmdTwinMap = false → u.job.world = mbxWorld m →
        u.shardCount + r.f 8 2 ≤ 65535 → (u.mapSet (r.f 0 6) (r.f 8 2)).mapBad = none → Completes (.twinMap m h) s fun t =>
          s.answers t m 0 [] ∧ t.job = { u.job with batonTable := r.f 0 6, batonCount := r.f 8 2 }))
  ∧ (∀ (s u : State) (m : Nat) (h : HostDma) (r : Req),
      (∀ k, s.takes m h 0x300 cmdObjAlloc u r → u.queued 0x300 cmdObjAlloc = false → bit (r.f 0 1) 0 = false →
        u.bulkFits (mbxWorld m) (r.f 0 1) (r.f 8 6) (r.f 0x10 8) = true → u.objSlot = some k →
        u.objMeets (r.f 8 6) (r.f 0x10 8) = false → Completes (.objAlloc m h) s fun t =>
          s.answers t m 0 (leBytes 4 (k + Tab.get u.hub.gens k 0 * 65536) ++ leBytes 4 0 ++ leBytes 8 (r.f 8 6))
            ∧ Tab.get? t.hub.objs k = some { flags := r.f 0 1, world := mbxWorld m, addr := r.f 8 6, size := r.f 0x10 8 }
            ∧ ∀ j, j ≠ k → Tab.get? t.hub.objs j = Tab.get? u.hub.objs j)
      ∧ (∀ o, s.takes m h 0x301 cmdObjFree u r → u.queued 0x301 cmdObjFree = false → u.objOf (r.f 0 4) = some o →
        o.world = mbxWorld m → (∀ a ∈ u.usedAddrs, ¬(o.addr ≤ a ∧ a < o.addr + o.size)) → Completes (.objFree m h) s fun t =>
          s.answers t m 0 [] ∧ t.objOf (r.f 0 4) = none)
      ∧ (s.takes m h 0x210 cmdDrillInstall u r → u.queued 0x210 cmdDrillInstall = false → u.heat.active = false →
        Completes (.drillInstall m h) s fun t =>
          s.answers t m 0 [] ∧ Tab.get? t.drills (r.f 0 1 % 16) = some (sub r.data 8 336)
            ∧ ∀ k, k ≠ r.f 0 1 % 16 → Tab.get? t.drills k = Tab.get? u.drills k)
      ∧ (s.takes m h 0x211 cmdDrillClear u r → u.queued 0x211 cmdDrillClear = false → u.job.loaded = false →
        Completes (.drillClear m h) s fun t =>
          s.answers t m 0 [] ∧ Tab.get? t.drills (r.f 0 4 % 16) = none
            ∧ ∀ k, k ≠ r.f 0 4 % 16 → Tab.get? t.drills k = Tab.get? u.drills k))

/-- R390, R391: the deferred commands: SL_COMMIT, JOB_LOAD, JOB_STOP, JOB_REPLACE, PWR_BUDGET, PWR_FLOOR, PWR_PARK,
PWR_RESUME, PWR_CEILING, BATON_RESTORE, SELFTEST are answered ACCEPTED, and their request, with its payload and TAG, is
the last of the deferred ones; DEFER of the mailbox is set. R390, R401, R424: DEFERRED_COMMAND_RUN at the place of a
deferred command whose turn has come and whose conditions hold: a JOB_LOAD whose descriptor passes leaves its job loaded
with FIRST_HEAT as the heat number; a JOB_STOP without NOW stops the job after the next commit; a SELFTEST starts
self-test. -/
def Obligations.DeferredCommandsAct : Prop :=
  (∀ (s u : State) (m : Nat) (h : HostDma) (r : Req) (i : Instr) (op : Nat) (c : Cmd),
      (i, op, c) ∈ [(Instr.slCommit m h, 0x101, cmdSlCommit), (.jobLoad m h, 0x200, cmdJobLoad),
        (.jobStop m h, 0x202, cmdJobStop), (.jobReplace m h, 0x204, cmdJobReplace), (.pwrBudget m h, 0x400, cmdPwrBudget),
        (.pwrFloor m h, 0x401, cmdPwrFloor), (.pwrPark m h, 0x402, cmdPwrPark), (.pwrResume m h, 0x403, cmdPwrResume),
        (.pwrCeiling m h, 0x404, cmdPwrCeiling), (.batonRestore m h, 0x703, cmdBatonRestore),
        (.selftest m h, 0x900, cmdSelftest)] →
      s.takes m h op c u r → Completes i s fun t =>
        s.answers t m 1 []
          ∧ (∃ d, t.hub.deferred.getLast? = some d ∧ d.op = op ∧ d.mbx = m ∧ d.payload = r.data ∧ d.tag = r.tag
              ∧ d.begun = false ∧ d.boxes.contains m = true)
          ∧ bit (t.regN (mbxAt m + 0x10)) 1 = true)
  ∧ (∀ (s : State) (i : Nat) (d : Deferred) (h : HostDma), s.hub.deferred[i]? = some d → s.turnOf i d = true →
      (d.op = 0x200 → s.stateCheck d.mbx d.op cmdJobLoad = none →
        (s.deferBegin d).jobCheck (mbxWorld d.mbx) d.payload = none → Completes (.deferredCommandRun i h) s fun t =>
          t.job.loaded = true ∧ t.job.desc = d.payload ∧ t.job.world = mbxWorld d.mbx ∧ t.heat.num = fld d.payload 0 4
            ∧ t.heat.active = false ∧ ¬ d ∈ t.hub.deferred)
      ∧ (d.op = 0x202 → s.stateCheck d.mbx d.op cmdJobStop = none → s.job.world = mbxWorld d.mbx → s.heat.active = true →
        bit (fld d.payload 0 4) 0 = false → Completes (.deferredCommandRun i h) s fun t =>
          t.heat = { s.heat with stopping := true } ∧ t.mem = s.mem ∧ t.regs = s.regs)
      ∧ (d.op = 0x900 → s.stateCheck d.mbx d.op cmdSelftest = none → Completes (.deferredCommandRun i h) s fun t =>
          t.boot.testing = true ∧ t.boot.handback = (if d.payload.isEmpty then [] else retEntries d.payload)))

/-- R379, R381, R411, R392: the writes that move a ring's index: HUB_MBX_DOORBELL accepts a tail within 256 of REQ_HEAD
that does not go back, HUB_MBX_RSP_HEAD a head that does not pass RSP_TAIL, HUB_EVT_HEAD a head that does not pass TAIL,
HUB_TRAY_DONE_HEAD a head that does not pass the tray ring's tail; nothing in device memory changes. R379, R381, R412: a
doorbell more than 256 ahead of REQ_HEAD and a response head that passes RSP_TAIL change no index: their bit of
HUB_MBX_FAULT is set and a Grey REG_IGNORED goes out. -/
def Obligations.RingIndexWritesAct : Prop :=
  (∀ (s : State) (m : Nat) (v : Word) (w : World),
      (m < 11 → v ≠ BitVec.ofNat 32 (s.bellTail m) → (v - s.reg (mbxAt m + 4)).toNat ≤ 256 →
        (BitVec.ofNat 32 (s.bellTail m) - s.reg (mbxAt m + 4)).toNat ≤ (v - s.reg (mbxAt m + 4)).toNat →
        Completes (.hubMbxDoorbell m v) s fun t =>
          t.bellTail m = v.toNat ∧ (∀ k, k ≠ m → t.bellTail k = s.bellTail k) ∧ t = { s with hub := t.hub })
      ∧ (m < 11 → (v - s.reg (mbxAt m + 0xC)).toNat ≤ (s.reg (mbxAt m + 8) - s.reg (mbxAt m + 0xC)).toNat →
        Completes (.hubMbxRspHead m v) s fun t =>
          t.reg (mbxAt m + 0xC) = v ∧ (∀ a, a ≠ mbxAt m + 0xC → t.reg a = s.reg a) ∧ t = { s with regs := t.regs })
      ∧ ((v - s.reg (ringPage w + 0x44)).toNat ≤ (s.reg (ringPage w + 0x40) - s.reg (ringPage w + 0x44)).toNat →
        Completes (.hubEvtHead w v) s fun t => t.reg (ringPage w + 0x44) = v ∧ t.mem = s.mem ∧ t.cores = s.cores)
      ∧ ((v - BitVec.ofNat 32 s.hub.trayHead).toNat ≤ s.hub.trayTail - s.hub.trayHead → Completes (.hubTrayDoneHead v) s fun t =>
          t.hub.trayHead = s.hub.trayHead + (v - BitVec.ofNat 32 s.hub.trayHead).toNat ∧ t.mem = s.mem ∧ t.regs = s.regs))
  ∧ (∀ (s : State) (m : Nat) (v : Word), m < 10 →
      (v ≠ BitVec.ofNat 32 (s.bellTail m) → 256 < (v - s.reg (mbxAt m + 4)).toNat → Completes (.hubMbxDoorbell m v) s fun t =>
        t.bellTail m = s.bellTail m ∧ bit (t.regN (mbxAt m + 0x14)) 0 = true ∧ t.evt.grey = s.evt.grey + 1)
      ∧ ((s.reg (mbxAt m + 8) - s.reg (mbxAt m + 0xC)).toNat < (v - s.reg (mbxAt m + 0xC)).toNat →
        Completes (.hubMbxRspHead m v) s fun t =>
          t.reg (mbxAt m + 0xC) = s.reg (mbxAt m + 0xC) ∧ bit (t.regN (mbxAt m + 0x14)) 1 = true
            ∧ t.evt.grey = s.evt.grey + 1))

/-- R128, R129: VADD, VSUB, VMUL, VFMA, VMAX, VMIN and VMOV in tile form, element by element; operand B as BC names it
(R126). R128, R131: VABS, VNEG, VEXP, VLOG, VRSQRT and VRCP in tile form, and VSEL and VTRN. R126, R128: the V form (VR =
1) of VADD to VMOV and of VABS to VRCP: all 32 elements of V, operand B the scalar register RS; no memory is written. With
MEN set, which elements take their value is free (log 20, DESIGN CHOICE); the others stay. -/
def Obligations.VectorTilesAndForms : Prop :=
  (∀ (s : State) (c w : Nat), vVr w = false →
      (s.vecRow c 0 w → Completes (.vadd c) s fun t =>
        s.vectorTile t c w fun e => fadd ((s.tile c (vTa w)).getD e 0) (s.vB c w (s.tile c (vTb w)) e))
      ∧ (s.vecRow c 1 w → Completes (.vsub c) s fun t =>
        s.vectorTile t c w fun e => fsub ((s.tile c (vTa w)).getD e 0) (s.vB c w (s.tile c (vTb w)) e))
      ∧ (s.vecRow c 2 w → Completes (.vmul c) s fun t =>
        s.vectorTile t c w fun e => fmul ((s.tile c (vTa w)).getD e 0) (s.vB c w (s.tile c (vTb w)) e))
      ∧ (s.vecRow c 3 w → Completes (.vfma c) s fun t =>
        s.vectorTile t c w fun e =>
          ffma ((s.tile c (vTa w)).getD e 0) (s.vB c w (s.tile c (vTb w)) e) ((s.tile c (vTd w)).getD e 0))
      ∧ (s.vecRow c 4 w → Completes (.vmax c) s fun t =>
        s.vectorTile t c w fun e => fmax ((s.tile c (vTa w)).getD e 0) (s.vB c w (s.tile c (vTb w)) e))
      ∧ (s.vecRow c 5 w → Completes (.vmin c) s fun t =>
        s.vectorTile t c w fun e => fmin ((s.tile c (vTa w)).getD e 0) (s.vB c w (s.tile c (vTb w)) e))
      ∧ (s.vecRow c 6 w → Completes (.vmov c) s fun t =>
        s.vectorTile t c w fun e => s.vB c w (s.tile c (vTb w)) e))
  ∧ (∀ (s : State) (c w : Nat),
      (vVr w = false →
        (s.vecRow c 8 w → Completes (.vabs c) s fun t =>
          s.vectorTile t c w fun e => fabs ((s.tile c (vTa w)).getD e 0))
        ∧ (s.vecRow c 9 w → Completes (.vneg c) s fun t =>
          s.vectorTile t c w fun e => fneg ((s.tile c (vTa w)).getD e 0))
        ∧ (s.vecRow c 0xA w → Completes (.vexp c) s fun t =>
          s.vectorTile t c w fun e => vexp ((s.tile c (vTa w)).getD e 0))
        ∧ (s.vecRow c 0xB w → Completes (.vlog c) s fun t =>
          s.vectorTile t c w fun e => vlog ((s.tile c (vTa w)).getD e 0))
        ∧ (s.vecRow c 0xC w → Completes (.vrsqrt c) s fun t =>
          s.vectorTile t c w fun e => vrsqrt ((s.tile c (vTa w)).getD e 0))
        ∧ (s.vecRow c 0xD w → Completes (.vrcp c) s fun t =>
          s.vectorTile t c w fun e => vrcp ((s.tile c (vTa w)).getD e 0)))
      ∧ (s.vecRow c 7 w → Completes (.vsel c) s fun t =>
        s.vectorTile t c w fun e =>
          if s.maskBit c (vMk w) e then (s.tile c (vTa w)).getD e 0 else s.vB c w (s.tile c (vTb w)) e)
      ∧ (s.vecRow c 0x2C w → Completes (.vtrn c) s fun t =>
        s.vectorTile t c w fun e => (s.tile c (vTa w)).getD (32 * (e % 32) + e / 32) 0))
  ∧ (∀ (s : State) (c w : Nat), vVr w = true →
      (∀ i op, (i, op) ∈ [(Instr.vadd c, 0), (.vsub c, 1), (.vmul c, 2), (.vfma c, 3), (.vmax c, 4), (.vmin c, 5), (.vmov c, 6)] →
        s.vecRow c op w → Completes i s fun t =>
          s.vectorCore t c 32 { s.core c with
            v := (List.range 32).map fun i =>
              if s.vElemOn c w i then vBin op ((s.core c).vAt i) (s.x c (vRs w)) ((s.core c).vAt i) else (s.core c).vAt i })
      ∧ ∀ i op, (i, op) ∈ [(Instr.vabs c, 8), (.vneg c, 9), (.vexp c, 0xA), (.vlog c, 0xB), (.vrsqrt c, 0xC), (.vrcp c, 0xD)] →
        s.vecRow c op w → Completes i s fun t =>
          s.vectorCore t c 32 { s.core c with
            v := (List.range 32).map fun i => if s.vElemOn c w i then vUn op ((s.core c).vAt i) else (s.core c).vAt i })

/-- R128: VCLT, VCLE, VCEQ, MAND, MOR, MXOR, MNOT, MSET, MTRI and MBOX write the mask register MK bit by bit. -/
def Obligations.MaskOperations : Prop :=
  ∀ (s : State) (c w : Nat),
    (s.vecRow c 0x10 w → Completes (.vclt c) s fun t => s.vectorMask t c w fun e =>
      flt ((s.tile c (vTa w)).getD e 0) (s.vB c w (s.tile c (vTb w)) e))
    ∧ (s.vecRow c 0x11 w → Completes (.vcle c) s fun t => s.vectorMask t c w fun e =>
      fle ((s.tile c (vTa w)).getD e 0) (s.vB c w (s.tile c (vTb w)) e))
    ∧ (s.vecRow c 0x12 w → Completes (.vceq c) s fun t => s.vectorMask t c w fun e =>
      feq ((s.tile c (vTa w)).getD e 0) (s.vB c w (s.tile c (vTb w)) e))
    ∧ (s.vecRow c 0x18 w → Completes (.mand c) s fun t => s.vectorMask t c w fun e =>
      s.maskBit c (vMk w) e && s.maskBit c (vRs w % 16) e)
    ∧ (s.vecRow c 0x19 w → Completes (.mor c) s fun t => s.vectorMask t c w fun e =>
      s.maskBit c (vMk w) e || s.maskBit c (vRs w % 16) e)
    ∧ (s.vecRow c 0x1A w → Completes (.mxor c) s fun t => s.vectorMask t c w fun e =>
      xor (s.maskBit c (vMk w) e) (s.maskBit c (vRs w % 16) e))
    ∧ (s.vecRow c 0x1B w → Completes (.mnot c) s fun t => s.vectorMask t c w fun e => !s.maskBit c (vRs w % 16) e)
    ∧ (s.vecRow c 0x1C w → Completes (.mset c) s fun t => s.vectorMask t c w fun _ => true)
    ∧ (s.vecRow c 0x1D w → Completes (.mtri c) s fun t => s.vectorMask t c w fun e =>
      decide (((e % 32 : Nat) : Int) ≤ ((e / 32 : Nat) : Int) + (s.x c (vRs w)).toInt))
    ∧ (s.vecRow c 0x1E w → Completes (.mbox c) s fun t => s.vectorMask t c w fun e =>
      decide (e / 32 < (s.x c (vRs w)).toNat % 64 ∧ e % 32 < (s.x c (vRs w)).toNat / 256 % 64))

/-- R128, R130: VRSUMR, VRMAXR, VRSUMC and VRMAXC leave the 32 reductions in V, a masked element as the neutral one; VGETR
and VGETC bring a row or column of TA to V (with MEN set to free elements, log 20); VPUTR and VPUTC put V into one of TD.
R70, R132: VDROP keeps an element when its random word lies below x[RS]; VRAND writes the upper 24 bits of its random word
times 2^−24; both draw the words of R68 from the job's seed, CORE_HEAT and the core's coordinate registers. -/
def Obligations.VectorRowsAndRandom : Prop :=
  (∀ (s : State) (c w : Nat),
      (∀ i op (rows : Bool) (f : Word → Word → Word) (z : Word),
        (i, op, rows, f, z) ∈ [(Instr.vrsumr c, 0x20, true, fadd, (0 : Word)), (.vrmaxr c, 0x21, true, fmax, 0xFF800000),
          (.vrsumc c, 0x22, false, fadd, 0), (.vrmaxc c, 0x23, false, fmax, 0xFF800000)] →
        s.vecRow c op w → Completes i s fun t =>
          s.vectorCore t c 1024 { s.core c with
            v := (List.range 32).map fun r => tree32 f ((List.range 32).map fun j =>
              if s.vOn c w (if rows then 32 * r + j else 32 * j + r) then
                (s.tile c (vTa w)).getD (if rows then 32 * r + j else 32 * j + r) 0 else z) })
      ∧ (s.vecRow c 0x28 w → Completes (.vgetr c) s fun t =>
        s.vectorCore t c 32 { s.core c with
          v := (List.range 32).map fun j =>
            if s.vElemOn c w j then (s.tile c (vTa w)).getD (32 * ((s.x c (vRs w)).toNat % 32) + j) 0 else (s.core c).vAt j })
      ∧ (s.vecRow c 0x29 w → Completes (.vgetc c) s fun t =>
        s.vectorCore t c 32 { s.core c with
          v := (List.range 32).map fun j =>
            if s.vElemOn c w j then (s.tile c (vTa w)).getD (32 * j + (s.x c (vRs w)).toNat % 32) 0 else (s.core c).vAt j })
      ∧ (s.vecRow c 0x2A w → Completes (.vputr c) s fun t =>
        s.vectorTile t c w fun e =>
          if e / 32 = (s.x c (vRs w)).toNat % 32 then (s.core c).vAt (e % 32) else (s.tile c (vTd w)).getD e 0)
      ∧ (s.vecRow c 0x2B w → Completes (.vputc c) s fun t =>
        s.vectorTile t c w fun e =>
          if e % 32 = (s.x c (vRs w)).toNat % 32 then (s.core c).vAt (e / 32) else (s.tile c (vTd w)).getD e 0))
  ∧ (∀ (s : State) (c w : Nat),
      (s.vecRow c 0x30 w → Completes (.vdrop c) s fun t => s.vectorMask t c w fun e =>
        decide (s.vRandom c 2 0 e < (s.x c (vRs w)).toNat))
      ∧ (s.vecRow c 0x31 w → Completes (.vrand c) s fun t => s.vectorTile t c w fun e =>
        (FVal.fin false (s.vRandom c 3 (s.regN (ctlAt c + 0x34) / 2 ^ 12 % 256) e / 256) (-24)).toF32))

/-- R60, R63, R139: the scale book from a core: SB_TEXP, SB_ERRS and SB_READ bring an entry's field to rd; SB_AMAX and
VAMAX raise AMAX_CUR; each where R63 admits the entry. R63, R141: a scale-book instruction on an entry that R63 forbids
halts the core with cause 26 and, in an attempt, voids it: the pc, the cause and the core's state say so; rd is not
written; what waited in the core's queues is discarded. -/
def Obligations.ScaleBookInstructions : Prop :=
  (∀ (s : State) (c w : Nat),
      (s.atRow c .sbTexp w → s.sbOk (s.x c (iRs1 w)).toNat = true → Completes (.sbTexp c) s fun t =>
        t.mem = s.mem ∧ s.coreGoes t c [] ((s.core c).after (iRd w) (BitVec.ofInt 32 (s.bookTexp (s.x c (iRs1 w)).toNat))))
      ∧ (s.atRow c .sbErrs w → s.sbOk (s.x c (iRs1 w)).toNat = true → Completes (.sbErrs c) s fun t =>
        t.mem = s.mem ∧ s.coreGoes t c [] ((s.core c).after (iRd w) (s.bookErr (s.x c (iRs1 w)).toNat)))
      ∧ (s.atRow c .sbRead w → s.sbOk (s.x c (iRs1 w)).toNat = true → (s.x c (iRs2 w)).toNat ≤ 0x7C →
        (s.x c (iRs2 w)).toNat % 4 = 0 → Completes (.sbRead c) s fun t =>
          t.mem = s.mem ∧ s.coreGoes t c []
            ((s.core c).after (iRd w) (BitVec.ofNat 32 (s.word (s.sbAddr (s.x c (iRs1 w)).toNat + (s.x c (iRs2 w)).toNat) 4))))
      ∧ (s.atRow c .sbAmax w → s.sbOk (s.x c (iRs1 w)).toNat = true → Completes (.sbAmax c) s fun t =>
        t.mem = (s.sbAmax (s.x c (iRs1 w)).toNat [f32Val (s.x c (iRs2 w))]).mem ∧ t.core c = (s.core c).after 0 0)
      ∧ (s.vecRow c 0x24 w → s.sbOk (s.x c (vRs w)).toNat = true → Completes (.vamax c) s fun t =>
        t.mem = (s.sbAmax (s.x c (vRs w)).toNat ((List.range 1024).filterMap fun e =>
          if s.vOn c w e then some (f32Val ((s.tile c (vTa w)).getD e 0)) else none)).mem
          ∧ t.core c = (s.core c).after 0 0))
  ∧ (∀ (s : State) (c w : Nat),
      (∀ i k, (i, k) ∈ [(Instr.sbTexp c, KOp.sbTexp), (.sbErrs c, .sbErrs), (.sbAmax c, .sbAmax)] →
        s.atRow c k w → s.sbOk (s.x c (iRs1 w)).toNat = false → Completes i s fun t =>
          t.coreState c = 3 ∧ t.regN (ctlAt c + 0x10) = 26 ∧ t.reg (ctlAt c + 0x14) = (s.core c).pc ∧ t.core c = (s.core c).discard
            ∧ t.mem = s.mem ∧ (s.heat.running = true → ∃ v ∈ t.heat.voids, v.code = 0x0210 ∧ v.source = c ∧ v.tick = s.now)))

/-- R136, R137, R148: KSYNC and SLV.DONE go on once the units of their mask have finished and no array of it starves at
the head; SLV.TURN once the done bit is set; SHWAIT once CORE_SHU_DONE has reached x[rs1]. R135, R137, R148: KSYNC,
SLV.DONE, SLV.TURN and SHWAIT whose condition does not hold wait: CORE_STATE 2, the pc and every register of every core as
before. R96, R140: a KSYNC or SLV.DONE on an array whose token finds no operand halts the core with cause 25. -/
def Obligations.WaitingRowsAct : Prop :=
  (∀ (s : State) (c w : Nat),
      (s.atRow c .ksync w → (bit (iRs2 w) 0 && (s.arr c 0).starved || bit (iRs2 w) 1 && (s.arr c 1).starved) = false →
        s.synced c (iRs2 w) = true → Completes (.ksync c) s fun t => t.mem = s.mem ∧ s.coreGoes t c [] ((s.core c).after 0 0))
      ∧ (s.atRow c .slvDone w → (s.arr c 0).starved = false → (s.arr c 1).starved = false → s.synced c 0x1F = true →
        Completes (.slvDone c) s fun t =>
          t.doneBit (corePod c) (s.x c (iRs1 w)).toNat = true
            ∧ t.core c = ({ s.core c with inSliver := false } : Core).after 0 0 ∧ t.coreState c = 1 ∧ t.mem = s.mem
            ∧ ∀ p, p ≠ corePod c → t.pod p = s.pod p)
      ∧ (s.atRow c .slvTurn w → s.doneBit (corePod c) (s.x c (iRs1 w)).toNat = true → Completes (.slvTurn c) s fun t =>
          t.mem = s.mem ∧ s.coreGoes t c [] ((s.core c).after 0 0))
      ∧ (s.atRow c .shwait w → (s.reg (ctlAt c + 0x2C) - s.x c (iRs1 w)).toNat < 2 ^ 31 → Completes (.shwait c) s fun t =>
          t.mem = s.mem ∧ s.coreGoes t c [] ((s.core c).after 0 0)))
  ∧ (∀ (s : State) (c w : Nat),
      (s.atRow c .ksync w → (bit (iRs2 w) 0 && (s.arr c 0).starved || bit (iRs2 w) 1 && (s.arr c 1).starved) = false →
        s.synced c (iRs2 w) = false → Completes (.ksync c) s fun t => t = s.setCoreState c 2)
      ∧ (s.atRow c .ksync w → (bit (iRs2 w) 0 && (s.arr c 0).starved || bit (iRs2 w) 1 && (s.arr c 1).starved) = true →
        Completes (.ksync c) s fun t => t.coreState c = 3 ∧ t.regN (ctlAt c + 0x10) = 25 ∧ t.mem = s.mem)
      ∧ (s.atRow c .slvDone w → (s.arr c 0).starved = false → (s.arr c 1).starved = false → s.synced c 0x1F = false →
        Completes (.slvDone c) s fun t => t = s.setCoreState c 2)
      ∧ (s.atRow c .slvDone w → ((s.arr c 0).starved || (s.arr c 1).starved) = true →
        Completes (.slvDone c) s fun t => t.coreState c = 3 ∧ t.regN (ctlAt c + 0x10) = 25 ∧ t.mem = s.mem)
      ∧ (s.atRow c .slvTurn w → s.doneBit (corePod c) (s.x c (iRs1 w)).toNat = false → Completes (.slvTurn c) s fun t =>
          t = s.setCoreState c 2)
      ∧ (s.atRow c .shwait w → 2 ^ 31 ≤ (s.reg (ctlAt c + 0x2C) - s.x c (iRs1 w)).toNat → Completes (.shwait c) s fun t =>
          t = s.setCoreState c 2))

/-- R147: SLV.TAKE completes in each of its cases. Under PARK the core stops at the instruction; a bad record halts it
with cause 27; while the attempt is held it waits; the record at the picked position gives x10 to x13 its arguments, x14
its lap and x15 its index, then rd 0 (log 140, DESIGN CHOICE: for rd among x10 to x15 the 0 stands), the sliver index and
the repeat step are set, and the position counts as taken; with no record it waits on an open queue, and on a closed one
rd is 1. R136, R116, R117, R268: SHQ completes in each of its cases. A descriptor that is not 64-byte aligned or lies
outside operand SRAM and pod SRAM halts the core with cause 29; with four descriptors in the port queue, or an earlier
instruction that still uses a tile buffer of the descriptor, it waits; else it issues: CORE_SHU_ISSUED counts one more,
the ticket is the device's next, and rd is the new CORE_SHU_ISSUED. An uncorrectable word in the descriptor halts the core
with cause 29 (log 147, DESIGN CHOICE). -/
def Obligations.SliverTakeAndShq : Prop :=
  (∀ (s : State) (c w : Nat), s.atRow c .slvTake w →
      (s.parkBit c = true → Completes (.slvTake c) s fun t =>
        t.coreState c = 0 ∧ t.core c = { s.core c with parked := true } ∧ t.mem = s.mem ∧ ∀ k, k ≠ c → t.core k = s.core k)
      ∧ (s.parkBit c = false → bit (s.regN (slvAt (corePod c) + 0x14)) 0 = true → Completes (.slvTake c) s fun t =>
        t.coreState c = 3 ∧ t.regN (ctlAt c + 0x10) = 27 ∧ t.core c = (s.core c).discard ∧ t.mem = s.mem)
      ∧ (s.parkBit c = false → bit (s.regN (slvAt (corePod c) + 0x14)) 0 = false →
        (s.heat.held = true → Completes (.slvTake c) s fun t => t = s.setCoreState c 2)
        ∧ (s.heat.held = false →
          (∀ pos, s.slvPick c = some pos → Completes (.slvTake c) s fun t =>
            (∀ r, t.x c r = if r = 0 ∨ r = iRd w then 0
                else if 10 ≤ r ∧ r ≤ 13 then BitVec.ofNat 32 (s.word (s.slvRec (corePod c) pos + 0x10 + 4 * (r - 10)) 4)
                else if r = 14 then BitVec.ofNat 32 (s.word (s.slvRec (corePod c) pos + 4) 4 % 2 ^ 15)
                else if r = 15 then BitVec.ofNat 32 (s.word (s.slvRec (corePod c) pos) 4) else s.x c r)
              ∧ (t.core c).inSliver = true ∧ (t.core c).pc = (s.core c).pc + 4 ∧ t.coreState c = 1
              ∧ t.reg (ctlAt c + 0x20) = BitVec.ofNat 32 (s.word (s.slvRec (corePod c) pos) 4) ∧ t.regN (ctlAt c + 0x24) = 0
              ∧ t.mem = s.mem ∧ ∀ k, k ≠ c → t.core k = s.core k)
          ∧ (s.slvPick c = none → bit (s.regN (slvAt (corePod c) + 0x10)) 0 = false → Completes (.slvTake c) s fun t =>
            t.mem = s.mem ∧ s.coreGoes t c [] ((s.core c).after (iRd w) 1))
          ∧ (s.slvPick c = none → bit (s.regN (slvAt (corePod c) + 0x10)) 0 = true → Completes (.slvTake c) s fun t =>
            t = s.setCoreState c 2))))
  ∧ (∀ (s : State) (c w : Nat), s.atRow c .shq w →
      let a := (s.x c (iRs1 w)).toNat
      let ok := a % 64 = 0 ∧ (a + 64 ≤ 0x60000 ∨ 0x1000000 ≤ a ∧ a + 64 ≤ 0x1400000)
      let room := (s.src (.pod (corePod c) (c % 16))).waiting.length < 4
      let free := (s.core c).clear (s.core c).seq (dTiles (s.bytes (localAddr c a) 64) false)
        (dTiles (s.bytes (localAddr c a) 64) true) = true
      (ok → room → s.eccBad (localAddr c a) 64 = false → free → Completes (.shq c) s fun t =>
        t.ticket = s.ticket + 1 ∧ (t.core c).pc = (s.core c).pc + 4 ∧ t.coreState c = 1
          ∧ (iRd w ≠ 0 → t.x c (iRd w) = t.reg (ctlAt c + 0x28)) ∧ (∀ r, r ≠ iRd w → t.x c r = s.x c r)
          ∧ t.reg (ctlAt c + 0x28) = s.reg (ctlAt c + 0x28) + 1)
      ∧ (¬ok → Completes (.shq c) s fun t =>
        t.coreState c = 3 ∧ t.regN (ctlAt c + 0x10) = 29 ∧ t.reg (ctlAt c + 0x18) = s.x c (iRs1 w)
          ∧ t.core c = (s.core c).discard ∧ t.mem = s.mem ∧ t.ticket = s.ticket)
      ∧ (ok → (¬room ∨ s.eccBad (localAddr c a) 64 = false ∧ ¬free) → Completes (.shq c) s fun t => t = s.setCoreState c 2)
      ∧ (ok → room → s.eccBad (localAddr c a) 64 = true → Completes (.shq c) s fun t =>
        t.coreState c = 3 ∧ t.regN (ctlAt c + 0x10) = 29 ∧ t.core c = (s.core c).discard ∧ t.mem = s.mem
          ∧ t.ticket = s.ticket))

/-- R138, R349: HRD.ARRIVE at a legal ID joins its slot once per completion, and the core goes on; a pod hurdle's slot
then names the core; HRD.WAIT goes on once the hurdle has completed since the core's arrival, and waits before;
POD_HURDLE_COMPLETE frees a slot exactly when every core that it needs has arrived. R138, R141, R348, R349: an illegal
hurdle ID, an arrival twice before the completion, an arrival at a USER entry that does not exist or beyond its LOCAL, and
a wait without an arrival, halt the core with cause 28; what waited in its queues is discarded. -/
def Obligations.PodHurdlesWork : Prop :=
  (∀ (s : State) (c w : Nat),
      (s.atRow c .hrdArrive w → hrdIdOk (s.x c (iRs1 w)).toNat = true → s.hrdBad (s.x c (iRs1 w)).toNat = false →
        Tab.get? (s.core c).arrived (s.x c (iRs1 w)).toNat ≠ some (s.hrdDone c (s.x c (iRs1 w)).toNat) →
        Completes (.hrdArrive c) s fun t =>
          Tab.get? (t.core c).arrived (s.x c (iRs1 w)).toNat = some (s.hrdDone c (s.x c (iRs1 w)).toNat)
            ∧ (t.core c).pc = (s.core c).pc + 4 ∧ t.coreState c = 1 ∧ t.mem = s.mem
            ∧ ((s.x c (iRs1 w)).toNat < 16 →
              (Tab.get (t.pod (corePod c)).hurdles (s.x c (iRs1 w)).toNat {}).arrived
                  = (Tab.get (s.pod (corePod c)).hurdles (s.x c (iRs1 w)).toNat {}).arrived ++ [c]
                ∧ t.hrdDone c (s.x c (iRs1 w)).toNat = s.hrdDone c (s.x c (iRs1 w)).toNat))
      ∧ (∀ n, s.atRow c .hrdWait w → hrdIdOk (s.x c (iRs1 w)).toNat = true →
        Tab.get? (s.core c).arrived (s.x c (iRs1 w)).toNat = some n → Completes (.hrdWait c) s fun t =>
          (n ≠ s.hrdDone c (s.x c (iRs1 w)).toNat → t.mem = s.mem ∧ s.coreGoes t c [] ((s.core c).after 0 0))
            ∧ (n = s.hrdDone c (s.x c (iRs1 w)).toNat → t = s.setCoreState c 2))
      ∧ (∀ die pod slot, die < 32 → pod < 12 → slot < 16 → s.hrdNeed die (some pod) ≠ [] →
        Completes (.podHurdleComplete die (some pod) slot) s fun t =>
          ((∀ k ∈ s.hrdNeed die (some pod), k ∈ (Tab.get (s.pod (12 * die + pod)).hurdles slot {}).arrived) →
            Tab.get (t.pod (12 * die + pod)).hurdles slot {}
              = { arrived := [], done := (Tab.get (s.pod (12 * die + pod)).hurdles slot {}).done + 1 })
            ∧ ((∃ k ∈ s.hrdNeed die (some pod), k ∉ (Tab.get (s.pod (12 * die + pod)).hurdles slot {}).arrived) →
              Tab.get (t.pod (12 * die + pod)).hurdles slot {} = Tab.get (s.pod (12 * die + pod)).hurdles slot {})))
  ∧ (∀ (s : State) (c w : Nat),
      (s.atRow c .hrdArrive w →
        (hrdIdOk (s.x c (iRs1 w)).toNat = false ∨ s.hrdBad (s.x c (iRs1 w)).toNat = true
          ∨ Tab.get? (s.core c).arrived (s.x c (iRs1 w)).toNat = some (s.hrdDone c (s.x c (iRs1 w)).toNat)) →
        Completes (.hrdArrive c) s fun t =>
          t.coreState c = 3 ∧ t.regN (ctlAt c + 0x10) = 28 ∧ t.core c = (s.core c).discard ∧ t.mem = s.mem ∧ t.pods = s.pods)
      ∧ (s.atRow c .hrdWait w →
        (hrdIdOk (s.x c (iRs1 w)).toNat = false ∨ Tab.get? (s.core c).arrived (s.x c (iRs1 w)).toNat = none) →
        Completes (.hrdWait c) s fun t =>
          t.coreState c = 3 ∧ t.regN (ctlAt c + 0x10) = 28 ∧ t.core c = (s.core c).discard ∧ t.mem = s.mem))

/-- R111: the scalar rows that write one register: LUI, AUIPC, JAL, JALR, the integer operations with a register or an
immediate, the M extension, FENCE, reads of the hart ID, of misa, of the instruction counter and of the tick; a branch
goes to its target when its condition holds and writes nothing; ECALL and EBREAK halt the core with causes 11 and 3. -/
def Obligations.ScalarInstructions : Prop :=
  ∀ (s : State) (c w len : Nat) (i : SOp), coreOk c = true → s.issues c = true → s.fetch c = some (w, len) →
    (len = 4 → kop w = .scalar) → decodeScalar w len = some i → Completes (.scalarInstruction c) s fun t =>
      let pc := (s.core c).pc
      let next := pc + BitVec.ofNat 32 len
      let goes := fun (rd : Nat) (v to_ : Word) =>
        t.mem = s.mem ∧ s.coreGoes t c [] { (s.core c).putX rd v with
          pc := to_, retired := (s.core c).retired + 1, parked := false }
      (∀ rd imm, i = .lui rd imm → goes rd imm next)
        ∧ (∀ rd imm, i = .auipc rd imm → goes rd (pc + imm) next)
        ∧ (∀ rd off, i = .jal rd off → goes rd next (pc + off))
        ∧ (∀ rd r imm, i = .jalr rd r imm → goes rd next ((s.x c r + imm) &&& 0xFFFFFFFE))
        ∧ (∀ f a b off, i = .branch f a b off →
            goes 0 0 (if branchTaken f (s.x c a) (s.x c b) then pc + off else next))
        ∧ (∀ f alt rd r imm, i = .aluImm f alt rd r imm → goes rd (aluOp f alt (s.x c r) imm) next)
        ∧ (∀ f alt rd a b, i = .alu f alt rd a b → goes rd (aluOp f alt (s.x c a) (s.x c b)) next)
        ∧ (∀ f rd a b, i = .mulDiv f rd a b → goes rd (mulDivOp f (s.x c a) (s.x c b)) next)
        ∧ (i = .fence → goes 0 0 next)
        ∧ (∀ f rd num v, i = .csr f rd 0 num → f % 4 ≠ 1 →
            (num, v) ∈ [(0xF14, BitVec.ofNat 32 c), (0x301, 0x40001104), (0xB02, (s.core c).retired.extractLsb' 0 32),
              (0xB82, (s.core c).retired.extractLsb' 32 32), (0xC01, s.now.extractLsb' 0 32),
              (0xC81, s.now.extractLsb' 32 32)] → goes rd v next)
        ∧ (∀ e, (i, e) ∈ [(SOp.ecall, 11), (.ebreak, 3)] →
            t.coreState c = 3 ∧ t.regN (ctlAt c + 0x10) = e ∧ t.core c = (s.core c).discard ∧ t.mem = s.mem)

/-- R111, R113, R114, R117: scalar loads and stores in the core's own memory: a load brings the bytes, sign-extended for
LB and LH; a store outside instruction memory writes exactly its bytes; both wait (CORE_STATE 2) while an earlier-issued
instruction still uses the tile buffer; a misaligned one halts the core with cause 4 or 6, a store to instruction memory
with cause 7, and nothing is written. R114, R120: a fetch outside instruction memory halts the core with cause 1, a word
that is no instruction with cause 2. -/
def Obligations.ScalarMemory : Prop :=
  (∀ (s : State) (c w len : Nat) (f r rd rv : Nat) (imm : Word), coreOk c = true → s.issues c = true →
    s.fetch c = some (w, len) → (len = 4 → kop w = .scalar) →
    let a := (s.x c r + imm).toNat
    let n := accSize f
    (decodeScalar w len = some (.load f rd r imm) → a % n = 0 → s.place (coreBase c + a) = .coreMem c → a < 0x100000 →
      (s.localClear c a n false = true → s.eccBad (coreBase c + a) n = false → Completes (.scalarInstruction c) s fun t =>
        t.mem = s.mem ∧ (rd ≠ 0 → t.x c rd = loadExt f (s.word (coreBase c + a) n)) ∧ (∀ q, q ≠ rd → t.x c q = s.x c q)
          ∧ (t.core c).pc = (s.core c).pc + BitVec.ofNat 32 len)
      ∧ (s.localClear c a n false = false → Completes (.scalarInstruction c) s fun t => t = s.setCoreState c 2))
    ∧ (decodeScalar w len = some (.store f r rv imm) → a % n = 0 → s.place (coreBase c + a) = .coreMem c → a < 0x100000 →
      (¬(0xA0000 ≤ a ∧ a < 0xA8000) →
        (s.localClear c a n true = true → Completes (.scalarInstruction c) s fun t =>
          t.bytes (coreBase c + a) n = leBytes n (s.x c rv).toNat
            ∧ (∀ b, b < coreBase c + a ∨ coreBase c + a + n ≤ b → t.mem.read b = s.mem.read b)
            ∧ (∀ q, t.x c q = s.x c q) ∧ (t.core c).pc = (s.core c).pc + BitVec.ofNat 32 len)
        ∧ (s.localClear c a n true = false → Completes (.scalarInstruction c) s fun t => t = s.setCoreState c 2))
      ∧ (0xA0000 ≤ a ∧ a < 0xA8000 → Completes (.scalarInstruction c) s fun t =>
        t.coreState c = 3 ∧ t.regN (ctlAt c + 0x10) = 7 ∧ t.reg (ctlAt c + 0x18) = s.x c r + imm ∧ t.mem = s.mem))
    ∧ (∀ i e, (i, e) ∈ [(SOp.load f rd r imm, 4), (.store f r rv imm, 6)] → decodeScalar w len = some i → a % n ≠ 0 →
      Completes (.scalarInstruction c) s fun t =>
        t.coreState c = 3 ∧ t.regN (ctlAt c + 0x10) = e ∧ t.reg (ctlAt c + 0x18) = s.x c r + imm
          ∧ t.core c = (s.core c).discard ∧ t.mem = s.mem))
  ∧ (∀ (s : State) (c : Nat), coreOk c = true → s.issues c = true →
    (s.fetch c = none → Completes (.scalarInstruction c) s fun t =>
      t.coreState c = 3 ∧ t.regN (ctlAt c + 0x10) = 1 ∧ t.reg (ctlAt c + 0x18) = (s.core c).pc ∧ t.mem = s.mem)
    ∧ (∀ w len, s.fetch c = some (w, len) → (len = 4 → kop w = .scalar ∨ kop w = .illegal) →
      (len = 4 ∧ kop w = .illegal ∨ decodeScalar w len = none) → Completes (.scalarInstruction c) s fun t =>
        t.coreState c = 3 ∧ t.regN (ctlAt c + 0x10) = 2 ∧ t.mem = s.mem))

/-- R122, R88: ACFG sets the low 14 bits of ARR_CTRL from rs1 and leaves WIDE; PROMOTE sets the promotion interval and
with CLEAR the named bank to +0; AWAIT brings ARR_STATUS to rd once its array has nothing in flight or queued, and waits
before. R93, R94, R106: HEAD_RELEASE of a core with nothing queued, with a complete on-deck set and a token at the head:
the token's wavefront accumulates into its row of its bank, then the sets swap; CNT_STALL counts the cycles of holding.
R96: a token that finds no operand and no LDS on its way halts the core with cause 25 at its STREAM's pc. R99, R142:
REPEAT_TRAP of a core that no exception halted restarts the sliver: x and pc as at SLV.TAKE, the repeat step one further,
the bank that trapped cleared; R101: in an attempt a tile with no wider format left voids it. -/
def Obligations.ArrayControl : Prop :=
  (∀ (s : State) (c w : Nat),
      (s.arrRow c .acfg w → Completes (.acfg c) s fun t =>
        t.regN (arrAt c (iArr w)) % 2 ^ 14 = (s.x c (iRs1 w)).toNat % 2 ^ 14
          ∧ t.regN (arrAt c (iArr w)) / 2 ^ 14 = s.regN (arrAt c (iArr w)) / 2 ^ 14
          ∧ t.mem = s.mem ∧ s.coreGoes t c [arrAt c (iArr w)] ((s.core c).after 0 0))
      ∧ (s.arrRow c .promote w → bit w 30 = false → Completes (.promote c) s fun t =>
        t.regN (arrAt c (iArr w)) % 4 = bits w 26 25 ∧ t.regN (arrAt c (iArr w)) / 4 = s.regN (arrAt c (iArr w)) / 4
          ∧ t.mem = s.mem ∧ s.coreGoes t c [arrAt c (iArr w)] ((s.core c).after 0 0))
      ∧ (s.arrRow c .promote w → bit w 30 = true → Completes (.promote c) s fun t =>
        ((t.arr c (iArr w)).bank (bits w 29 29)) = {} ∧ (t.core c).pc = (s.core c).pc + 4 ∧ t.mem = s.mem
          ∧ t.regN (arrAt c (iArr w) + 0xC) / 16 ^ bits w 29 29 % 16 = 0)
      ∧ (s.atRow c .await w → (s.arr c (iArr w)).starved = false →
        ((s.arr c (iArr w)).idle = true → Completes (.await c) s fun t =>
          t.mem = s.mem ∧ s.coreGoes t c [] ((s.core c).after (iRd w) (s.reg (arrAt c (iArr w) + 8))))
        ∧ ((s.arr c (iArr w)).idle = false → Completes (.await c) s fun t => t = s.setCoreState c 2)))
  ∧ (∀ (s : State) (c : Nat), coreOk c = true → s.coreExists c = true → s.runBit c = true →
      (∀ a n k, a < 2 → (s.arr c a).tok = some k → (s.arr c a).onDeck.valid = true → (∀ u, u < 3 → s.unitQ c u = []) →
        Completes (.headRelease c a n) s fun t =>
          (t.arr c a).active = (s.arr c a).onDeck ∧ (t.arr c a).onDeck.valid = false ∧ (t.arr c a).headWait = false
            ∧ t.reg64 (arrAt c a + 0x38) = (s.reg64 (arrAt c a + 0x38) + n) % 2 ^ 64 ∧ t.mem = s.mem
            ∧ (∀ e, e < 1024 → ((t.arr c a).bank k.bank).acc.getD e 0 =
                if e / 32 = k.row ∧ e % 32 < (s.arr c a).active.cols then
                  (wavefront k.fmt (s.arr c a).active.fmt k.promo k.scale
                    ((s.arr c a).active.scales.getD
                      (e % 32 * (s.arr c a).active.depth + ((s.arr c a).active.depth - 1)) 0)
                    (((s.arr c a).bank k.bank).acc.getD e 0, {})
                    (k.codes.zip ((List.range 32).map fun q => (s.arr c a).active.elems.getD
                      ((e % 32 * (s.arr c a).active.depth + ((s.arr c a).active.depth - 1)) * 32 + q) 0))).1
                else ((s.arr c a).bank k.bank).acc.getD e 0)
            ∧ ∀ b, b < 2 → k.bank < 2 → b ≠ k.bank → (t.arr c a).bank b = (s.arr c a).bank b)
      ∧ (∀ a n k, a < 2 → (s.arr c a).tok = some k → (s.arr c a).starved = true → s.coreState c ≠ 3 →
        Completes (.headRelease c a n) s fun t =>
          t.coreState c = 3 ∧ t.regN (ctlAt c + 0x10) = 25 ∧ t.reg (ctlAt c + 0x14) = k.pc ∧ t.mem = s.mem)
      ∧ (∀ q, (s.core c).trap = some q → s.coreState c ≠ 3 → q.arr < 2 → Completes (.repeatTrap c) s fun t =>
        (t.core c).x = (s.core c).snap ∧ (t.core c).pc = (s.core c).snapPc ∧ (t.core c).trap = none
          ∧ (t.core c).repeated = true ∧ t.coreState c = 1
          ∧ t.regN (ctlAt c + 0x24) = (s.regN (ctlAt c + 0x24) + 1) % 8 ∧ t.mem = s.mem
          ∧ (t.arr c 0).active.valid = false ∧ (t.arr c 1).active.valid = false
          ∧ (∀ b, q.bank = some b → (t.arr c q.arr).bank b = {})
          ∧ (q.last = true → s.heat.running = true → s.voidedBy t 0x0216)))

/-- R81, R92, R122: LDS of a legal, aligned image fills the on-deck set. R76, R93 to R95: a STREAM whose first set is
there runs; here in the plain form: its pass accumulates into the bank of ARR_CTRL with that set, without the token's
wavefront where HANDOFF meets an empty on-deck set; HANDOFF swaps the sets, or holds the token at the head. A STREAM whose
first set has not come waits at the head, and the core goes on. R124: a STREAM that fails its checks halts the core at its
own pc and changes no set. No form of them writes memory. R116, R117, R155: an array or vector instruction whose unit does
not take it at once joins the unit's queue of 8, and the core goes on; with the queue full the core waits (CORE_STATE 2).
R96, R140: a full queue behind a head whose token finds no operand and no LDS halts the core with cause 25, handoff empty.
-/
def Obligations.ArrayLoadAndStream : Prop :=
  (∀ (s : State) (c w : Nat),
      let a := iArr w
      let r := s.arr c a
      let st := r.nextSet
      let od := if r.swapsFirst then ({} : StatSet) else r.onDeck
      let b := bits (s.arrCtrl c a) 13 13
      (s.arrRow c .lds w → passIllegal (s.namedPair c a) (iRd w + 1) (bit (s.arrCtrl c a) 10) = false →
        (s.x c (iRs1 w)).toNat % 128 = 0 →
        (s.x c (iRs1 w)).toNat + imageBytes (s.namedPair c a).2 ((bits w 30 26 + 1) * (iRd w + 1)) ≤ 0x60000 →
        s.bookFault (s.namedPair c a).2 (s.x c (iRs2 w)).toNat = false → Completes (.lds c) s fun t =>
          (t.arr c a).onDeck = s.loadSet c a (s.x c (iRs1 w)).toNat (s.x c (iRs2 w)).toNat (bits w 30 26 + 1) (iRd w + 1)
            ∧ (t.arr c a).active = r.active ∧ (t.core c).pc = (s.core c).pc + 4 ∧ t.mem = s.mem)
      ∧ (s.arrRow c .stream w → (r.swapsFirst = true → r.onDeck.valid = true) →
        bit (s.arrCtrl c a) 10 = false → tileAt (s.x c (iRs1 w)).toNat = none →
        passIllegal ((s.namedPair c a).1, st.named) st.depth false = false →
        pairOk ((s.pairInForce c a).1, st.fmt) = true → (s.x c (iRs1 w)).toNat % 8 = 0 →
        (s.x c (iRs1 w)).toNat + imageBytes (s.namedPair c a).1 ((iRd w + 1) * st.depth) ≤ 0x60000 →
        s.bookFault (s.namedPair c a).1 ((s.x c (iRs2 w)).toNat % 2 ^ 24) = false → Completes (.stream c) s fun t =>
          ((t.arr c a).bank b).acc
              = (passWaves (r.bank b).acc
                  (s.movePlain c a (s.x c (iRs1 w)).toNat ((s.x c (iRs2 w)).toNat % 2 ^ 24) (iRd w + 1) st.depth none) st
                  ((iRd w + 1) * st.depth - b2n (bit w 30 && !od.valid)) (4 * 2 ^ (s.arrCtrl c a % 4))).map (fun x => x.1)
            ∧ (bit w 30 = false → (t.arr c a).active = st ∧ (t.arr c a).onDeck = od ∧ (t.arr c a).headWait = false)
            ∧ (bit w 30 = true → od.valid = true →
              (t.arr c a).active = od ∧ (t.arr c a).onDeck.valid = false ∧ (t.arr c a).headWait = false)
            ∧ (bit w 30 = true → od.valid = false → (t.arr c a).active = st ∧ (t.arr c a).headWait = true)
            ∧ (t.core c).pc = (s.core c).pc + 4 ∧ t.mem = s.mem)
      ∧ (s.arrRow c .stream w → r.swapsFirst = true → r.onDeck.valid = false → Completes (.stream c) s fun t =>
        (t.arr c a).held = some { q := s.qins c w, ctrl := s.arrCtrl c a } ∧ (t.arr c a).active = r.active
          ∧ (t.arr c a).onDeck = r.onDeck ∧ (t.core c).pc = (s.core c).pc + 4 ∧ t.mem = s.mem)
      ∧ (∀ e, s.arrRow c .stream w → (r.swapsFirst = true → r.onDeck.valid = true) →
        s.streamBad c a { q := s.qins c w, ctrl := s.arrCtrl c a } = some e → Completes (.stream c) s fun t =>
          t.coreState c = 3 ∧ t.regN (ctlAt c + 0x10) = e.1 ∧ t.reg (ctlAt c + 0x14) = (s.core c).pc
            ∧ t.core c = (s.core c).discard ∧ t.mem = s.mem))
  ∧ (∀ (s : State) (c w u : Nat) (i : Instr) (k : KOp),
      ((i, k) ∈ [(Instr.acfg c, KOp.acfg), (.lds c, .lds), (.stream c, .stream), (.promote c, .promote), (.drain c, .drain),
          (.qstore c, .qstore)] ∧ u = iArr w
        ∨ (i, k) ∈ [(Instr.vadd c, KOp.vec 0), (.vsub c, .vec 1), (.vmul c, .vec 2), (.vfma c, .vec 3), (.vmax c, .vec 4),
          (.vmin c, .vec 5), (.vmov c, .vec 6), (.vsel c, .vec 7), (.vabs c, .vec 8), (.vneg c, .vec 9), (.vexp c, .vec 0xA),
          (.vlog c, .vec 0xB), (.vrsqrt c, .vec 0xC), (.vrcp c, .vec 0xD), (.vclt c, .vec 0x10), (.vcle c, .vec 0x11),
          (.vceq c, .vec 0x12), (.mand c, .vec 0x18), (.mor c, .vec 0x19), (.mxor c, .vec 0x1A), (.mnot c, .vec 0x1B),
          (.mset c, .vec 0x1C), (.mtri c, .vec 0x1D), (.mbox c, .vec 0x1E), (.vrsumr c, .vec 0x20), (.vrmaxr c, .vec 0x21),
          (.vrsumc c, .vec 0x22), (.vrmaxc c, .vec 0x23), (.vamax c, .vec 0x24), (.vgetr c, .vec 0x28), (.vgetc c, .vec 0x29),
          (.vputr c, .vec 0x2A), (.vputc c, .vec 0x2B), (.vtrn c, .vec 0x2C), (.vdrop c, .vec 0x30), (.vrand c, .vec 0x31)]
          ∧ u = 2) →
      s.atRow c k w → ¬ s.unitTakes c u w →
        ((s.unitQ c u).length < 8 → Completes i s fun t =>
          t.unitQ c u = s.unitQ c u ++ [s.qins c w] ∧ (∀ v, v < 3 → v ≠ u → t.unitQ c v = s.unitQ c v)
            ∧ (t.core c).pc = (s.core c).pc + 4 ∧ (t.core c).x = (s.core c).x ∧ (t.core c).v = (s.core c).v
            ∧ (t.core c).masks = (s.core c).masks ∧ t.coreState c = 1 ∧ t.mem = s.mem ∧ ∀ j, j ≠ c → t.core j = s.core j)
        ∧ (8 ≤ (s.unitQ c u).length → (u = 2 ∨ (s.arr c u).starved = false) → Completes i s fun t => t = s.setCoreState c 2)
        ∧ (8 ≤ (s.unitQ c u).length → u ≠ 2 → (s.arr c u).starved = true → Completes i s fun t =>
          t.coreState c = 3 ∧ t.regN (ctlAt c + 0x10) = 25 ∧ t.core c = (s.core c).discard ∧ t.mem = s.mem))

/-- R89, R97, R98, R125, R140: DRAIN of an untroubled bank to a tile buffer writes the drained tile and nothing else;
QSTORE of an untroubled tile writes its image; a DRAIN whose bank carries trouble writes nothing and leaves the repeat
trap, which the core records with cause 24 and the bank's TROUBLE. -/
def Obligations.ArrayDrainAndStore : Prop :=
  ∀ (s : State) (c w : Nat),
    (s.arrRow c .drain w → bits w 29 28 = 0 → (s.x c (iRs1 w)).toNat < 4 →
      (drainOut ((s.arr c (iArr w)).bank (bits w 30 30))).any nonFinite = false → s.bankTrouble c (iArr w) (bits w 30 30) = 0 →
      Completes (.drain c) s fun t =>
        s.tileGoes t c (s.x c (iRs1 w)).toNat (fun e => (drainOut ((s.arr c (iArr w)).bank (bits w 30 30))).getD e 0)
          ∧ t.core c = (s.core c).after 0 0 ∧ t.coreState c = 1
          ∧ t.reg (arrAt c (iArr w) + 0x40) = s.reg (arrAt c (iArr w) + 0x40) + 1)
    ∧ (s.arrRow c .drain w → bits w 29 28 = 0 → (s.x c (iRs1 w)).toNat < 4 → s.bankTrouble c (iArr w) (bits w 30 30) ≠ 0 →
      Completes (.drain c) s fun t =>
        t.mem = s.mem ∧ (t.core c).trap.isSome = true ∧ (t.core c).pc = (s.core c).pc ∧ t.regN (ctlAt c + 0x10) = 24
          ∧ t.regN (ctlAt c + 0x18) = t.bankTrouble c (iArr w) (bits w 30 30)
          ∧ t.reg (arrAt c (iArr w) + 0x44) = s.reg (arrAt c (iArr w) + 0x44) + 1)
    ∧ (∀ g, s.arrRow c .qstore w → storeFmtOk (iRd w) = true →
      g = effFmt (s.wideOf c (iArr w)) (s.slvStep c) (iRd w) → (s.x c (iRs1 w)).toNat % 32 = 0 →
      (s.x c (iRs1 w)).toNat + imageBytes g 32 ≤ 0x60000 → s.bookFault (iRd w) (s.x c (iRs2 w)).toNat = false →
      (s.storeImage g (s.x c (iRs2 w)).toNat ((List.range 32).flatMap fun i => s.tileRow c (bits w 30 29) i)).1.any = false →
      Completes (.qstore c) s fun t =>
        t.bytes (coreBase c + (s.x c (iRs1 w)).toNat)
            (s.storeImage g (s.x c (iRs2 w)).toNat
              ((List.range 32).flatMap fun i => s.tileRow c (bits w 30 29) i)).2.length
          = (s.storeImage g (s.x c (iRs2 w)).toNat ((List.range 32).flatMap fun i => s.tileRow c (bits w 30 29) i)).2
          ∧ t.core c = (s.core c).after 0 0)

/-- R153, R154, R147: CORE_RUN of a core that is idle (also under PARK) or halted starts it at CORE_START_PC with cleared
registers and nothing queued; of a running core it sets RUN alone; CORE_STOP of a core whose units have finished, and that
no repeat trap waits on, stops it; CORE_PARK sets or clears PARK and nothing else. -/
def Obligations.CoreStartStopPark : Prop :=
  ∀ (s : State) (c : Nat), coreOk c = true → s.coreExists c = true →
    (s.coreState c = 0 ∨ s.coreState c = 3 → Completes (.coreRun c) s fun t =>
      t.coreState c = 1 ∧ t.runBit c = true ∧ (t.core c).pc = BitVec.ofNat 32 (0xA0000 + s.regN (ctlAt c + 0xC))
        ∧ (∀ r, t.x c r = 0) ∧ (t.core c).trap = none ∧ (∀ u, u < 3 → t.unitQ c u = []) ∧ t.regN (ctlAt c + 0x10) = 0
        ∧ t.mem = s.mem ∧ ∀ k, k ≠ c → t.core k = s.core k)
    ∧ (s.coreState c = 1 ∨ s.coreState c = 2 → Completes (.coreRun c) s fun t => t = s.raiseBits (ctlAt c + 8) 1)
    ∧ (s.coreState c = 1 ∨ s.coreState c = 2 → s.synced c 0x1F = true → (s.core c).trap = none →
      Completes (.coreStop c) s fun t =>
        t.coreState c = 0 ∧ t.runBit c = false ∧ t.mem = s.mem ∧ ∀ k, k ≠ c → t.core k = s.core k)
    ∧ (∀ park, Completes (.corePark c park) s fun t =>
      t.parkBit c = park ∧ t.runBit c = s.runBit c ∧ t = { s with regs := t.regs })

/-- R9, R446: a write that passes its check to a register of the sweep units, the pool, the pods' power and thermal
groups, the input, the power controller, the safety monitors or the core control block (but for CORE_CTRL and CORE_WIDE):
a read-only register keeps its value, a writable one takes the bits of its mask, a write-one-to-clear one clears them; no
other register and nothing else changes. R9, R155, R412, R446: a register write that fails its check, or that names a link
register that locks at commit after the commit, changes no register of the device; a Grey event says so. A write to V or a
mask of a core whose vector engine is busy waits, and changes nothing yet. -/
def Obligations.RegisterWrites : Prop :=
  (∀ (s : State) (ag : Agent) (a : Nat) (v : Word) (f : Fam) (o : Nat) (d : RegDef),
      notMemory a = true → s.agentCheck ag a 4 = .ok → famAt a = some (f, o) → f.def? o = some d →
      (f ∈ [Fam.swp, .pool, .podPwr, .railIn, .pwr, .podThm, .saf] ∨ (f = .core ∧ o ≠ 8 ∧ o ≠ 0x44)) →
      s.outsideBusy a 4 = false → Completes (.registerWrite ag a v) s fun t =>
        t = { s with regs := t.regs } ∧ (∀ b, b ≠ a → t.reg b = s.reg b)
          ∧ (d.acc = .ro → t.reg a = s.reg a)
          ∧ (d.acc = .rw → ∀ i, i < 32 →
            (t.reg a).getLsbD i = if d.mask.testBit i then v.getLsbD i else (s.reg a).getLsbD i)
          ∧ (d.acc = .w1c → ∀ i, i < 32 → (t.reg a).getLsbD i = ((s.reg a).getLsbD i && !(v.getLsbD i && d.mask.testBit i))))
  ∧ (∀ (s : State) (ag : Agent) (a : Nat) (v : Word), notMemory a = true →
      (s.outsideBusy a 4 = false → (s.agentCheck ag a 4 ≠ .ok
          ∨ ∃ o d, famAt a = some (.lnk, o) ∧ Fam.def? .lnk o = some d ∧ d.acc = .lk ∧ s.committed = true) →
        Completes (.registerWrite ag a v) s fun t => s.onlyGrey t)
      ∧ (s.outsideBusy a 4 = true → Completes (.registerWrite ag a v) s fun t => t = s))

/-- R146, R148, R151: a tail that fits the ring becomes POD_SLV_TAIL and clears the done bit of every new record; one that
does not fit is ignored; POD_SLV_CTRL takes OPEN; no other pod changes. -/
def Obligations.SliverQueueWrites : Prop :=
  ∀ (s : State) (p : Nat) (v : Word), p < 384 →
    ((v - s.reg (slvAt p + 8)).toNat ≤ s.regN (slvAt p + 4) → Completes (.podSlvTail p v) s fun t =>
      t.reg (slvAt p + 0xC) = v ∧ t.reg (slvAt p + 8) = s.reg (slvAt p + 8) ∧ (∀ q, q ≠ p → t.pod q = s.pod q)
        ∧ ((s.reg (slvAt p + 0xC) - s.reg (slvAt p + 8)).toNat ≤ (v - s.reg (slvAt p + 8)).toNat →
          ∀ i, i < (v - s.reg (slvAt p + 0xC)).toNat →
            t.doneBit p (s.word (s.slvRec p ((s.regN (slvAt p + 0xC) + i) % 2 ^ 32)) 4) = false)
        ∧ t = { s with regs := t.regs, pods := t.pods, heat := t.heat })
    ∧ (s.regN (slvAt p + 4) < (v - s.reg (slvAt p + 8)).toNat → Completes (.podSlvTail p v) s fun t =>
      s.onlyGrey t ∧ t.pods = s.pods)
    ∧ Completes (.podSlvCtrl p v) s fun t =>
      bit (t.regN (slvAt p + 0x10)) 0 = bit v.toNat 0 ∧ (∀ a, a ≠ slvAt p + 0x10 → t.reg a = s.reg a)
        ∧ t = { s with regs := t.regs }

/-- R181, R182, R185: EDG_GATE_LAPCLOSE in an attempt closes a lap of a gate once; the last lap of the last gate ends BWD;
a second close has no effect; one that names no gate or lap of the job raises GATE_FAULT and voids the attempt; after the
gradient path has begun to read, every close is a late lap, which voids it too. Outside an attempt a close has no effect.
R183: EDG_GATE_FWDCLOSE in an attempt counts a lap's forward close once; the last one ends FWD. R232: a layer mark in an
attempt becomes its phase's highest mark and issues every prefetch entry of its phase at or below it; a lower one only
counts in EDG_PF_CNT_BACKMARK. -/
def Obligations.LapsAndMarks : Prop :=
  ((∀ (s : State) (v : Word), s.heat.running = false → Completes (.edgGateLapclose v) s fun t => t = s)
    ∧ ∀ (s : State) (v : Word) (lap g : Nat), s.heat.running = true → lap = bits v.toNat 11 0 → g = bits v.toNat 23 16 →
      (lap < s.laps → g < s.gateCount → bit (s.regN (gateAt + 0xC)) 1 = false → lap ∉ Tab.get s.gates.closed g [] →
        (Tab.get s.gates.closed g []).length + 1 < s.laps → Completes (.edgGateLapclose v) s fun t =>
          Tab.get t.gates.closed g [] = Tab.get s.gates.closed g [] ++ [lap]
            ∧ (∀ k, k ≠ g → Tab.get t.gates.closed k [] = Tab.get s.gates.closed k [])
            ∧ t.regN (gateAt + 8) = (Tab.get t.gates.closed (s.regN (gateAt + 4)) []).length % 2 ^ 32
            ∧ t = { s with regs := t.regs, gates := t.gates })
      ∧ (lap < s.laps → g < s.gateCount → bit (s.regN (gateAt + 0xC)) 1 = false → lap ∉ Tab.get s.gates.closed g [] →
        (Tab.get s.gates.closed g []).length + 1 = s.laps →
        (∀ k, k < s.gateCount → k ≠ g → (Tab.get s.gates.closed k []).length = s.laps) →
        Completes (.edgGateLapclose v) s fun t => t.heat.bwdDone = true ∧ t.mem = s.mem ∧ t.cores = s.cores)
      ∧ (lap < s.laps → g < s.gateCount → bit (s.regN (gateAt + 0xC)) 1 = false → lap ∈ Tab.get s.gates.closed g [] →
        Completes (.edgGateLapclose v) s fun t => t = s)
      ∧ (s.laps ≤ lap ∨ s.gateCount ≤ g → Completes (.edgGateLapclose v) s fun t =>
        bit (t.regN (gateAt + 0xC)) 0 = true ∧ t.gates = s.gates ∧ t.mem = s.mem ∧ s.voidedBy t 0x0212)
      ∧ (bit (s.regN (gateAt + 0xC)) 1 = true → Completes (.edgGateLapclose v) s fun t =>
        t.gates = s.gates ∧ t.mem = s.mem ∧ s.voidedBy t 0x0205
          ∧ ∀ i, i < s.shardCount → s.shGate i = g → (∀ k, k < i → s.shGate k ≠ g) →
            bit (t.regN (swpAt (s.shUnit i) + 0x18)) 4 = true))
  ∧ (∀ (s : State) (v : Word) (lap : Nat), s.heat.running = true → lap = bits v.toNat 11 0 →
      (lap < s.laps → lap ∉ s.gates.fwd → s.gates.fwd.length + 1 ≠ s.laps → Completes (.edgGateFwdclose v) s fun t =>
        t.gates = { s.gates with fwd := s.gates.fwd ++ [lap] }
          ∧ t.regN (gateAt + 0x14) = (s.gates.fwd.length + 1) % 2 ^ 32 ∧ t = { s with regs := t.regs, gates := t.gates })
      ∧ (lap < s.laps → lap ∉ s.gates.fwd → s.gates.fwd.length + 1 = s.laps → Completes (.edgGateFwdclose v) s fun t =>
        t.heat.fwdDone = true ∧ bit (t.regN (gateAt + 0xC)) 2 = true ∧ t.mem = s.mem ∧ t.cores = s.cores)
      ∧ (lap < s.laps → lap ∈ s.gates.fwd → Completes (.edgGateFwdclose v) s fun t => t = s)
      ∧ (s.laps ≤ lap → Completes (.edgGateFwdclose v) s fun t =>
        bit (t.regN (gateAt + 0xC)) 0 = true ∧ t.gates = s.gates ∧ t.mem = s.mem ∧ s.voidedBy t 0x0212))
  ∧ (∀ (s : State) (v : Word) (layer : Nat), s.heat.running = true → layer = bits v.toNat 11 0 →
      (∀ ph, ph = bits v.toNat 14 12 → ph ≤ 1 →
        (∀ m, (if ph = 0 then s.pool.mark0 else s.pool.mark1) = some m → m ≤ layer) → Completes (.edgPfMark v) s fun t =>
          (ph = 0 → t.pool.mark0 = some layer ∧ t.pool.mark1 = s.pool.mark1)
            ∧ (ph = 1 → t.pool.mark1 = some layer ∧ t.pool.mark0 = s.pool.mark0)
            ∧ t.pool.lastMark = ph
            ∧ (∀ i, i < s.pfCount → bits (s.word (s.pfAddr i) 4) 14 12 = ph → bits (s.word (s.pfAddr i) 4) 11 0 ≤ layer →
              i ∈ t.pool.issued)
            ∧ t.mem = s.mem ∧ t.cores = s.cores ∧ t.heat = s.heat)
      ∧ (∀ ph m, ph = bits v.toNat 14 12 → ph ≤ 1 → (if ph = 0 then s.pool.mark0 else s.pool.mark1) = some m → layer < m →
        Completes (.edgPfMark v) s fun t =>
          t.reg (pfAt + 4) = s.reg (pfAt + 4) + 1 ∧ t = { s with regs := t.regs }))

/-- R227, R228: POOL_GRANT decides the request of the pool whose turn it is, and does nothing where none waits or the row
names another. A request for whose units no eviction makes room is refused and counted; else the entries of the trial
leave and the new one takes free units that the job does not name for SCRATCH. PREFETCH: the entry waits for its fill;
STASH: the slot has its units, or those of STASH_HBM; SCRATCH: the units it does not hold yet. R341, R342: POOL_GRANT for
a POOL gather sets the base of its result: the grant in the reservoir, or its staging area. R217, R228, R233:
PREFETCH_FILL_DONE ends the fill that channel 7 of the entry's edge die runs: the units hold the source's bytes, the entry
has its age, the channel counts a descriptor; a fill whose read fails makes no entry and voids the attempt. Where the
channel does not fill the entry nothing happens. R173, R174: a due walk decides every layer of every lap that it walks,
and under the backward-first schedule keeps the FULL slots of a lap within STASH_HBM and the reservoir's watermark of the
job. -/
def Obligations.PoolAndStash : Prop :=
  ((∀ (s : State) (cl n : Nat) (pin : Bool), cl < 4 →
        (∀ r, s.poolNext = some r → r.client = cl → r.n = n → s.reqPin r ≠ pin) → Completes (.poolGrant cl n pin) s fun t => t = s)
    ∧ ∀ (s u : State) (r : PoolReq), s.poolNext = some r → u = s.poolTakeReq r →
      (∀ n, r.client = 0 → n = s.word (s.pfAddr r.key + 4) 4 / 65536 →
        (s.poolRefuses 0 n → Completes (.poolGrant 0 r.n (s.reqPin r)) s fun t =>
          t.reg (cliAt 0 + 0xC) = s.reg (cliAt 0 + 0xC) + 1 ∧ t = { u with regs := t.regs })
        ∧ (∀ ev us, s.poolTrial 0 n = some ev → s.poolPlaces 0 n ev us → Completes (.poolGrant 0 r.n (s.reqPin r)) s fun t =>
          u.poolMakes t ev { id := 0, client := 0, us := us, flags := s.pfFlags (s.word (s.pfAddr r.key + 8) 6), age := none, tag := r.key
                             src := s.word (s.pfAddr r.key + 8) 6, len := s.word (s.pfAddr r.key + 4) 4 }
            ∧ t = { u with regs := t.regs, pool := t.pool }))
      ∧ (∀ sl n, r.client = 1 → Tab.get? s.stash.slots r.key = some sl → sl.released = false →
        sl.full = true → sl.units = [] → n = s.slotUnitsOf r.key →
        (s.poolRefuses 1 n → Completes (.poolGrant 1 r.n (s.reqPin r)) s fun t =>
          t.reg (cliAt 1 + 0xC) = s.reg (cliAt 1 + 0xC) + 1
            ∧ Tab.get? t.stash.slots r.key = some { sl with units := s.stashHbmFree.take n }
            ∧ t.stash.charge = s.stash.charge + n ∧ t.stash.resCharge = s.stash.resCharge
            ∧ t = { u with regs := t.regs, stash := t.stash })
        ∧ (∀ ev us, s.poolTrial 1 n = some ev → s.poolPlaces 1 n ev us → Completes (.poolGrant 1 r.n (s.reqPin r)) s fun t =>
          u.poolMakes t ev { id := 0, client := 1, us := us, flags := nearFlags, age := some s.now, tag := 0, src := 0, len := 0 }
            ∧ Tab.get? t.stash.slots r.key = some
                { sl with units := us.map fun x => 0x10000000000 + x * 65536, ent := some s.pool.nextId }
            ∧ t.stash.charge = s.stash.charge + n ∧ t.stash.resCharge = s.stash.resCharge + n
            ∧ t = { u with regs := t.regs, pool := t.pool, stash := t.stash }))
      ∧ (∀ us, r.client = 3 →
        us = (r.us.eraseDups.filter fun x => !s.pool.near.contains x && !s.scratchHeld.contains x) →
        (us = [] → Completes (.poolGrant 3 r.n (s.reqPin r)) s fun t => t = u)
        ∧ (us ≠ [] → s.poolTrial 3 us.length = none → Completes (.poolGrant 3 r.n (s.reqPin r)) s fun t =>
          t.reg (cliAt 3 + 0xC) = s.reg (cliAt 3 + 0xC) + 1 ∧ t = { u with regs := t.regs })
        ∧ (∀ ev, us ≠ [] → s.poolTrial 3 us.length = some ev → Completes (.poolGrant 3 r.n (s.reqPin r)) s fun t =>
          u.poolMakes t ev { id := 0, client := 3, us := us, flags := nearFlags, age := some s.now, tag := r.key, src := 0, len := 0 }
            ∧ t = { u with regs := t.regs, pool := t.pool })))
  ∧ (∀ (s : State) (r : PoolReq) (n : Nat), s.poolNext = some r → r.client = 2 →
      n = ceilDiv (s.cN r.key * chunkSize (s.cDtype r.key) (s.cCount r.key)) 65536 →
      (s.poolRefuses 2 n → Completes (.poolGrant 2 r.n (s.reqPin r)) s fun t => (t.coll r.key).base = s.cAux r.key)
      ∧ (∀ ev us, s.poolTrial 2 n = some ev → s.poolPlaces 2 n ev us → Completes (.poolGrant 2 r.n (s.reqPin r)) s fun t =>
        (t.coll r.key).base = 0x10000000000 + us.headD 0 * 65536))
  ∧ (∀ (s : State) (i : Nat),
      ((∀ x, s.filling (i % 4) = some x → x.tag ≠ i) → Completes (.prefetchFillDone i) s fun t => t = s)
      ∧ (∀ x, s.filling (i % 4) = some x → x.tag = i → s.fillSt x = .ok →
        x.gone = false → x.us.Nodup → x.src + 65536 * x.us.length ≤ 0x10000000000 →
        (∀ y ∈ s.pool.ents, y.client = 0 → y.src + y.len ≤ 0x10000000000) → Completes (.prefetchFillDone i) s fun t =>
          t.pool.ents = (s.pool.ents.map fun y => if y.id = x.id then { y with age := some s.now } else y)
            ∧ (∀ j b, j < x.us.length → b < 65536 →
              t.mem.read (0x10000000000 + x.us.getD j 0 * 65536 + b) = s.mem.read (x.src + 65536 * j + b))
            ∧ (∀ a, (∀ u ∈ x.us, a < 0x10000000000 + u * 65536 ∨ 0x10000000000 + u * 65536 + 65536 ≤ a) →
              t.mem.read a = s.mem.read a)
            ∧ t.reg (bshAt (i % 4) 7 + 0x58) = s.reg (bshAt (i % 4) 7 + 0x58) + 1 ∧ t.heat = s.heat ∧ t.cores = s.cores)
      ∧ (∀ x, s.filling (i % 4) = some x → x.tag = i → s.fillSt x ≠ .ok → Completes (.prefetchFillDone i) s fun t =>
        t.pool.ents = (s.pool.ents.filter fun y => y.id != x.id) ∧ t.mem = s.mem ∧ t.cores = s.cores
          ∧ (s.heat.running = true → x.gone = false → s.voidedBy t 0x0211)))
  ∧ (∀ s : State, s.heat.running = true → s.walkDue ≠ [] → Completes .stashWalk s fun t =>
      (∀ lap ∈ s.walkDue, ∀ l, l < s.stashLayers → (Tab.get? t.stash.slots (lap * 4096 + l)).isSome = true)
        ∧ (s.fwdFirst = false → t.stash.held ≤ s.jobF 0x48 4 ∧ t.stash.walked = s.stash.walked + 1)
        ∧ t.mem = s.mem ∧ t.cores = s.cores ∧ t.pool = s.pool)

/-- R160, R169, R184, R340: after BWD the gradient path reads a home once. Its rows quantise without NANINF and BSCLAMP:
it counts as read. One that does not, a read that fails or a tensor without its scale-book entry voids the attempt.
GRAD_READ of EDG_GATE_STATUS is set at the first read. An amax reduction, once every home is read, gives this device's
values out, takes the peers' and completes its group. Before BWD has ended neither does anything; no core changes. -/
def Obligations.GradientPath : Prop :=
  ∀ (s : State) (i : Nat), s.heat.running = true → s.heat.voids = [] →
    (∀ (row : Nat → List FVal) (tr : Nat → Trouble), s.heat.bwdDone = true → i < s.jobF 0x24 4 → i ∉ s.gates.homesRead →
      s.checkRead (s.edgeWorld 0) (s.homeAddr i) 4096 = .ok → s.sbOk (s.homeTensor i + 1) = true →
      (∀ r, row r = (List.range 32).map fun c => match s.tileElem (s.homeTensor i) (s.homeTile i) r c with
        | some e => if s.frozen (s.homeTensor i) e then FVal.fin false 0 0
            else f32Val (BitVec.ofNat 32 (s.word (s.homeAddr i + 4 * (32 * r + c)) 4))
        | none => FVal.fin false 0 0) →
      (∀ r, tr r =
        (quantiseBlock 3 (s.sbTexp (s.homeTensor i + 1)) (some (s.sbHead (s.homeTensor i + 1))) (row r)).trouble) →
      ((∀ r, r < 32 → (tr r).stops = false) → Completes (.gradientPathHomeRead i) s fun t =>
        t.gates = { s.gates with homesRead := s.gates.homesRead ++ [i] } ∧ bit (t.regN (gateAt + 0xC)) 1 = true
          ∧ t.cores = s.cores)
      ∧ (∀ r, r < 32 → (tr r).stops = true → Completes (.gradientPathHomeRead i) s fun t =>
        t.gates = s.gates ∧ bit (t.regN (gateAt + 0xC)) 1 = true ∧ s.voidedBy t 0x0217 ∧ t.cores = s.cores))
    ∧ (s.heat.bwdDone = true → i < s.jobF 0x24 4 → i ∉ s.gates.homesRead →
      (s.checkRead (s.edgeWorld 0) (s.homeAddr i) 4096 ≠ .ok ∨ s.sbOk (s.homeTensor i + 1) = false) →
      Completes (.gradientPathHomeRead i) s fun t =>
        t.gates = s.gates ∧ bit (t.regN (gateAt + 0xC)) 1 = true ∧ t.heat.voids ≠ [] ∧ t.mem = s.mem ∧ t.cores = s.cores)
    ∧ (s.heat.bwdDone = false ∨ s.jobF 0x24 4 ≤ i ∨ i ∈ s.gates.homesRead →
      Completes (.gradientPathHomeRead i) s fun t => t = s)
    ∧ (∀ g peers, s.heat.bwdDone = true → g ≠ 0 → g ∉ s.sweep.amaxDone → (∀ k, k < s.jobF 0x24 4 → k ∈ s.gates.homesRead) →
      Completes (.amaxReduction g peers) s fun t =>
        t.sweep.amaxDone = s.sweep.amaxDone ++ [g] ∧ t.sweep.amaxOut = s.sweep.amaxOut ++ [s.amaxOwn g]
          ∧ t.cores = s.cores ∧ t.gates = s.gates ∧ (peers = [] → t.mem = s.mem)
          ∧ ∀ e w, peers = [(e, w)] → e < s.jobF 0x20 3 → s.word (s.sbAddr e + 0xA) 2 = g →
              t.mem = (s.sbAmax e [f32Val w]).mem)
    ∧ ∀ g peers, s.heat.bwdDone = false ∨ g = 0 ∨ g ∈ s.sweep.amaxDone → Completes (.amaxReduction g peers) s fun t => t = s

/-- R190, R195: SWEEP_PHASE_START latches the parameter sets and fixes TEXP and ERR_SCALE of every entry, once a reduced
gradient is present; SWEEP_SHARD_START gives a free unit its lowest unfinished shard when its gradient is present, and
lets it wait when it is not, or while it is pulled; the cursor record of the shard is IN PROGRESS at block 0. An access
that fails stops the unit and voids the attempt. R193, R195, R200: the factor pass of a unit that holds an OPT 0x04 shard
writes a slot for every 32 factors and lets the unit sweep; the first block whose gradient stage stops, or an access that
fails, stops the unit and voids the attempt, and no slot is written; a unit that has no factor pass to make stays as it
is. R194, R195, R200, R201, R209: SWEEP_BLOCK of a unit that sweeps: one undo slot, the block's new state, the cursor one
further, the block counted. Trouble of the block, after its slot is written, stops the unit and voids the attempt, and the
block does not count; an access that fails does so before anything is written. Where the unit does not sweep, or the
mirror channel of a TWIN shard has no room, nothing happens. R61, R168, R195, R207: SCALE_BOOK_WRITE, once every shard is
finished and every reduction of R61 complete, writes the scale book once and ends SWEEP: AMAX_CUR of every entry but those
of FROZEN tensors is +0. An access that fails stops unit 0 and voids the attempt. Before that, or while the sweep is
paused, nothing happens. -/
def Obligations.SweepRuns : Prop :=
  (∀ (s : State),
      (s.sweepDue = false → Completes .sweepPhaseStart s fun t => t = s)
      ∧ (s.sweepDue = true → s.sweepCheck 0 [(s.jobA 0x70, 1024), (s.sbAddr 0, 128 * s.jobF 0x20 3)] [] = none →
        Completes .sweepPhaseStart s fun t =>
          t.sweep.params = s.bytes (s.jobA 0x70) 1024 ∧ t.heat = { s.heat with sweepBegun := true }
            ∧ (∀ k, k < s.jobF 0x20 3 → t.texpFixed k = s.sbTexp k ∧ t.errFixed k = s.sbErr k)
            ∧ t.mem = s.mem ∧ t.cores = s.cores)
      ∧ (∀ a st, s.sweepDue = true →
        s.sweepCheck 0 [(s.jobA 0x70, 1024), (s.sbAddr 0, 128 * s.jobF 0x20 3)] [] = some (a, st) →
        Completes .sweepPhaseStart s fun t =>
          s.unitStops t 0 (if st = .void then 0x0302 else 0x0300) ∧ t.heat.sweepBegun = false ∧ t.mem = s.mem)
      ∧ ∀ u, u < 16 →
        (s.unitFree u = false ∨ s.nextShard u = none → Completes (.sweepShardStart u) s fun t => t = s)
        ∧ (∀ i, s.unitFree u = true → s.nextShard u = some i →
          (s.twin.pulls.any fun p => p.idx == i) = true ∨ i ∉ s.sweep.present → Completes (.sweepShardStart u) s fun t =>
            t.unitState u = 1 ∧ t.regN (swpAt u + 4) = i % 2 ^ 32 ∧ t = { s with regs := t.regs })
        ∧ (∀ i, s.unitFree u = true → s.nextShard u = some i → (s.twin.pulls.any fun p => p.idx == i) = false →
          i ∈ s.sweep.present →
          (s.shOpt i = 4 → Completes (.sweepShardStart u) s fun t =>
            s.shardTaken t u i 2 ∧ t = { s with regs := t.regs, sweep := t.sweep })
          ∧ (s.shOpt i ≠ 4 → s.sweepCheck u [] [s.cursorRange i] = none → Completes (.sweepShardStart u) s fun t =>
            s.shardTaken t u i 3 ∧ t.cursorSt i = 2 ∧ t.cursorLo i = 0 ∧ t.cores = s.cores
              ∧ s.keepsOutside t (s.jobA 0x80 + 16 * i) 16)
          ∧ (∀ a st, s.shOpt i ≠ 4 → s.sweepCheck u [] [s.cursorRange i] = some (a, st) →
            Completes (.sweepShardStart u) s fun t => s.unitStops t u 0x0300 ∧ t.mem = s.mem)))
  ∧ (∀ (s : State) (u i n : Nat), u < 16 → n = ceilDiv (s.shRows i + s.shCols i) 32 →
      ((s.unit u).cur = none ∨ s.unitState u ≠ 2 ∨ s.unitRuns = false → Completes (.factorPass u) s fun t => t = s)
      ∧ ((s.unit u).cur = some i → s.unitState u = 2 → s.unitRuns = true →
        (s.sweepCheck u (s.factorReads i) [s.slotRange u n, s.cursorRange i] = none →
          ((∀ k, k < s.shBlocks i → (s.gradStage i k).trouble.stops = false) → Completes (.factorPass u) s fun t =>
            t.unitState u = 3 ∧ t.reg (swpAt u + 0x10) = s.reg (swpAt u + 0x10) + BitVec.ofNat 32 n
              ∧ t.cores = s.cores ∧ t.heat = s.heat)
          ∧ (∀ k, k < s.shBlocks i → (s.gradStage i k).trouble.stops = true → Completes (.factorPass u) s fun t =>
            s.unitStops t u 0x0206 ∧ t.reg (swpAt u + 0x10) = s.reg (swpAt u + 0x10) ∧ t.mem = s.mem))
        ∧ (∀ a st, s.sweepCheck u (s.factorReads i) [s.slotRange u n, s.cursorRange i] = some (a, st) →
          Completes (.factorPass u) s fun t =>
            s.unitStops t u (if st = .void then 0x0302 else 0x0300) ∧ t.reg (swpAt u + 0x10) = s.reg (swpAt u + 0x10)
              ∧ t.mem = s.mem)))
  ∧ (∀ (s : State) (u i k : Nat) (o : BlockOut), u < 16 → k = s.cursorLo i → o = s.blockOut i k (s.gradStage i k) →
      ((s.unit u).cur = none → Completes (.sweepBlock u) s fun t => t = s)
      ∧ ((s.unit u).cur = some i → s.unitState u ≠ 3 ∨ s.unitRuns = false ∨ s.mirrorOpen i = false →
        Completes (.sweepBlock u) s fun t => t = s)
      ∧ ((s.unit u).cur = some i → s.unitState u = 3 → s.unitRuns = true → s.mirrorOpen i = true →
        (s.sweepCheck u (s.blockRanges i k true) (s.blockWrites u i k) = none →
          (o.trouble.stops = false → Completes (.sweepBlock u) s fun t =>
            t.reg64 (swpAt u + 0x20) = (s.reg64 (swpAt u + 0x20) + 1) % 2 ^ 64
              ∧ t.reg (swpAt u + 0x10) = s.reg (swpAt u + 0x10) + 1
              ∧ (k + 1 < s.shBlocks i → (k + 1) % 16384 ≠ 0 → s.twin.recs = [] → s.sweep.made = [] → s.heat.sweepDone = false →
                s.blockApart u i k → t.unitState u = 3 ∧ t.cursorSt i = 2 ∧ t.cursorLo i = k + 1 ∧ t.heat = s.heat ∧ t.cores = s.cores
                  ∧ t.bytes (s.shW i + 64 * k) 64 = packCodes 16 o.w))
          ∧ (o.trouble.stops = true → Completes (.sweepBlock u) s fun t =>
            s.unitStops t u 0x0206 ∧ t.reg64 (swpAt u + 0x20) = s.reg64 (swpAt u + 0x20)
              ∧ t.reg (swpAt u + 0x10) = s.reg (swpAt u + 0x10) + 1))
        ∧ (∀ a st, s.sweepCheck u (s.blockRanges i k true) (s.blockWrites u i k) = some (a, st) →
          Completes (.sweepBlock u) s fun t =>
            s.unitStops t u (if st = .void then 0x0302 else 0x0300) ∧ t.mem = s.mem
              ∧ t.reg (swpAt u + 0x10) = s.reg (swpAt u + 0x10))))
  ∧ (∀ s : State,
      (s.bookReady = false ∨ s.sweepPaused = true → Completes .scaleBookWrite s fun t => t = s)
      ∧ (s.bookReady = true → s.sweepPaused = false → s.bookClear → Completes .scaleBookWrite s fun t =>
        t.sweep.bookDone = true ∧ t.heat.sweepDone = true ∧ t.bookReady = false
          ∧ (s.twin.pairing ≠ 1 → s.twin.pairing ≠ 2 → s.twin.recs = [] → s.sweep.made = [] →
            t.cores = s.cores ∧ ∀ e, e < s.jobF 0x20 3 → s.bookFrozen e = false → t.word (s.sbAddr e + 0x10) 4 = 0))
      ∧ ∀ e, s.bookReady = true → s.sweepPaused = false → e < s.jobF 0x20 3 → s.bookFrozen e = false →
        (s.bookEntry e).bytes (s.sbAddr e) 128 ≠ s.bytes (s.sbAddr e) 128 →
        s.check (s.edgeWorld 0) (s.slotRange 0 1).1 192 ≠ .ok → Completes .scaleBookWrite s fun t =>
          t.sweep.bookDone = false ∧ t.unitState 0 = 7 ∧ t.heat.voids ≠ [] ∧ t.mem = s.mem ∧ t.cores = s.cores)

/-- R32, R35, R103, R162, R181, R190, R232, R349: a due attempt starts: it runs from now, no phase has ended, no gate is
closed, no home read, no mark made, no request waits at the pool, the sweep is empty; the slivers queued on the device
count as planned; CORE_HEAT of every enabled core is the heat's number. One that is not due (R36, R237: lost state is
still pulled) does not. -/
def Obligations.AttemptsStart : Prop :=
  ∀ s : State, (s.attemptDue = false → Completes .attemptStart s fun t => t = s)
    ∧ (s.attemptDue = true → Completes .attemptStart s fun t =>
    t.heat.running = true ∧ t.heat.num = s.heat.num ∧ t.heat.attempt = s.heat.attempt ∧ t.heat.startTick = s.now
      ∧ t.heat.fwdDone = false ∧ t.heat.bwdDone = false ∧ t.heat.rsDone = false ∧ t.heat.sweepBegun = false
      ∧ t.heat.sweepDone = false ∧ t.heat.digestDone = false ∧ t.heat.finish = none
      ∧ t.gates.fwd = [] ∧ t.gates.homesRead = [] ∧ (∀ g, Tab.get t.gates.closed g [] = [])
      ∧ t.pool.mark0 = none ∧ t.pool.mark1 = none ∧ t.pool.issued = [] ∧ t.pool.reqs = [] ∧ t.sweep = {}
      ∧ t.heat.fwdPlanned = s.queuedSlivers false ∧ t.heat.bwdPlanned = s.queuedSlivers true
      ∧ (∀ c ∈ s.allCores, t.regN (ctlAt c + 0x1C) = s.heat.num % 2 ^ 32) ∧ (∀ e, (t.hrd e).epoch = 0))

/-- R530, R548: HEAT_VOID in RUN takes the first fault of the attempt: the attempt runs no more and rolls back, its cause
is kept, its stash ends, no core holds a sliver or runs, and the heat's number and attempt stay. R36, R202, R237, R401,
R548: ROLLBACK_DONE once no shuttle holds a descriptor: the rollback ends, the attempt count rises by one, every unit is
idle with an empty ring; each group of lost state is pulled from the twin where it keeps a copy; the third void is a
Crimson fault, which stops the job; a job that was to stop at once stops then. -/
def Obligations.HeatsRollBack : Prop :=
  (∀ (s : State) (f : VoidFault), s.heat.running = true → s.firstFault = some f → s.voidDue = true → s.pst = 0 →
      Completes .heatVoid s fun t =>
        t.heat.running = false ∧ t.heat.rolling = true ∧ t.heat.voids = [] ∧ t.heat.finish = none
          ∧ t.heat.causes = s.heat.causes ++ [f.code] ∧ t.heat.rollbacks = s.heat.rollbacks + 1
          ∧ t.heat.num = s.heat.num ∧ t.heat.attempt = s.heat.attempt ∧ s.stashGone t ∧ t.pool.reqs = []
          ∧ (∀ c, (t.core c).inSliver = false ∧ (t.core c).trap = none)
          ∧ (∀ c ∈ s.cores.map (·.1), t.coreState c ≠ 1 ∧ t.coreState c ≠ 2))
  ∧ (∀ s : State,
      (s.heat.rolling = true → s.shuBusy = false → (s.heat.active = false ∨ (s.heat.stopNow = false ∧ s.heat.attempt < 2)) →
        s.lostIdx = [] → Completes .rollbackDone s fun t =>
          t.heat.rolling = false ∧ t.heat.attempt = s.heat.attempt + 1 ∧ t.heat.num = s.heat.num ∧ t.sweep = {}
            ∧ (∀ u, u < 16 → t.unitState u = 0 ∧ t.undoHead u = 0) ∧ t.cores = s.cores)
      ∧ (∀ i u, s.heat.rolling = true → s.shuBusy = false → s.twin.lost = [i] → s.twin.lostAt = [] → u = s.sweepReset true →
        s.twin.node ∈ u.partners i → Completes .rollbackDone s fun t =>
          t.heat.rolling = false ∧ t.heat.attempt = s.heat.attempt + 1 ∧ t.twin.lost = []
            ∧ ∀ g ∈ u.groupsOf i, ∃ p ∈ t.twin.pulls, p.why = .lost ∧ p.idx = i ∧ p.group = g ∧ p.node = s.twin.node
                ∧ p.heat = s.lastHeat ∧ p.attempt = 0xFF)
      ∧ (s.heat.rolling = true → s.shuBusy = false → s.heat.active = true → s.heat.running = false → 2 ≤ s.heat.attempt →
        s.lostIdx = [] → Completes .rollbackDone s fun t =>
          t.heat.rolling = false ∧ t.heat.active = false ∧ t.evt.crimson = s.evt.crimson + 1)
      ∧ (s.heat.rolling = false → s.heat.active = true → s.heat.running = false → s.heat.stopNow = true →
        s.heat.parkAsked = false → Completes .rollbackDone s fun t =>
          t.heat.active = false ∧ t.heat.stopNow = false ∧ t.heat.left = 0 ∧ t.heat.num = s.heat.num ∧ t.mem = s.mem
            ∧ t.cores = s.cores))

/-- R37, R105, R408, R559: HEAT_COMMIT at the commit tick `c`: the heat is the last committed one, at `c`; the next heat
has the next number and attempt 0; its record stands committed; a job with heats left goes on. R536, R357: the progress
timer runs out: the attempt is voided with PROGRESS_TIMEOUT and the timer stops; while a port holds the attempt the job
stops at once instead. -/
def Obligations.HeatsEnd : Prop :=
  (∀ (s : State) (c : DWord), s.commitDue = some c → Completes .heatCommit s fun t =>
      t.heat.running = false ∧ t.heat.last = some s.heat.num ∧ t.heat.lastTick = c
        ∧ t.heat.num = (s.heat.num + 1) % 2 ^ 32 ∧ t.heat.attempt = 0 ∧ s.stashGone t ∧ t.sweep = {}
        ∧ (∃ r ∈ t.heat.recs, r.heat = s.heat.num ∧ r.committed = true ∧ r.tick = c)
        ∧ (s.heat.stopping = false → s.heat.stopNow = false → s.twin.stopAsked = false → s.heat.num ≠ 0xFFFFFFFF →
          (s.heat.endless = true ∨ 2 ≤ s.heat.left) →
          t.heat.active = s.heat.active ∧ (s.heat.endless = false → t.heat.left = s.heat.left - 1)))
  ∧ (∀ s : State, s.heat.running = true → s.reg64 (safAt s.actHub + 0x20) ≠ 0 →
      s.reg64 (safAt s.actHub + 0x20) ≤ s.now.toNat → Completes .progressTimeout s fun t =>
        t.reg64 (safAt s.actHub + 0x20) = 0 ∧ t.mem = s.mem ∧ t.cores = s.cores
          ∧ (s.heat.held = false → s.voidedBy t 0x0627)
          ∧ (s.heat.held = true → s.portsWait ≠ [] → t.heat.stopNow = true ∧ s.voidedBy t 0x021A))

/-- R560: BATON_STREAM: the first part is the header, not complete; a part that host memory refuses ends the stream; the
last part is the header again, complete. R554, R563: 10 ms after a TWIN_HELLO without an exchange PAIRING is 3; a jog
digest pass over a group that matches its digest record changes nothing; one over a group that does not match pulls it
from a partner, and without a partner stops the job as a job-level Crimson fault does. -/
def Obligations.TwinsWork : Prop :=
  (∀ (s : State) (h n addr size : Nat), s.twin.stream = some (h, n) → s.twin.hostBuf = some (addr, size) →
      (n = 0 → Completes (.batonStream true) s fun t =>
        Memory.readN t.hostMem (addr + h % 2 * (size / 2)) 64 = s.slotHeader h 0 ∧ t.twin.stream = some (h, 1)
          ∧ t = { s with hostMem := t.hostMem, twin := t.twin })
      ∧ (s.job.batonCount + 1 < n → Completes (.batonStream true) s fun t =>
        Memory.readN t.hostMem (addr + h % 2 * (size / 2)) 64 = s.slotHeader h 1 ∧ t.twin.stream = none
          ∧ t = { s with hostMem := t.hostMem, twin := t.twin })
      ∧ Completes (.batonStream false) s fun t => t.twin.stream = none ∧ t.hostMem = s.hostMem ∧ s.onlyGrey t)
  ∧ (∀ s : State,
      (∀ t0, s.twin.helloAt = some t0 → 1000000 ≤ (s.now - t0).toNat → Completes .twinHelloTimeout s fun t =>
        t.twin.pairing = 3 ∧ t.twin.helloAt = none ∧ t.mem = s.mem ∧ t.heat = s.heat ∧ t.cores = s.cores)
      ∧ (∀ idx g, crc64 (s.groupImage idx g 0xFF) = s.word (s.digestAddr idx g + 0x10) 8 →
        Completes (.jogDigestPass idx g) s fun t => t = s)
      ∧ (∀ idx g, crc64 (s.groupImage idx g 0xFF) ≠ s.word (s.digestAddr idx g + 0x10) 8 → s.job.loaded = true →
        s.sweepPaused = false → s.heat.last ≠ none → idx < s.idxCount → 16384 * g < s.shBlocks idx →
        s.word (s.digestAddr idx g + 4) 4 = s.lastHeat → s.word (s.digestAddr idx g) 2 = idx → s.heat.sweepBegun = false →
        s.heat.rolling = false → s.heat.voids = [] → s.twin.pulls = [] →
        (s.partners idx = [] → Completes (.jogDigestPass idx g) s fun t =>
          t.heat.stopNow = true ∧ t.heat.parkAsked = true ∧ t.evt.crimson = s.evt.crimson + 1 ∧ t.evt.lastCrimson = 0x070C
            ∧ t.mem = s.mem)
        ∧ (∀ n ns, s.partners idx = n :: ns → Completes (.jogDigestPass idx g) s fun t =>
          t.mem = s.mem ∧ t.heat = s.heat ∧ ∃ p, t.twin.pulls = [p] ∧ p.idx = idx ∧ p.group = g ∧ p.node = n
            ∧ p.expect = some (s.word (s.digestAddr idx g + 0x10) 8))))

/-- R248 to R250, R252, R253, R256, R258: COPY of one row of bytes, TRANSPOSE of one row of 32-bit elements, GATHER and
SCATTER of one indexed row of bytes, and IMM, between readable and writable ranges of HBM that do not meet: the
destination holds what the source held, no other byte of memory changes, and the descriptor ends OK with the count of
destination bytes. -/
def Obligations.ShuttlesMove : Prop :=
  ∀ (s : State) (x : ShuSrc) (a : Desc) (retry src dst n : Nat),
    src = fld a.bytes 0x10 6 → dst = fld a.bytes 0x18 6 → n = dX a.bytes →
    (s.movesPlain x a 0 → dY a.bytes = 1 → dSw a.bytes = 8 → dDw a.bytes = 8 → s.shuReads x src n → s.shuWrites x dst n →
      (src + n ≤ dst ∨ dst + n ≤ src) → Completes (.copy x retry none) s fun t =>
        t.bytes dst n = s.bytes src n ∧ s.keepsOutside t dst n ∧ s.descEnds t x a retry n)
    ∧ (s.movesPlain x a 3 → dY a.bytes = 1 → dSw a.bytes = 32 → dDw a.bytes = 32 → 4 ≤ dDp a.bytes →
      s.shuReads x src (4 * n) → s.shuWrites x dst (n * dDp a.bytes) →
      (src + 4 * n ≤ dst ∨ dst + n * dDp a.bytes ≤ src) → Completes (.transpose x retry none) s fun t =>
        (∀ i, i < n → t.bytes (dst + i * dDp a.bytes) 4 = s.bytes (src + 4 * i) 4)
          ∧ s.keepsOutside t dst (n * dDp a.bytes) ∧ s.descEnds t x a retry (4 * n))
    ∧ (∀ k row, s.movesPlain x a 1 → dY a.bytes = 1 → dSw a.bytes = 8 → dDw a.bytes = 8 →
      s.shuReads x (fld a.bytes 0x30 6) 4 → k = s.word (fld a.bytes 0x30 6) 4 → k ≠ 0xFFFFFFFF →
      row = src + k * dSp a.bytes → s.shuReads x row n → s.shuWrites x dst n → (row + n ≤ dst ∨ dst + n ≤ row) →
      apart (fld a.bytes 0x30 6, 4) (dst, n) →
      Completes (.gather x retry none) s fun t =>
        t.bytes dst n = s.bytes row n ∧ s.keepsOutside t dst n ∧ s.descEnds t x a retry n)
    ∧ (∀ k row, s.movesPlain x a 2 → dY a.bytes = 1 → dSw a.bytes = 8 → dDw a.bytes = 8 →
      s.shuReads x (fld a.bytes 0x30 6) 4 → k = s.word (fld a.bytes 0x30 6) 4 → k ≠ 0xFFFFFFFF →
      row = dst + k * dDp a.bytes → s.shuReads x src n → s.shuWrites x row n → (src + n ≤ row ∨ row + n ≤ src) →
      Completes (.scatter x retry none) s fun t =>
        t.bytes row n = s.bytes src n ∧ s.keepsOutside t row n ∧ s.descEnds t x a retry n)
    ∧ (s.movesPlain x a 4 → s.shuWrites x dst n → Completes (.imm x retry none) s fun t =>
        t.bytes dst n = leBytes n (fld a.bytes 0x30 8) ∧ s.keepsOutside t dst n ∧ s.descEnds t x a retry n)

/-- R221, R243, R244, R262, R263, R266, R267: COMPLETION_RECORD_WRITE: the first record of an enabled queue with room,
once its outcome is known and the source that made it may write its place, goes to the ring at TAIL, which advances; no
other memory changes; a record without an outcome, or behind a full queue, is not written; one that could not be written
fails the queue. R275, R373: CQ_HEAD takes a head that does not pass TAIL, and else sets HEAD_FAULT of CQ_STATUS;
CQ_ENABLE of a queue that was off starts it at TAIL and HEAD 0; a size outside 4 to 16 is ignored. -/
def Obligations.ShuttleQueues : Prop :=
  (∀ (s : State) (q : CqId) (r : RecSlot) (rest : List RecSlot) (pos : Nat), q.wf = true → s.recs q = r :: rest →
      pos = s.recAddr q (s.regN (cqAt q + 0xC)) →
      (∀ st retries n, r.done = some (st, retries, n) → s.cqOn q = true → s.cqFull q = false →
        s.check (s.srcWorld (srcOfKey r.src)) pos 32 = .ok → Completes (.completionRecordWrite q) s fun t =>
          t.bytes pos 32 = r.bytes st retries n (s.regN (cqAt q + 0xC)) s.now ∧ s.keepsOutside t pos 32
            ∧ t.reg (cqAt q + 0xC) = s.reg (cqAt q + 0xC) + 1)
      ∧ (r.done = none → Completes (.completionRecordWrite q) s fun t => t = s)
      ∧ (r.done ≠ none → s.cqOn q = true → s.cqFull q = true → s.check (s.srcWorld (srcOfKey r.src)) pos 32 = .ok →
        Completes (.completionRecordWrite q) s fun t =>
          t.mem = s.mem ∧ t.reg (cqAt q + 0xC) = s.reg (cqAt q + 0xC) ∧ bit (t.regN (cqAt q + 0x18)) 0 = true
            ∧ t = { s with regs := t.regs, cqs := t.cqs })
      ∧ (r.done ≠ none → s.cqOn q = false ∨ s.check (s.srcWorld (srcOfKey r.src)) pos 32 ≠ .ok →
        Completes (.completionRecordWrite q) s fun t =>
          t.recs q = [] ∧ t.cqOn q = false ∧ t.mem = s.mem ∧ t.reg (cqAt q + 0xC) = s.reg (cqAt q + 0xC)
            ∧ (s.heat.running = true → s.voidedBy t 0x0218)))
  ∧ (∀ (s : State) (q : CqId) (v : Word), q.wf = true →
      ((v - s.reg (cqAt q + 0x10)).toNat ≤ (s.reg (cqAt q + 0xC) - s.reg (cqAt q + 0x10)).toNat →
        Completes (.cqHead q v) s fun t =>
          t.reg (cqAt q + 0x10) = v ∧ t.reg (cqAt q + 0xC) = s.reg (cqAt q + 0xC) ∧ t.mem = s.mem)
      ∧ ((s.reg (cqAt q + 0xC) - s.reg (cqAt q + 0x10)).toNat < (v - s.reg (cqAt q + 0x10)).toNat →
        Completes (.cqHead q v) s fun t =>
          bit (t.regN (cqAt q + 0x18)) 1 = true ∧ t.reg (cqAt q + 0x10) = s.reg (cqAt q + 0x10)
            ∧ t = { s with regs := t.regs })
      ∧ (bit v.toNat 0 = true → 4 ≤ s.regN (cqAt q + 8) % 32 → s.regN (cqAt q + 8) % 32 ≤ 16 → q.badVector v.toNat = false →
        s.cqOn q = false → Completes (.cqEnable q v) s fun t =>
          t.reg (cqAt q + 0x14) = v &&& q.ctrlMask ∧ t.reg (cqAt q + 0xC) = 0 ∧ t.reg (cqAt q + 0x10) = 0 ∧ t.cqOn q = true
            ∧ t = { s with regs := t.regs, cqs := t.cqs })
      ∧ (bit v.toNat 0 = true → (s.regN (cqAt q + 8) % 32 < 4 ∨ 16 < s.regN (cqAt q + 8) % 32) →
        Completes (.cqEnable q v) s fun t => s.onlyGrey t ∧ t.reg (cqAt q + 0x14) = s.reg (cqAt q + 0x14)))

/-- R269, R274: POD_SHU_LP_PUSH with PUSH set puts the head that LO and HI name behind the others, up to four; a fifth is
ignored and sets its bit of POD_SHU_FAULT; LIST_PORT_FETCH in RUN makes the descriptor at the head of an idle port's list
active. R272, R273: EDG_BSH_GO arms the 16 shadow words and checks them, or is ignored while they are armed;
SHADOW_ACTIVATE in RUN makes them the channel's descriptor; EDG_BSH_STOP discards what is armed, whose record ends
ABORTED, and leaves the active descriptor. -/
def Obligations.ShuttleSources : Prop :=
  (∀ (s : State) (p lp : Nat) (x : ShuSrc), p < 384 → lp < 2 → x = .pod p (16 + lp) →
      (∀ v : Word, bit v.toNat 31 = true → ((lp == 0) && s.pfJob) = false →
        ((s.src x).heads.length < 4 → Completes (.podShuLpPush p lp v) s fun t =>
          (t.src x).heads = (s.src x).heads ++ [s.regN (shuAt p + 8 + 8 * lp) + v.toNat % 65536 * 2 ^ 32]
            ∧ t = { s with regs := t.regs, shu := t.shu })
        ∧ (4 ≤ (s.src x).heads.length → Completes (.podShuLpPush p lp v) s fun t =>
          t.shu = s.shu ∧ bit (t.regN (shuAt p + 0x1C)) 1 = true ∧ t.evt.grey = s.evt.grey + 1 ∧ t.mem = s.mem))
      ∧ (∀ v : Word, bit v.toNat 31 = false → Completes (.podShuLpPush p lp v) s fun t =>
          t.regN (shuAt p + 0xC + 8 * lp) = v.toNat % 65536 ∧ t = { s with regs := t.regs })
      ∧ (∀ a hs, s.regN pwrAt % 8 = 0 → (s.src x).active = none → s.stalled x = false → s.podDark p = false →
        (s.src x).cur = none → (s.src x).heads = a :: hs → s.checkRead (s.podWorld p) a 64 = .ok →
        s.recRefused x (x.queue (s.bytes a 64)) = false → Completes (.listPortFetch p lp) s fun t =>
          (∃ d, (t.src x).active = some d ∧ d.bytes = s.bytes a 64 ∧ d.ticket = s.ticket) ∧ (t.src x).heads = hs
            ∧ t.ticket = s.ticket + 1 ∧ t.mem = s.mem ∧ t.cores = s.cores))
  ∧ (∀ (s : State) (e ch : Nat) (x : ShuSrc), e < 4 → ch < 8 → x = .bulk e ch →
      (∀ v : Word, bit v.toNat 0 = true → s.rsvPf e ch = false →
        ((s.src x).armed = none → Completes (.edgBshGo e ch v) s fun t =>
          (t.src x).armed = some ((List.range 16).flatMap fun i => leBytes 4 (s.regN (bshAt e ch + 4 * i)))
            ∧ (∀ d, (t.src x).armed = some d → (t.src x).verdict = s.goCheck d)
            ∧ t = { s with regs := t.regs, shu := t.shu })
        ∧ ((s.src x).armed ≠ none → Completes (.edgBshGo e ch v) s fun t => s.onlyGrey t ∧ t.shu = s.shu))
      ∧ (∀ d, s.regN pwrAt % 8 = 0 → (s.src x).armed = some d → (s.src x).active = none → s.stalled x = false →
        s.recRefused x (x.queue d) = false → Completes (.shadowActivate e ch) s fun t =>
          (∃ a, (t.src x).active = some a ∧ a.bytes = d ∧ a.ticket = s.ticket ∧ a.verdict = some (s.src x).verdict) ∧ (t.src x).armed = none
            ∧ t.regN (bshAt e ch + 0x4C) = dTag d ∧ t.mem = s.mem ∧ t.cores = s.cores)
      ∧ (∀ d, (s.src x).armed = some d → s.recRefused x (x.queue d) = false → Completes (.edgBshStop e ch) s fun t =>
          (t.src x).armed = none ∧ (t.src x).active = (s.src x).active ∧ t.mem = s.mem
            ∧ ∃ r ∈ t.recs (x.queue d), r.ticket = s.ticket ∧ r.done = some (8, 0, 0)))

/-- R220, R236, R238, R240: HBM_SCRUB reads the next sector of a stack in ascending offset, and goes round behind the
last. A sound sector changes only where the scrubber is; one with a corrected symbol is written back, raises a Grey event
and is kept with its row; one beyond correction stays so, voids the attempt in progress, and after commit retires its row.
A symbol or an error that the read meets besides those of the state counts as struck just before (log 147). Without power,
or where the row names another offset, nothing happens. -/
def Obligations.ScrubberWorks : Prop :=
  ∀ (s : State) (k o a : Nat), k < 8 → o = Tab.get s.scrub.next k 0 → a = s.stackAddr k o → a < 0xA000000000 →
    (∀ x m, s.pins.powered = false ∨ x ≠ o → Completes (.hbmScrub k x m) s fun t => t = s)
    ∧ (s.pins.powered = true → a ∉ s.badEcc → a ∉ s.soft →
      ∀ m u, (m, u) ∈ [(SectorMet.corrected, { s with soft := s.soft ++ [a] }),
          (.lost, { s with soft := s.soft.filter (· != a), badEcc := s.badEcc ++ [a] })] →
        Completes (.hbmScrub k o m) s fun t => exec (.hbmScrub k o .sound) u = .next t)
    ∧ (s.pins.powered = true → Completes (.hbmScrub k o .sound) s fun t =>
        t.mem = s.mem ∧ t.badEcc = s.badEcc ∧ Tab.get t.scrub.next k 0 = (if stackBytes ≤ o + 32 then 0 else o + 32)
          ∧ (∀ j, j ≠ k → Tab.get t.scrub.next j 0 = Tab.get s.scrub.next j 0))
    ∧ (s.pins.powered = true → a ∉ s.badEcc → (∀ b ∈ s.soft, a + 32 ≤ b ∨ b + eccSize b ≤ a) →
      Completes (.hbmScrub k o .sound) s fun t => t = { s with scrub := t.scrub })
    ∧ (s.pins.powered = true → a ∉ s.badEcc → a ∈ s.soft → o + 32 < stackBytes → Completes (.hbmScrub k o .sound) s fun t =>
        (s.rowAt a, a) ∈ t.scrub.hits ∧ a ∉ t.soft ∧ t.heat = s.heat ∧ s.evt.grey + 1 ≤ t.evt.grey)
    ∧ (s.pins.powered = true → a ∈ s.badEcc → Completes (.hbmScrub k o .sound) s fun t =>
        (s.heat.running = true → s.voidedBy t 0x0302)
          ∧ (s.committed = true → s.retired.length < 16384 →
            ∃ e ∈ t.retired, e.row = s.rowAt (s.badAt a) ∧ e.origin = 2))

/-- R278, R281, R302, R307, R323: a port from OFF to QUARANTINE or down: training starts, its stages follow one another,
each time limit, a lost lane, a retrain and a hold take the port down with its cause; HOLD_DOWN keeps it OFF. R293, R303,
R304, R305: TRAIN flits in LLT: a good one keeps the port in LLT until the peer says OK and this port has had eight equal
ones; then a peer of another version or width takes it down, and one that fits makes the port UP with the peer's credits
where the fingerprints agree, and else QUARANTINE. -/
def Obligations.PortsTrain : Prop :=
  (∀ (s : State) (p : Nat), p < 16 →
      (s.committed = true → s.linkMode p ≠ 0 → s.holdDown p = false → s.linkState p = 0 → Completes (.portTrainStart p) s fun t =>
        t.linkState p = 1 ∧ (t.port p).since = s.now ∧ t = { s with regs := t.regs, ports := t.ports, heat := t.heat })
      ∧ (s.linkState p = 1 → Completes (.pmdTrainDone p) s fun t =>
        t.linkState p = 2 ∧ (t.port p).since = s.now ∧ t = { s with regs := t.regs, ports := t.ports, heat := t.heat })
      ∧ (s.linkState p = 2 → Completes (.pcsLock p) s fun t =>
        t.linkState p = 3 ∧ (t.port p).since = s.now ∧ t = { s with regs := t.regs, ports := t.ports, heat := t.heat })
      ∧ (∀ st lim cause, (st, lim, cause) ∈ [(1, 50000000, 3), (2, 1000000, 4), (3, 5000, 7)] → s.linkState p = st →
        lim ≤ (s.now - (s.port p).since).toNat → Completes (.trainStateTimeout p) s fun t => s.goesDown t p cause)
      ∧ (∀ st lane cause, lane < 4 → (st, cause) ∈ [(1, 3), (2, 4), (3, 4), (4, 4), (5, 4)] → s.linkState p = st →
        Completes (.lossOfBlockLock p lane) s fun t => s.goesDown t p cause)
      ∧ (s.linkState p = 4 ∨ s.linkState p = 5 → Completes (.lnkRetrain p) s fun t => s.goesDown t p 8)
      ∧ (Completes (.lnkHoldDown p true) s fun t => t.linkState p = 0 ∧ t.holdDown p = true ∧ t.mem = s.mem ∧ t.cores = s.cores)
      ∧ (Completes (.lnkHoldDown p false) s fun t =>
        t.holdDown p = false ∧ t.linkState p = s.linkState p ∧ t = { s with regs := t.regs }))
  ∧ (∀ (s : State) (p : Nat) (f : Flit) (w key : List Byte) (own : Bool), p < 16 → s.linkState p = 3 → flitCheck f = .good →
      fld (flitBytes f) 0 1 % 8 = 3 → w = sub (flitBytes f) 4 244 →
      key = setAt 0 w 3 (BitVec.ofNat 8 (fld w 3 1 - b2n (bit (fld w 0 4) 28) * 16)) →
      own = ((s.port p).rxOk || decide ((s.port p).train = key ∧ 7 ≤ (s.port p).same)) →
      (bit (fld w 0 4) 28 = false ∨ own = false → Completes (.trainFlit p f) s fun t =>
        t.linkState p = 3 ∧ (t.port p).peerOk = bit (fld w 0 4) 28 ∧ (t.port p).rxOk = own
          ∧ t = { s with regs := t.regs, ports := t.ports })
      ∧ (bit (fld w 0 4) 28 = true → own = true →
        (bits (fld w 0 4) 7 4 ≠ 1 ∨ bits (fld w 0 4) 19 16 ≠ 1 → Completes (.trainFlit p f) s fun t => s.goesDown t p 5)
        ∧ (bits (fld w 0 4) 7 4 = 1 → bits (fld w 0 4) 19 16 = 1 → bit (fld w 4 4) 20 ≠ decide (3 ≤ s.linkMode p) →
          Completes (.trainFlit p f) s fun t => s.goesDown t p 6)
        ∧ (bits (fld w 0 4) 7 4 = 1 → bits (fld w 0 4) 19 16 = 1 → bit (fld w 4 4) 20 = decide (3 ≤ s.linkMode p) →
          Completes (.trainFlit p f) s fun t =>
            (sub w 0x10 64 = fit 64 s.digest → t.linkState p = 4)
              ∧ (sub w 0x10 64 ≠ fit 64 s.digest → t.linkState p = 5 ∧ t.evt.grey = s.evt.grey + 1)
              ∧ (t.port p).credit = (List.range 4).map (fun i => fld w (8 + 2 * i) 2)
              ∧ (t.port p).expect = 0 ∧ (t.port p).inq = [] ∧ t.mem = s.mem ∧ t.cores = s.cores)))

/-- R280, R283 to R289, R294, R297, R298: received flits on a port that is up: the DATA flit with the expected SEQ puts
its message into the receive buffers and EXPECT advances; one with another SEQ sets NAK and delivers nothing; a bad or
stomped one is counted; a NULL flit raises the credits by what its counts advanced; a keepalive is kept with its time, and
one that comes 400 T-ticks after the last takes the port down; the codewords of every flit count. R280, R319, R320: an
Ethernet frame that is dropped, as one whose FCS an uncorrectable codeword spoils, counts and sets its bit of LNK_EVENT;
one that carries one flit acts as that flit does. -/
def Obligations.FlitsArrive : Prop :=
  (∀ (s : State) (p : Nat) (f : Flit) (b : List Byte), p < 16 → s.linkState p = 4 → b = flitBytes f →
      (flitCheck f = .good → fld b 0 1 % 8 = 1 → bit (fld b 0 4) 29 = false →
        (∀ m, m = Msg.ofBytes (sub b 4 244) → bits (fld b 0 4) 16 5 = (s.port p).expect →
          badMsg (bits (fld b 0 4) 4 3) (sub b 4 244) = false → (s.portWorld p = .sable ∨ m.sable = false) → m.mtype ≠ 8 →
          (m.hops ≠ 0 ∨ m.dst = s.node) → Completes (.dataFlit p f) s fun t =>
            (t.port p).inq = (s.port p).inq ++ [(bits (fld b 0 4) 4 3, (sub b 4 244).take 224)]
              ∧ (t.port p).expect = ((s.port p).expect + 1) % 4096 ∧ (t.port p).nak = false ∧ s.fecCounts t p f
              ∧ t = { s with regs := t.regs, ports := t.ports, wire := t.wire })
        ∧ (bits (fld b 0 4) 16 5 ≠ (s.port p).expect → Completes (.dataFlit p f) s fun t =>
            (t.port p).inq = (s.port p).inq ∧ (t.port p).expect = (s.port p).expect ∧ (t.port p).nak = true ∧ s.fecCounts t p f
              ∧ t = { s with regs := t.regs, ports := t.ports, wire := t.wire }))
      ∧ (∀ st o, (st, o) ∈ [(FlitSt.bad, 0x64), (.stomped, 0x68)] → flitCheck f = st → Completes (.dataFlit p f) s fun t =>
        t.reg (lnkAt p + o) = s.reg (lnkAt p + o) + 1 ∧ (t.port p).nak = true ∧ (t.port p).inq = (s.port p).inq
          ∧ (t.port p).expect = (s.port p).expect ∧ s.fecCounts t p f
          ∧ t = { s with regs := t.regs, ports := t.ports, wire := t.wire })
      ∧ (flitCheck f = .good → fld b 0 1 % 8 = 0 → bit (fld b 0 4) 29 = false → (s.port p).outq = [] →
        Completes (.nullFlit p f) s fun t =>
          (∀ i, i < 4 → (t.port p).credit.getD i 0
              = (s.port p).credit.getD i 0 + (fld b (4 + 2 * i) 2 + 65536 - (s.port p).peerCnt.getD i 0) % 65536)
            ∧ s.fecCounts t p f ∧ t = { s with regs := t.regs, ports := t.ports, wire := t.wire })
      ∧ (flitCheck f = .good → fld b 0 1 % 8 = 2 →
        (400 ≤ (s.now - (s.port p).lastKeep).toNat → Completes (.keepalive p f) s fun t => s.goesDown t p 1)
        ∧ ((s.now - (s.port p).lastKeep).toNat < 400 → bit (fld b 0 4) 29 = false → sub b 4 16 = s.fp →
          s.regN (lnkAt p + 0x1C) % 4 ≠ 1 → s.heat.active = false → Completes (.keepalive p f) s fun t =>
            (t.port p).lastKeep = s.now ∧ (t.port p).keep = sub b 4 244 ∧ (t.port p).echoTx = fld b 0x14 8
              ∧ t.linkState p = 4 ∧ s.fecCounts t p f
              ∧ t = { s with regs := t.regs, ports := t.ports, wire := t.wire, free := t.free })))
  ∧ (∀ (s : State) (p : Nat) (bs : List Byte) (corr uncorr : Nat), p < 16 → 3 ≤ s.linkMode p → 2 ≤ s.linkState p →
      s.linkState p ≤ 5 →
      (uncorr ≠ 0 ∨ s.frameFlits p bs = none → Completes (.ethFrame p ⟨bs, corr, uncorr⟩) s fun t =>
        t.reg (lnkAt p + 0x70) = s.reg (lnkAt p + 0x70) + 1 ∧ bit (t.regN (lnkAt p + 0x18)) 6 = true
          ∧ t = { s with regs := t.regs })
      ∧ ∀ (f : Flit) (k : Nat) (i : Instr),
        (k, i) ∈ [(0, Instr.nullFlit p f), (1, .dataFlit p f), (2, .keepalive p f), (3, .trainFlit p f)] →
        fld (flitBytes f) 0 1 % 8 = k → f.short = false → f.corr = corr → f.uncorr = 0 →
        s.frameFlits p bs = some [flitBytes f] → Completes (.ethFrame p ⟨bs, corr, 0⟩) s fun t => exec i s = .next t)

/-- R283, R286, R290, R292, R294, R297, R298, R319: what a port that is up sends by itself: a keepalive with the
fingerprint once per 100 T-ticks, a NULL flit with the credits returned, every unacknowledged flit once more after 2 µs; 4
µs of silence, and a replay after the eighth without an advance, take it down. R300, R301: a keepalive on the UP port
gives the offset of the timebase, for some phase `x` of its receipt within the T-tick and some rounding `h`: LNK_OFFSET
shows it; eight small offsets in a row lock the timebase, one above two T-ticks unlocks it; before the first lock one
above ten T-ticks steps the time once, and any other is slewed. -/
def Obligations.PortsSend : Prop :=
  (∀ (s : State) (p : Nat), p < 16 → s.linkState p = 4 →
      (s.keepDue p = false → Completes (.keepaliveSend p) s fun t => t = s)
      ∧ (s.keepDue p = true → (s.port p).tx = [] → Completes (.keepaliveSend p) s fun t =>
        (∃ f, s.firstOut t p f ∧ checkFlit f = .good ∧ fld f 0 1 % 8 = 2 ∧ sub f 4 16 = s.fp)
          ∧ (t.port p).told = (s.port p).ret ∧ t.keepDue p = false ∧ t.mem = s.mem ∧ t.heat = s.heat)
      ∧ ((s.port p).tx = [] → Completes (.creditFlitSend p) s fun t =>
        (∃ f, s.firstOut t p f ∧ checkFlit f = .good ∧ fld f 0 1 % 8 = 0)
          ∧ (t.port p).told = (s.port p).ret ∧ t.mem = s.mem ∧ t.heat = s.heat)
      ∧ ((s.port p).replay ≠ [] → 200 ≤ (s.now - (s.port p).lastAdv).toNat →
        ((s.port p).tries < 8 → Completes (.replayTimeout p) s fun t =>
          (t.port p).replay = (s.port p).replay
            ∧ (t.port p).tries = (s.port p).tries + 1 ∧ t.reg (lnkAt p + 0x6C) = s.reg (lnkAt p + 0x6C) + 1
            ∧ ((s.port p).tx = [] → s.linkMode p < 3 → (s.port p).sinceCounts + (s.port p).replay.length ≤ 32 →
              t.wire.length = s.wire.length + (s.port p).replay.length)
            ∧ t = { s with regs := t.regs, ports := t.ports, wire := t.wire })
        ∧ (8 ≤ (s.port p).tries → Completes (.replayTimeout p) s fun t => s.goesDown t p 2))
      ∧ (400 ≤ (s.now - (s.port p).lastKeep).toNat → Completes (.silence p) s fun t =>
        s.goesDown t p 1 ∧ (s.heat.running = true → p ∈ s.jobPorts → ∃ v ∈ t.heat.voids, v.code = 0x0601)))
  ∧ (∀ (s : State) (p : Nat) (f : Flit) (b : List Byte), p < 16 → s.linkState p = 4 → b = flitBytes f → flitCheck f = .good →
      fld b 0 1 % 8 = 2 → (s.now - (s.port p).lastKeep).toNat < 400 → bit (fld b 0 4) 29 = false → sub b 4 16 = s.fp →
      s.regN (lnkAt p + 0x1C) % 4 = 1 → s.heat.active = false → Completes (.keepalive p f) s fun t =>
        ∃ (x h : Nat) (off : Int), x < 14 ∧ h ≤ 1
          ∧ off = (((fld b 0x24 8 : Int) - (s.linkLat p).2 - (fld b 0x1C 8 + (s.linkLat p).1))
              - ((s.now.toNat * 14 + x : Nat) - (s.linkLat p).2 - (fld b 0x14 8 + (s.linkLat p).1)) + h) / 2
          ∧ t.regN (lnkAt p + 0x40) = ofInt 32 off
          ∧ t.time.run = (if off.natAbs ≤ 7 then s.time.run + 1 else 0)
          ∧ (28 < off.natAbs → t.time.locked = false)
          ∧ (off.natAbs ≤ 28 → t.time.locked = (s.time.locked || decide (8 ≤ t.time.run)))
          ∧ bit (t.regN (lnkAt p + 8)) 3 = t.time.locked
          ∧ (s.time.ever = false → s.time.stepped = false → 140 < off.natAbs →
            t.now = BitVec.ofNat 64 (((s.now.toNat * 14 + x : Nat) + off) / 14).toNat ∧ t.time.stepped = true ∧ t.time.want = 0)
          ∧ (s.time.ever = true ∨ s.time.stepped = true ∨ off.natAbs ≤ 140 → t.now = s.now ∧ t.time.want = off)
          ∧ t.mem = s.mem ∧ t.cores = s.cores ∧ t.heat = s.heat)

/-- R306, R312, R314: a message with hops left leaves through the port that HOP_A names, one hop fewer, its route moved
up, with the SEQ that a stomped flit kept open for it; where that port is not UP it is dropped and counted. -/
def Obligations.MessagesAreForwarded : Prop :=
  ∀ (s : State) (p vc : Nat) (m : Msg), s.headIs p vc m → vc < 4 → m.hops ≠ 0 →
    (s.sendsAtOnce m.hopA vc → Completes (.messageForward p vc) s fun t =>
      s.popped t p vc ∧ s.flitLeaves t m.hopA 1
          ({ m with hops := m.hops - 1, hopA := m.hopB, hopB := m.hopC, hopC := 0 } : Msg).bytes
        ∧ t = { s with regs := t.regs, ports := t.ports, wire := t.wire })
    ∧ (∀ sq, s.linkState m.hopA = 4 → (s.port m.hopA).hole = some (sq, p, vc) → sq < 4096 → (s.port m.hopA).tx = [] →
      Completes (.messageForward p vc) s fun t =>
        s.popped t p vc ∧ (t.port m.hopA).hole = none
          ∧ (∃ f, s.firstOut t m.hopA f ∧ checkFlit f = .good ∧ fld f 0 1 % 8 = 1 ∧ bits (fld f 0 4) 16 5 = sq)
          ∧ t = { s with regs := t.regs, ports := t.ports, wire := t.wire })
    ∧ (s.linkState m.hopA ≠ 4 → Completes (.messageForward p vc) s fun t =>
      s.popped t p vc ∧ t.reg (lnkAt p + 0x70) = s.reg (lnkAt p + 0x70) + 1 ∧ bit (t.regN (lnkAt p + 0x18)) 3 = true
        ∧ t.wire = s.wire ∧ t.mem = s.mem)

/-- R309, R315 to R318: WRITE and ATOMIC_ADD at HBM addresses that their world may write: the bytes, the sum modulo 2^32
or 2^64, and no other byte of memory; READ_REQ answers with the bytes by READ_RESP and changes no memory. R309, R566:
READ_RESP and ATOMIC_RESP, for which no unit of the device waits, leave the buffers and change nothing else; WRITE_ACK
takes its tag off the image that this device serves. -/
def Obligations.MemoryMessages : Prop :=
  (∀ (s : State) (p : Nat) (m : Msg), s.headIs p 2 m → m.hops = 0 → s.shuttlesWait = false → m.addr + m.len ≤ 0xA000000000 →
      (m.mtype = 1 → m.len ≤ 192 → s.check m.world m.addr m.len = .ok → Completes (.write p) s fun t =>
        t.bytes m.addr m.len = m.data.take m.len ∧ s.keepsOutside t m.addr m.len ∧ s.popped t p 2 ∧ t.cores = s.cores)
      ∧ (m.mtype = 2 → m.len ≤ 192 → s.checkRead m.world m.addr m.len = .ok → s.job.loaded = false → s.sendsAtOnce p 0 →
        (∀ b ∈ s.soft, apart (m.addr, m.len) (b, eccSize b)) →
        Completes (.readReq p) s fun t =>
          s.popped t p 2 ∧ s.flitLeaves t p 1
              ({ mtype := 3, sable := m.sable, len := m.len, mtag := m.mtag, srcId := portSource p, addr := m.addr, src := s.node,
                 dst := m.src, data := s.bytes m.addr m.len } : Msg).bytes
            ∧ t = { s with regs := t.regs, ports := t.ports, wire := t.wire })
      ∧ (m.mtype = 4 → (m.len = 4 ∨ m.len = 8) → s.checkRead m.world m.addr m.len = .ok → Completes (.atomicAdd p) s fun t =>
        t.word m.addr m.len = (s.word m.addr m.len + m.operand) % 2 ^ (8 * m.len) ∧ s.keepsOutside t m.addr m.len
          ∧ s.popped t p 2 ∧ t.cores = s.cores))
  ∧ (∀ (s : State) (p : Nat) (m : Msg), s.headIs p 0 m → m.hops = 0 →
      (m.mtype = 3 → Completes (.readResp p) s fun t => s.popped t p 0 ∧ t = { s with ports := t.ports })
      ∧ (m.mtype = 5 → Completes (.atomicResp p) s fun t => s.popped t p 0 ∧ t = { s with ports := t.ports })
      ∧ (m.mtype = 6 → (s.twin.serves.find? fun v => v.node == m.src && v.tags.contains m.mtag) = none →
        Completes (.writeAck p) s fun t => s.popped t p 0 ∧ t = { s with ports := t.ports })
      ∧ (∀ v, m.mtype = 6 → (s.twin.serves.find? fun v => v.node == m.src && v.tags.contains m.mtag) = some v →
        2 ≤ v.tags.length → Completes (.writeAck p) s fun t =>
          s.popped t p 0 ∧ (∃ w ∈ t.twin.serves, w = { v with tags := v.tags.erase m.mtag })
            ∧ t = { s with ports := t.ports, twin := t.twin }))

/-- R335, R336, R350, R351, R553, R558, R562: fragments, hurdle rounds, twin-link slots and mirror records that name
another attempt, no shard or no digest of this one are counted or told and change no memory; a fragment of an all-to-all
lands where its chunk and element say; a round of the attempt is kept; a digest of the attempt is kept. -/
def Obligations.CollectiveMessages : Prop :=
  ∀ (s : State) (p : Nat) (m : Msg), m.hops = 0 →
    (s.headIs p 1 m → m.mtype = 7 → s.shuttlesWait = false →
      (s.job.loaded = false → Completes (.collFrag p) s fun t =>
        s.popped t p 1 ∧ t.reg (rlyAt 0 + 0x20) = s.reg (rlyAt 0 + 0x20) + 1 ∧ t = { s with regs := t.regs, ports := t.ports })
      ∧ (∀ i k elem cnt, i = fld m.data 0 2 → k = fld m.data 4 4 → elem = fld m.data 8 4 → cnt = fld m.data 0xD 1 →
        s.job.loaded = true → i < s.collCount → s.cKind i = 4 → s.cIdle i = false → s.heat.running = true →
        s.heat.voids = [] → fld m.data 0xE 2 = s.stamp.1 % 65536 → fld m.data 0xC 1 = s.stamp.2 →
        s.fragBad i m.len m.data = false → (s.coll i).ended = false → s.gates.homesRead = [] →
        s.rlyCheck m.world (s.cDst i + k * s.cCount i + elem) cnt false = .ok → cnt ≤ 176 →
        Completes (.collFrag p) s fun t =>
          t.bytes (s.cDst i + k * s.cCount i + elem) cnt = sub m.data 0x10 cnt
            ∧ s.keepsOutside t (s.cDst i + k * s.cCount i + elem) cnt ∧ s.popped t p 1 ∧ t.cores = s.cores))
    ∧ (s.headIs p 0 m → m.mtype = 8 →
      (s.job.loaded = false → s.heat.active = false → Completes (.hurdle p) s fun t =>
        s.popped t p 0 ∧ t.reg (rlyAt 0 + 0x20) = s.reg (rlyAt 0 + 0x20) + 1 ∧ t = { s with regs := t.regs, ports := t.ports })
      ∧ (∀ e, s.job.loaded = true → s.heat.running = true → fld m.data 0x18 4 = s.heat.num →
        fld m.data 0x1C 1 = s.heat.attempt % 256 → bit (fld m.data 0x10 4) 16 = false → e = bits (fld m.data 0x10 4) 11 0 →
        e < s.hrdCount → fld m.data 0x14 2 = (s.hrd e).epoch → (s.hrd e).arrive = none → Completes (.hurdle p) s fun t =>
          (t.hrd e).got = (s.hrd e).got ++ [HrdRound.mk (fld m.data 0x14 2) (bits (fld m.data 0x10 4) 15 12)
              (BitVec.ofNat 64 (fld m.data 0x20 8)) (fld m.data 0x28 2)]
            ∧ (t.hrd e).epoch = (s.hrd e).epoch ∧ s.popped t p 0 ∧ t.mem = s.mem ∧ t.heat = s.heat))
    ∧ (s.headIs p 0 m → m.mtype = 9 →
      (badSlot (fit 64 m.data) = true → Completes (.mail p) s fun t => s.onlyGrey t ∧ s.popped t p 0)
      ∧ (∀ d, badSlot (fit 64 m.data) = false → fld m.data 0 2 = 0x781 → s.heat.running = true → s.heat.voids = [] →
        d = sub m.data 0x20 32 → fld d 4 4 = s.heat.num → fld d 3 1 = s.heat.attempt → Completes (.mail p) s fun t =>
          s.popped t p 0 ∧ ∃ x ∈ t.twin.rx, x.node = m.src ∧ x.tensor = fld d 0 3 ∧ x.crc = fld d 0x18 8
            ∧ x.blocks = fld d 0x10 4))
    ∧ (s.headIs p 3 m → m.mtype = 10 → s.sweepPaused = false →
      (s.job.loaded = false → Completes (.mirror p) s fun t => s.onlyGrey t ∧ s.popped t p 3)
      ∧ (∀ i k u gr, s.job.loaded = true → s.batonOf (fld m.data 0 2) = some i → s.heat.active = true →
        s.heat.running = true → s.heat.voids = [] → fld m.data 8 4 = s.heat.num → fld m.data 0xC 1 = s.heat.attempt →
        s.twin.stream = none → k = fld m.data 4 4 → k < s.shBlocks i → s.twin.again = [] →
        u = (s.popMsg p 3).shadowParams →
        gr = u.shadowStage i (fld m.data 0x30 1, unpackCodes 8 (sub m.data 0x10 32))
          (fld m.data 0x31 1, unpackCodes 8 (sub m.data 0x40 32)) →
        u.sweepCheck (u.shUnit i) (u.blockRanges i k false) (u.blockWrites (u.shUnit i) i k) = none →
        (u.blockOut i k gr).trouble.stops = false → Completes (.mirror p) s fun t =>
          t.reg64 (swpAt (s.shUnit i) + 0x20) = (s.reg64 (swpAt (s.shUnit i) + 0x20) + 1) % 2 ^ 64
            ∧ t.reg (swpAt (s.shUnit i) + 0x10) = s.reg (swpAt (s.shUnit i) + 0x10) + 1
            ∧ (k + 1 < s.shBlocks i → (k + 1) % 16384 ≠ 0 → s.twin.recs = [] → s.sweep.made = [] →
              u.blockApart (u.shUnit i) i k → t.cores = s.cores ∧ t.cursorLo i = k + 1)))

/-- R330, R332, R333, R345, R360: a mark or gate trigger, and a KICK of a collective that it may start, open the
collective; a 65th one of an engine voids the attempt and opens nothing; a collective whose work is complete ends with its
done word at FLAG, and voids the attempt where FLAG may not be written; RELEASE of an open KV_RING sends one fragment and
writes no memory; a KICK that may start nothing sets BAD_KICK and raises a Grey event. A KICK of a collective that has
ended runs it again (log 153). -/
def Obligations.CollectivesRun : Prop :=
  ∀ (s : State) (i e : Nat) (v : Word), s.cEngine i = e →
    (s.heat.running = true → s.heat.voids = [] → s.heat.held = false → i < s.collCount → (s.coll i).opened = false →
      s.regN pwrAt % 8 = 0 → s.trigReady i = true →
      (s.openCount e < 64 → Completes (.collectiveTrigger i) s fun t => (t.coll i).opened = true)
      ∧ (64 ≤ s.openCount e → Completes (.collectiveTrigger i) s fun t =>
        bit (t.regN (rlyAt e + 8)) 0 = true ∧ s.voidedBy t 0x0213 ∧ t.relay = s.relay ∧ t.mem = s.mem ∧ t.cores = s.cores))
    ∧ ((s.coll i).opened = true → (s.coll i).ended = false → s.heat.running = true → s.heat.voids = [] → s.cKind i ≠ 6 →
      s.collComplete i = true → s.rlyCheck (s.cWorld i) (s.cFlag i) 16 false = .ok → Completes (.collectiveEnd i) s fun t =>
        (t.coll i).ended = true
          ∧ (s.cReduce i = true → t.sweep.present = s.sweep.present ++ [s.cShard i])
          ∧ (s.cReduce i = false → s.cKind i ≠ 5 →
            t.bytes (s.cFlag i) 16
                = s.doneWord 0xFF 0 (if s.cKind i = 2 ∧ s.cPool i = true then (s.coll i).base else s.cDst i)
              ∧ s.keepsOutside t (s.cFlag i) 16 ∧ t.regN (rlyAt e + 0xC) = i % 2 ^ 32))
    ∧ ((s.coll i).opened = true → (s.coll i).ended = false → s.heat.running = true → s.heat.voids = [] → s.cKind i ≠ 6 →
      s.cIdle i = false → s.collComplete i = true → s.rlyCheck (s.cWorld i) (s.cFlag i) 16 false ≠ .ok →
      Completes (.collectiveEnd i) s fun t =>
        bit (t.regN (rlyAt e + 8)) 2 = true ∧ s.voidedBy t 0x0214 ∧ t.relay = s.relay ∧ t.sweep = s.sweep ∧ t.mem = s.mem
          ∧ t.cores = s.cores)
    ∧ (e < 4 → i = bits v.toNat 9 0 → s.job.loaded = true → i < s.collCount →
      (bit v.toNat 24 = false → s.cTrigger i = 0 → ((s.coll i).opened = false ∨ (s.coll i).ended = true) → s.heat.running = true → s.heat.held = false →
        s.openCount e < 64 → Completes (.edgRlyKick e v) s fun t => (t.coll i).opened = true)
      ∧ (bit v.toNat 24 = false →
        ((s.cTrigger i ≠ 0 ∧ s.cTrigger i ≠ 4) ∨ (s.cTrigger i = 0 ∧ (s.coll i).opened = true ∧ (s.coll i).ended = false)) →
        Completes (.edgRlyKick e v) s fun t =>
        bit (t.regN (rlyAt e + 8)) 1 = true ∧ t.evt.grey = s.evt.grey + 1 ∧ t.relay = s.relay ∧ t.mem = s.mem
          ∧ t.heat = s.heat)
      ∧ (s.cKind i = 5 → (s.coll i).opened = true → (s.coll i).ended = false → bits v.toNat 23 16 + 2 < s.cN i →
        Completes (.edgRlyRelease e v) s fun t =>
          t.reg64 (rlyAt e + 0x10) = (s.reg64 (rlyAt e + 0x10) + 1) % 2 ^ 64 ∧ t.relay = s.relay ∧ t.mem = s.mem
            ∧ t.heat = s.heat)
      ∧ (s.cKind i ≠ 5 → Completes (.edgRlyRelease e v) s fun t =>
        bit (t.regN (rlyAt e + 8)) 1 = true ∧ t.evt.grey = s.evt.grey + 1 ∧ t.relay = s.relay ∧ t.mem = s.mem
          ∧ t.heat = s.heat))

/-- R480, R481, R484, R507, R510: POWER_SAMPLE at a boundary that has no sample yet: INPUT_P is the sample's mean in W,
the sample's tick is kept, the total energy grows by its energy, the last 16 samples are kept; no memory changes, and
before commit nothing but that. At another tick nothing happens. R457, R479, R493, R503, R504, R505, R577: the power
controller's own events: an operating point that the rails have reached is in force; a floor not reached in 5 ms and a
sliver above 1 ms are told; LEAVING ends in RUN with a stagger delay; the delay ends; WAKE_HOLD_N holds the stagger. -/
def Obligations.PowerController : Prop :=
  (∀ (s : State) (uw pnc pcore : Nat),
      (s.sampleDue = false → Completes (.powerSample uw pnc pcore) s fun t => t = s)
      ∧ (s.pins.powered = true → s.pins.perst = false → s.now.toNat % 12500 = 0 → 12500 ≤ s.now.toNat →
        (s.pwr.samples = [] ∨ s.reg64 (pwrAt + 0x40) + 12500 ≠ s.now.toNat) → Completes (.powerSample uw pnc pcore) s fun t =>
          t.regN (railInAt + 4) = uw / 1000000 % 65536 ∧ t.reg64 (pwrAt + 0x40) = s.now.toNat - 12500
            ∧ t.reg64 (pwrAt + 0x30) = (s.reg64 (pwrAt + 0x30) + uw * 125 / 1000000) % 2 ^ 64
            ∧ t.pwr.samples = (uw :: s.pwr.samples).take 16 ∧ t.mem = s.mem
            ∧ (s.committed = false → t = { s with regs := t.regs, pwr := t.pwr })))
  ∧ (∀ s : State,
      (∀ op, s.pwr.slew = some (op, true) → op < 8 → Completes .opSlewDone s fun t =>
        t.effOp = op ∧ t.pwr.slew = none ∧ (∀ g, g < 16 → t.regN (railAt g + 8) = opMv op)
          ∧ t = { s with regs := t.regs, pwr := t.pwr })
      ∧ (∀ op, s.pwr.slew = some (op, false) → Completes .opSlewDone s fun t =>
        t.pwr.slew = none ∧ t.effOp = s.effOp
          ∧ (∀ g, g < 16 → opMv op + 10 ≤ t.regN (railAt g + 4) ∧ t.regN (railAt g + 4) ≤ opMv op + 60)
          ∧ t = { s with regs := t.regs, pwr := t.pwr })
      ∧ ((s.pst = 1 ∨ s.pst = 3) → 500000 ≤ (s.now - s.pwr.since).toNat → s.pwr.late = false → Completes .floorLate s fun t =>
        bit (t.regN (pwrAt + 0x1C)) 2 = true ∧ t.evt.grey = s.evt.grey + 1 ∧ t.pwr.late = true ∧ t.mem = s.mem
          ∧ t.cores = s.cores ∧ t.heat = s.heat)
      ∧ (s.pst = 5 → s.wantPst = 0 → Completes .leavingDone s fun t =>
        t.pst = 0
          ∧ t.pwr.stagger = some (s.now + BitVec.ofNat 64 (s.regN (pwrAt + 0x18) % 16 * 25000)) ∧ t.pwr.path = none)
      ∧ (∀ d, s.pwr.stagger = some d → d.toNat ≤ s.now.toNat → Completes .staggerEnd s fun t =>
        t.pwr.stagger = none ∧ bit (t.regN pwrAt) 7 = (s.pst == 0 && s.pins.wakeHold)
          ∧ (∀ a, a ≠ pwrAt → t.reg a = s.reg a) ∧ t = { s with regs := t.regs, pwr := t.pwr })
      ∧ (∀ level, Completes (.wakeHoldN level) s fun t =>
        t.pins = { s.pins with wakeHold := !level } ∧ (s.pst = 0 → level = false → bit (t.regN pwrAt) 7 = true)
          ∧ (∀ a, a ≠ pwrAt → t.reg a = s.reg a) ∧ t = { s with regs := t.regs, pins := t.pins })
      ∧ (∀ c, coreOk c = true → (s.core c).inSliver = true → (s.core c).longTold = false →
        100000 < (s.now - (s.core c).tookAt).toNat → Completes (.longSliver c) s fun t =>
          t.core c = { s.core c with longTold := true } ∧ (∀ k, k ≠ c → t.core k = s.core k)
            ∧ bit (t.regN (pwrAt + 0x1C)) 3 = true ∧ t.evt.grey = s.evt.grey + 1 ∧ t.mem = s.mem ∧ t.heat = s.heat))

/-- R473, R491, R492, R494: an idle pod that is on gates; a gated pod with an allowance takes one of its die's two wake
tokens and turns on, or waits and is counted; it is on when its soft start ends; a token returns after 3,200 ticks; a jog
pass counts its products. -/
def Obligations.PodsGateAndWake : Prop :=
  ∀ (s : State) (p : Nat), p < 384 →
    (s.regN (podPwrAt p) % 4 = 2 → s.podIdle p = true → Completes (.podGateOff p) s fun t =>
      t.regN (podPwrAt p) % 4 = 0 ∧ t.regN (podPwrAt p) / 4 = s.regN (podPwrAt p) / 4
        ∧ (∀ a, a ≠ podPwrAt p → t.reg a = s.reg a) ∧ t = { s with regs := t.regs })
    ∧ (s.podIdle p = false → Completes (.podGateOff p) s fun t => t = s)
    ∧ (∀ c ∈ s.podCores p, s.parkBit c = false → s.regN (podPwrAt p) % 4 = 0 → s.pst = 0 → s.committed = true →
      s.regN 4 % 8 ≠ 6 → s.rails.droop ≠ some (p / 12 / 2) →
      ((Tab.get s.pwr.tokens (p / 12) []).length < 2 → Completes (.podTurnOn p) s fun t =>
        t.regN (podPwrAt p) % 4 = 1 ∧ Tab.get t.pwr.tokens (p / 12) [] = Tab.get s.pwr.tokens (p / 12) [] ++ [s.now]
          ∧ t.reg (podPwrAt p + 0x34) = s.reg (podPwrAt p + 0x34) + 1 ∧ p ∉ t.pwr.tokenWait
          ∧ t = { s with regs := t.regs, pwr := t.pwr })
      ∧ (2 ≤ (Tab.get s.pwr.tokens (p / 12) []).length → p ∉ s.pwr.tokenWait → Completes (.podTurnOn p) s fun t =>
        t.reg (podPwrAt p) = s.reg (podPwrAt p) ∧ t.reg (pwrAt + 0x28) = s.reg (pwrAt + 0x28) + 1
          ∧ t.pwr = { s.pwr with tokenWait := s.pwr.tokenWait ++ [p] } ∧ t = { s with regs := t.regs, pwr := t.pwr }))
    ∧ (s.regN (podPwrAt p) % 4 = 1 → Completes (.softStartDone p) s fun t =>
      t.regN (podPwrAt p) % 4 = 2 ∧ (∀ a, a ≠ podPwrAt p → t.reg a = s.reg a) ∧ t = { s with regs := t.regs })
    ∧ (∀ d t0 rest, d < 32 → Tab.get s.pwr.tokens d [] = t0 :: rest → 3200 ≤ (s.now - t0).toNat →
      Completes (.wakeTokenReturn d) s fun t =>
        Tab.get t.pwr.tokens d [] = rest ∧ (∀ k, k ≠ d → Tab.get t.pwr.tokens k [] = Tab.get s.pwr.tokens k [])
          ∧ t = { s with pwr := t.pwr })
    ∧ (∀ c arr n, coreOk c = true → arr < 2 → s.coreExists c = true → s.podOn (corePod c) = true → s.pst = 0 →
      s.protDemand = 0 → s.parkBit c = false → s.coreBusy c = false → Completes (.syntheticArrayPass c arr n) s fun t =>
        t.reg64 (arrAt c arr + 0x20) = (s.reg64 (arrAt c arr + 0x20) + n) % 2 ^ 64
          ∧ t.pwr = { s.pwr with jogProd := s.pwr.jogProd + n } ∧ t = { s with regs := t.regs, pwr := t.pwr })

/-- R460, R461, R462, R463, R464, R465, R534: a set-point window moves the set point by its rule; a fast droop starts,
counts, ends and counts its root edges; a VCORE reading below floor is counted by both monitors and voids the attempt in
progress; one of another rail puts the device in the safe state; MINV_RESET restarts the record of the lowest reading.
R455, R456, R467, R469, R470, R471, R531, R533: a lost phase, a lost slice, a dark pod, a group and a pod above their
current limits and a cracked pod: what is lost is recorded, a pod that may not go on is dark, a rail that may not go on
puts the device in the safe state; 100 ms after a limit was lowered the previous one is gone. -/
def Obligations.RailsAndTheirParts : Prop :=
  (∀ (s : State) (g sensor mv : Nat), sensor < railSensors g → mv < 1024 → s.pins.powered = true →
      (g < 26 → s.now.toNat % 1000 = 0 → s.now ≠ 0 → s.railTarget g ≠ 0 → Tab.get? s.rails.wins g = none →
        (16 ≤ g ∨ s.pwr.slew = none) → Completes (.railSetpointWindow g mv sensor) s fun t =>
          t.regN (railAt g + 4) = nextSetPoint (s.railTarget g) (s.regN (railAt g + 4) % 1024) mv
            ∧ t.regN (railAt g + 0xC) % 1024 ≤ mv ∧ t = { s with regs := t.regs, rails := t.rails, free := t.free })
      ∧ (g < 16 → s.rails.droop = none → mv + 25 < s.railTarget g → Completes (.fastDroopStart g sensor mv) s fun t =>
        t.rails = { s.rails with droop := some g } ∧ t.reg (railAt g + 0x24) = s.reg (railAt g + 0x24) + 1
          ∧ t.regN (podPwrAt (24 * g + sensor / 4) + 0x10 + 4 * (sensor % 4)) = mv
          ∧ t = { s with regs := t.regs, rails := t.rails })
      ∧ (∀ k n, s.rails.droop = some k → n ≤ 64 → Completes (.fastDroopEnd n) s fun t =>
        t.rails = { s.rails with droop := none } ∧ t.reg64 (railAt k + 0x28) = (s.reg64 (railAt k + 0x28) + n) % 2 ^ 64
          ∧ t = { s with regs := t.regs, rails := t.rails })
      ∧ (g < 26 → mv + 60 < s.railTarget g →
        (g < 16 → s.rails.floors = [] → Completes (.droopFloor g sensor mv) s fun t =>
          (∀ h, h < 2 → bit (t.regN (safAt h + 4)) 3 = true ∧ t.reg (safAt h + 0x1C) = s.reg (safAt h + 0x1C) + 1)
            ∧ t.regN (podPwrAt (24 * g + sensor / 4) + 0x10 + 4 * (sensor % 4)) = mv
            ∧ t.safe = s.safe ∧ (s.heat.running = true → s.voidedBy t 0x0622)
            ∧ (s.heat.running = false → t.evt.grey = s.evt.grey + 1) ∧ t.mem = s.mem ∧ t.cores = s.cores)
        ∧ (16 ≤ g → Completes (.droopFloor g sensor mv) s fun t => t.safe = true ∧ t.heat.running = false ∨ s.safe = true))
      ∧ (g < 26 → Completes (.edgRailMinvReset g) s fun t =>
        t.regN (railAt g + 0xC) = 0x3FF ∧ t.reg64 (railAt g + 0x10) = 0
          ∧ (∀ a, a ≠ railAt g + 0xC → a ≠ railAt g + 0x10 → a ≠ railAt g + 0x14 → t.reg a = s.reg a)
          ∧ t = { s with regs := t.regs }))
  ∧ (∀ (s : State) (g p : Nat), s.pins.powered = true → s.safe = false → g < 26 → p < 384 → s.podDark p = false →
      (∀ ph, ph < railPhases g → 32 * g + ph ∉ s.rails.lost → Completes (.phaseLost g ph) s fun t =>
        t.rails.lost = s.rails.lost ++ [32 * g + ph]
          ∧ bits (t.regN (railAt g)) 15 8 = railPhases g - (t.rails.lost.filter fun x => x / 32 == g).length
          ∧ bit (t.regN (railAt g + 0x30)) 0 = true
          ∧ (16 ≤ g → 2 ≤ (t.rails.lost.filter fun x => x / 32 == g).length → t.safe = true) ∧ t.mem = s.mem)
      ∧ (∀ da, da < 65536 → 11 * railCap g < da → Completes (.railOvercurrent g da) s fun t =>
        t.regN (railAt g + 0x20) = da ∧ bit (t.regN (railAt g + 0x30)) 1 = true ∧ t.regN (railAt g + 4) = 0 ∧ t.safe = true
          ∧ t.mem = s.mem)
      ∧ (∀ ma, ma < 8192 → s.podLimit p < ma → Completes (.podOvercurrent p ma) s fun t =>
        t.podDark p = true ∧ t.regN (podPwrAt p + 8) = ma ∧ bit (t.regN (podPwrAt p + 0x30)) 3 = true ∧ t.safe = false
          ∧ (s.heat.running = true → s.voidedBy t 0x0603 ∧ t.heat.stopNow = true) ∧ t.mem = s.mem)
      ∧ (Completes (.sliceLost p) s fun t =>
        Tab.get t.rails.slices p 0 = Tab.get s.rails.slices p 0 + 1
          ∧ t.regN (podPwrAt p + 0xC) ≤ 600 * (8 - Tab.get t.rails.slices p 0)
          ∧ t.podDark p = decide (4 < Tab.get t.rails.slices p 0) ∧ t.mem = s.mem)
      ∧ (Completes (.podDark p) s fun t =>
        t.podDark p = true ∧ bit (t.regN (podPwrAt p + 0x30)) 1 = true ∧ t.regN (podPwrAt p) % 4 = 3
          ∧ (s.heat.running = true → s.voidedBy t 0x0603 ∧ t.heat.stopNow = true) ∧ t.mem = s.mem)
      ∧ (∀ bin drop, bin < 4 → drop < 256 → s.committed = true → s.podOn p = true → s.now.toNat % 100 = 0 →
        (drop ≤ s.regN (podPwrAt p + 0x20 + 4 * bin) % 256 + 12 → Completes (.crackMeasure p bin drop) s fun t =>
          Tab.get t.rails.cracks (4 * p + bin) 0 = 0 ∧ bits (t.regN (podPwrAt p + 0x20 + 4 * bin)) 15 8 = drop
            ∧ t = { s with regs := t.regs, rails := t.rails })
        ∧ (s.regN (podPwrAt p + 0x20 + 4 * bin) % 256 + 12 < drop → Tab.get s.rails.cracks (4 * p + bin) 0 = 7 →
          bits (s.regN (podPwrAt p + 4)) 14 10 = 0 → Completes (.crackMeasure p bin drop) s fun t =>
            bits (t.regN (podPwrAt p + 4)) 14 10 = 8 ∧ bit (t.regN (podPwrAt p + 0x30)) 2 = true
              ∧ t.regN (podPwrAt p + 0xC) ≤ 2400 ∧ t.mem = s.mem))
      ∧ (∀ l t0, Tab.get? s.rails.prev p = some (l, t0) → 10000000 ≤ (s.now - t0).toNat →
        Completes (.previousLimitEnd p) s fun t =>
          Tab.get? t.rails.prev p = none ∧ (∀ k, k ≠ p → Tab.get? t.rails.prev k = Tab.get? s.rails.prev k)
            ∧ t = { s with rails := t.rails }))

/-- R451, R454, R524, R535, R576: the input: a warning below 32.00 V and its end at 32.50 V; a trip below 30.00 V or above
42.00 V, and the critical trip of a hotspot, remove every rail and leave every register at its reset value; bring-up
between 32 and 42 V, unless the trip's latch is set, brings every rail to its nominal voltage; the latch clears below 5 V.
-/
def Obligations.InputAndTrips : Prop :=
  ∀ (s : State) (cv h : Nat), cv < 65536 → h < 396 →
    (s.pins.powered = true → cv < 3200 → Completes (.inputUvWarn cv) s fun t =>
      t.pins = { s.pins with uvWarn := true } ∧ t.regN railInAt % 65536 = cv ∧ bit (t.regN (railInAt + 8)) 0 = true
        ∧ t.evt.grey = s.evt.grey + 1 ∧ t.mem = s.mem ∧ t.cores = s.cores ∧ t.heat = s.heat)
    ∧ (s.pins.powered = true → 3250 ≤ cv → Completes (.inputUvRecover cv) s fun t =>
      t.pins = { s.pins with uvWarn := false } ∧ t.regN railInAt % 65536 = cv
        ∧ (∀ a, a ≠ railInAt → t.reg a = s.reg a) ∧ t = { s with regs := t.regs, pins := t.pins })
    ∧ (s.pins.powered = true → (cv < 3000 ∨ 4200 < cv) → Completes (.inputTrip cv) s fun t =>
      t.pins.powered = false ∧ t.pins.tripped = s.pins.tripped ∧ (∀ a, t.reg a = resetAt a) ∧ t.job.loaded = false
        ∧ t.heat.active = false ∧ (∀ a n, t.bytes a n = List.replicate n 0) ∧ t.hostMem = s.hostMem)
    ∧ (s.pins.powered = true → (4 ≤ (s.hot h).tripA ∨ 4 ≤ (s.hot h).tripB) → Completes (.criticalTrip h) s fun t =>
      t.pins.powered = false ∧ t.pins.tripped = true ∧ (∀ a, t.reg a = resetAt a) ∧ t.job.loaded = false
        ∧ t.heat.active = false ∧ (∀ a n, t.bytes a n = List.replicate n 0) ∧ t.hostMem = s.hostMem)
    ∧ (s.pins.powered = false → s.pins.tripped = false → 3200 ≤ cv → cv ≤ 4200 → Completes (.railBringUp cv) s fun t =>
      t.pins.powered = true ∧ t.pins.pwrGood = true
        ∧ (∀ g, g < 26 → t.regN (railAt g + 8) = railNominal g ∧ railNominal g + 10 ≤ t.regN (railAt g + 4)
          ∧ t.regN (railAt g + 4) ≤ railNominal g + 60) ∧ t.hostMem = s.hostMem)
    ∧ (s.pins.powered = false → s.pins.tripped = true → Completes (.railBringUp cv) s fun t => t = s)
    ∧ (s.pins.powered = false → cv < 500 → Completes (.thermTripNClear cv) s fun t =>
      t = { s with pins := { s.pins with tripped := false } })

/-- R511, R513, R516, R519, R521, R522: a reading is its hotspot's; a control period steps the thermal demand up at
THROTTLE and leaves it in the band around the target; 1 s without a coolant report is told and acts as a target level of
4; FLOW_FAIL_N low for 500 ticks is a sudden stop; an HBM temperature counts in the hottest one. -/
def Obligations.ThermalLoop : Prop :=
  ∀ s : State, s.pins.powered = true →
    (∀ h ra rb fa fb, h < 396 → ra < 4096 → rb < 4096 → s.now.toNat % 1000 = 0 →
      (∀ x ∈ (s.hot h).hist, x.1 ≠ s.now) → Completes (.sensorReading h ra rb fa fb) s fun t =>
        (t.hot h).a = ra ∧ (t.hot h).b = rb ∧ (t.hot h).read = true
          ∧ (t.hot h).tripA = (if 1100 ≤ ra then (s.hot h).tripA + 1 else 0)
          ∧ (t.hot h).tripB = (if 1100 ≤ rb then (s.hot h).tripB + 1 else 0)
          ∧ (∀ k, k ≠ h → t.hot k = s.hot k) ∧ t.mem = s.mem)
    ∧ (s.now.toNat % 5000 = 0 → s.thm.period ≠ some s.now → Completes .thermalPeriod s fun t =>
        t.thm.period = some s.now ∧ (s.thrLimit ≤ s.tBand → t.thmDemand = min 4 (s.thmDemand + 1))
          ∧ (s.tBand < s.thrLimit → s.tBand < s.theta + 20 → s.theta ≤ s.tBand + 30 → t.thmDemand = s.thmDemand)
          ∧ t.thm.hots = s.thm.hots ∧ t.mem = s.mem)
    ∧ (100000000 ≤ (s.now - s.thm.report.getD 0).toNat → s.thm.stepTick = none → s.coolLevel ≤ 4 →
      Completes .coolantStale s fun t =>
        bit (t.regN thmAt) 29 = true ∧ t.coolLevel = min 4 (s.coolLevel + 1)
          ∧ (bit (s.regN thmAt) 29 = false → s.evt.grey + 1 ≤ t.evt.grey) ∧ t.mem = s.mem)
    ∧ (Completes (.flowFailN true) s fun t => t = { s with thm := { s.thm with flowLow := none } })
    ∧ (∀ t0, s.thm.flowLow = some t0 → 500 ≤ (s.now - t0).toNat → bit (s.regN (safAt s.actHub + 4)) 2 = false →
      s.safe = false → Completes (.flowFailN false) s fun t => t.safe = true ∧ t.mem = s.mem)
    ∧ (∀ stack temp, stack < 8 → temp < 4096 → Completes (.hbmTemperatureReadout stack temp) s fun t =>
      Tab.get? t.thm.hbm stack = some temp ∧ temp ≤ t.regN thmAt % 4096
        ∧ t = { s with regs := t.regs, thm := { s.thm with hbm := t.thm.hbm } })

/-- R542, R543: a mismatch in the active hub hands the device over to a hub that stands by; a mismatch in the standby
loses it. R27, R375, R537, R538: a configuration check of two good copies is stamped and counted and changes nothing else;
two bad ones, and an unlocked clock, put the device in the safe state; the release of PERST_N brings the boot ROM up. -/
def Obligations.HubsAndConfig : Prop :=
  (∀ (s : State) (pair : Nat), pair < 2 → s.pins.powered = true →
      (s.role s.actHub = 1 → s.role (1 - s.actHub) = 0 → Completes (.hubTakeover pair) s fun t =>
        t.role s.actHub = 2 ∧ t.role (1 - s.actHub) = 1 ∧ t.mem = s.mem ∧ t.heat = s.heat)
      ∧ (s.role s.actHub = 1 → s.role (1 - s.actHub) = 0 → Completes (.standbyLost pair) s fun t =>
        t.role (1 - s.actHub) = 2 ∧ t.role s.actHub = 1 ∧ t.mem = s.mem ∧ t.heat = s.heat))
  ∧ (∀ s : State,
      (s.committed = true → s.safe = false → s.now.toNat % 1000000 = 0 → s.reg64 (safAt s.actHub + 0x10) ≠ s.now.toNat →
        (sha512 s.boot.imageA = s.digest → sha512 s.boot.imageB = s.digest → s.lkWrong s.boot.imageA = none →
          Completes .configCheck s fun t =>
            t.reg64 (safAt s.actHub + 0x10) = s.now.toNat
              ∧ t.reg (safAt s.actHub + 0x18) = s.reg (safAt s.actHub + 0x18) + 1 ∧ t = { s with regs := t.regs })
        ∧ (sha512 s.boot.imageA ≠ s.digest → sha512 s.boot.imageB ≠ s.digest → Completes .configCheck s fun t =>
            t.safe = true ∧ t.mem = s.mem))
      ∧ (s.pins.powered = true → s.pins.perst = false → s.safe = false → Completes .pllUnlock s fun t =>
        t.safe = true ∧ t.heat.running = false ∧ t.mem = s.mem)
      ∧ (s.pins.powered = true → s.pins.tripped = false → s.pins.perst = true → Completes .perstNRelease s fun t =>
        t.pins.perst = false ∧ t.hif = 1 ∧ t.mem = s.mem ∧ t.cores = s.cores))

/-- R364, R371, R374, R377: the PCI Express function: the end of D3hot, bus mastering, the size of BAR2, a failed request,
a link reset, the end of a vector's holdoff; a pending unmasked vector leaves as soon as it may. -/
def Obligations.HostFunctionWorks : Prop :=
  ∀ s : State,
    (Completes .returnToD0 s fun t =>
      t.host.d3hot = false ∧ t.host.bme = s.host.bme ∧ t = { s with host := t.host }
        ∧ ∀ v ∈ s.host.pba, s.host.bme = true → s.host.linkUp = true → s.vecMasked v = false →
          Tab.get? s.host.lastSent v = none → v ∈ t.host.sent ∧ v ∉ t.host.pba)
    ∧ (Completes .busMasterEnable s fun t =>
      t.host.bme = true ∧ t.host.d3hot = s.host.d3hot ∧ t = { s with host := t.host }
        ∧ ∀ v ∈ s.host.pba, s.host.d3hot = false → s.host.linkUp = true → s.vecMasked v = false →
          Tab.get? s.host.lastSent v = none → v ∈ t.host.sent ∧ v ∉ t.host.pba)
    ∧ (∀ n, 30 ≤ n → n ≤ 40 → Completes (.bar2Resize n) s fun t =>
      t.host = { s.host with bar2lg := n } ∧ t.reg64 0x14 = 0 ∧ (∀ a, a ≠ 0x14 → a ≠ 0x18 → t.reg a = s.reg a)
        ∧ t = { s with regs := t.regs, host := t.host })
    ∧ (∀ a, Completes (.hostDmaFail a) s fun t =>
      bit (t.regN 0x1C) 3 = true ∧ t.evt.grey = s.evt.grey + 1 ∧ t.mem = s.mem ∧ t.hostMem = s.hostMem ∧ t.heat = s.heat)
    ∧ (∀ v, v < 64 → v ∈ s.host.waiting → s.host.bme = true → s.host.d3hot = false → s.host.linkUp = true →
      s.vecMasked v = false → (∀ t0, Tab.get? s.host.lastSent v = some t0 → s.regN 0x28 % 2 ^ 16 ≤ (s.now - t0).toNat) →
      Completes (.msixHoldoffEnd v) s fun t =>
        t.host.sent = s.host.sent ++ [v] ∧ v ∉ t.host.waiting ∧ t = { s with host := t.host })
    ∧ (s.pins.powered = true → s.pins.perst = false → Completes .pcieLinkReset s fun t =>
      t.host.msix = [] ∧ t.host.bme = false ∧ t.host.bar2lg = 30 ∧ bit (t.regN 0x1C) 4 = true
        ∧ t.evt.grey = s.evt.grey + 1 ∧ t.mem = s.mem ∧ t.cores = s.cores ∧ t.heat = s.heat ∧ t.job = s.job)

/-- R365, R367, R371: the host's accesses: a write of a request ring stores its bytes; a read of a ring brings them; a
doorbell page is the doorbell command; an unmapped offset sets bit 0 of HIF_FAULT and a read of it completes with an
abort; a BAR2 access that passes its check moves exactly its bytes, and a write into a home that the gradient path has
read is a late lap; a read mends the correctable words that it meets; one that is refused moves none; while the function
is off the bus nothing happens. -/
def Obligations.HostAccesses : Prop :=
  ∀ (s : State) (off n m : Nat) (bs : List Byte) (v : Word),
    (s.hostOpen = true → off < 0x4000000 →
      (m < 10 → 0x1000000 + 0x8000 * m ≤ off → off + bs.length ≤ 0x1004000 + 0x8000 * m → bs ≠ [] →
        Completes (.bar0Access off (some bs) n) s fun t =>
          Memory.readN t.hubMem off bs.length = bs
            ∧ (∀ b, b < off ∨ off + bs.length ≤ b → t.hubMem.read b = s.hubMem.read b) ∧ t = { s with hubMem := t.hubMem })
      ∧ (m < 10 → 0x1004000 + 0x8000 * m ≤ off → off + n ≤ 0x1008000 + 0x8000 * m → n ≠ 0 →
        Completes (.bar0Access off none n) s fun t =>
          t = { s with host := { s.host with lastRead := some (Memory.readN s.hubMem off n) } })
      ∧ (m < 10 → off = mbxAt m → exec (.bar0Access off (some (leBytes 4 v.toNat)) n) s = exec (.hubMbxDoorbell m v) s)
      ∧ (bar0Map off = .none → n ≠ 0 → Completes (.bar0Access off none n) s fun t =>
        bit (t.regN 0x1C) 0 = true ∧ t.reg 0x2C = s.reg 0x2C + 1 ∧ t.host.lastRead = none ∧ t.mem = s.mem
          ∧ t.cores = s.cores))
    ∧ (s.hostOpen = true → off < 0x10000000000 → off < 2 ^ s.host.bar2lg →
      (bs ≠ [] → (s.bar2Check off bs.length false).2 = .ok → Completes (.bar2Access off (some bs) n) s fun t =>
        t.bytes (s.reg64 0x14 + off) bs.length = bs ∧ s.keepsOutside t (s.reg64 0x14 + off) bs.length ∧ t.cores = s.cores
          ∧ ((∀ i ∈ s.gates.homesRead, apart (t.homeAddr i, 4096) (s.reg64 0x14 + off, bs.length)) → t.heat = s.heat)
          ∧ (∀ i ∈ s.gates.homesRead, ¬ apart (t.homeAddr i, 4096) (s.reg64 0x14 + off, bs.length) → s.heat.running = true →
            s.voidedBy t 0x0205))
      ∧ (bs ≠ [] → (s.bar2Check off bs.length false).2 = .denied → Completes (.bar2Access off (some bs) n) s fun t =>
        bit (t.regN 0x1C) 1 = true ∧ t.evt.grey = s.evt.grey + 1 ∧ t.mem = s.mem ∧ t.cores = s.cores ∧ t.heat = s.heat)
      ∧ (n ≠ 0 → (s.bar2Check off n true).2 = .ok → Completes (.bar2Access off none n) s fun t =>
        t.host.lastRead = some (s.bytes (s.reg64 0x14 + off) n) ∧ t.mem = s.mem ∧ t.cores = s.cores ∧ t.heat = s.heat
          ∧ (∀ b ∈ s.soft, ¬ apart (b, eccSize b) (s.reg64 0x14 + off, n) → b ∉ t.soft)))
    ∧ (s.hostOpen = false → off < 0x4000000 →
      (Completes (.bar0Access off (some bs) n) s fun t => t = s) ∧ (Completes (.bar2Access off (some bs) n) s fun t => t = s))

/-- R416, R419, R420, R421, R422, R423, R425, R428: GO outside HIF_STATE 1 and 7 is ignored; an image that fails a check
leaves its RESULT and HIF_STATE 7; one that passes starts the firmware, with a fresh identity at ENROL; self-test ends
with the core map it found, in HIF_STATE 4, or in the safe state; it starts by itself after 1 s. -/
def Obligations.DeviceBoots : Prop :=
  ∀ s : State,
    (∀ (i : Instr) (en : Bool) (img : List Byte) (r : Nat), (i, en) ∈ [(Instr.bootGo, false), (.bootEnrol, true)] →
      img = Memory.readN s.hubMem 0x800000 (min s.imgLen (6 * 2 ^ 20)) →
      r = bootResult s.imgLen s.helperOff (s.regN (bootAt + 0x14)) en img →
      ((s.hif ≠ 1 → s.hif ≠ 7 → Completes i s fun t => t = s)
        ∧ ((s.hif = 1 ∨ s.hif = 7) → r ≠ 1 → Completes i s fun t =>
          t.regN (bootAt + 0xC) = r ∧ t.hif = 7 ∧ t = { s with regs := t.regs })
        ∧ ((s.hif = 1 ∨ s.hif = 7) → r = 1 → Completes i s fun t =>
          t.hif = 3 ∧ t.regN (bootAt + 0xC) % 256 = 1 ∧ t.boot.fwDigest = sha512 img ∧ t.boot.t3 = s.now
            ∧ t.regN (bootAt + 0x10) = fld img 8 4 ∧ (en = true → bits (t.regN (bootAt + 0xC)) 9 8 = 3)
            ∧ (en = false → s.helperOff = 0 → bits (t.regN (bootAt + 0xC)) 9 8 = 2 ∧ t.boot.seed = none)
            ∧ t.mem = s.mem ∧ t.cores = s.cores)))
    ∧ (∀ r : SelfTest, r.wf = true → s.hif = 3 → s.boot.testing = true →
      (r.failed = none → Completes (.selftestDone r) s fun t =>
        t.hif = 4 ∧ (∀ p, p < 384 → (Tab.get t.coreMap p 0).toNat
            = mapWord ((r.badSlots.filter fun (x : Nat × Nat) => x.1 == p).map fun (x : Nat × Nat) => x.2)
                (r.badPods.contains p)) ∧ t.mem = s.mem)
      ∧ (∀ u, r.failed = some u → Completes (.selftestDone r) s fun t => t.hif = 6 ∧ t.mem = s.mem))
    ∧ (s.hif = 3 → s.boot.testing = false → (∀ d ∈ s.hub.deferred, d.op ≠ 0x900) →
      100000000 ≤ (s.now - s.boot.t3).toNat → Completes .selftestWindowExpiry s fun t =>
        t = { s with boot := { s.boot with testing := true, handback := [] } })

/-- R579, R580, R581: the sideband: a private write of the request ring and a private read of either ring of the tray
mailbox move exactly their bytes; a write that breaks the window's rules has no effect; an address that is not
acknowledged gets no answer; SETDASA and ENTDAA give an address to a target that has none, RSTDAA takes it away; SETMWL,
and the two commands of the In-Band Interrupts, set what they name. -/
def Obligations.SidebandWorks : Prop :=
  ∀ s : State,
    (∀ (off : Nat) (data : List Byte), s.i3cAck = true → i3cFits off data.length = true → off < 0x4000 →
      Completes (.i3cPrivateWrite off data) s fun t =>
        Memory.readN t.hubMem (0x1050000 + off) data.length = data
          ∧ (∀ b, b < 0x1050000 + off ∨ 0x1050000 + off + data.length ≤ b → t.hubMem.read b = s.hubMem.read b)
          ∧ t = { s with hubMem := t.hubMem })
    ∧ (∀ (off : Nat) (data : List Byte), (s.i3cAck = false ∨ i3cFits off data.length = false) →
      Completes (.i3cPrivateWrite off data) s fun t => t = s)
    ∧ (∀ off n, s.i3cAck = true → i3cFits off n = true → off < 0x8000 → Completes (.i3cPrivateRead off n) s fun t =>
      t = { s with i3c := { s.i3c with answer := some (Memory.readN s.hubMem (0x1050000 + off) n) } })
    ∧ (∀ off n, s.i3cAck = false → Completes (.i3cPrivateRead off n) s fun t =>
      t = { s with i3c := { s.i3c with answer := none } })
    ∧ (∀ a, a < 128 → s.i3c.dyn = none →
      (s.i3cAck = true → Completes (.setdasa a) s fun t => t.i3c.dyn = some a ∧ t = { s with i3c := t.i3c })
      ∧ (s.i3cOn = true → Completes (.entdaa a) s fun t => t.i3c.dyn = some a ∧ t = { s with i3c := t.i3c }))
    ∧ (∀ a, a < 128 → s.i3c.dyn ≠ none →
      (Completes (.setdasa a) s fun t => t = s) ∧ (Completes (.entdaa a) s fun t => t = s))
    ∧ (s.i3cOn = true →
      (Completes .rstdaa s fun t => t = { s with i3c := { s.i3c with dyn := none } })
      ∧ (∀ n, Completes (.setmwl n) s fun t => t = { s with i3c := { s.i3c with mwl := some (n % 65536) } })
      ∧ (Completes .ibiEnable s fun t => t.i3c.ibi = true ∧ t.i3c.dyn = s.i3c.dyn ∧ t = { s with i3c := t.i3c })
      ∧ (Completes .ibiDisable s fun t => t = { s with i3c := { s.i3c with ibi := false } }))

/-- R362: D3hot disables memory decoding and interrupt messages of the function: in it, no access of BAR0 or BAR2 reaches
the device and no vector leaves; entering it changes nothing else, so that no job, heat, port or safety function stops; a
return to D0 restores the decoding of both BARs with their previous contents. -/
def Obligations.D3hotDisablesDecoding : Prop :=
  ∀ s : State,
    (Completes .d3hotEntry s fun t => t = { s with host := { s.host with d3hot := true } })
    ∧ (s.host.d3hot = true →
      (∀ off bs n, off < 0x4000000 → Completes (.bar0Access off (some bs) n) s fun t => t = s)
      ∧ (∀ off n, off < 0x4000000 → Completes (.bar0Access off none n) s fun t =>
          t = { s with host := { s.host with lastRead := none } })
      ∧ (∀ off bs n, off < 0x10000000000 → Completes (.bar2Access off (some bs) n) s fun t => t = s)
      ∧ (∀ off n, off < 0x10000000000 → Completes (.bar2Access off none n) s fun t =>
          t = { s with host := { s.host with lastRead := none } })
      ∧ (∀ v, (s.signal v).host.sent = s.host.sent)
      ∧ Completes .returnToD0 s fun t =>
          t = { s with host := t.host } ∧ t.host.bar2lg = s.host.bar2lg ∧ t.host.msix = s.host.msix
            ∧ t.hostOpen = (s.pins.powered && !s.pins.perst && s.host.linkUp && s.hif != 0))

/-- R376, R11: an assertion of PERST_N resets the whole device: what it leaves is the state after reset (the pin, host
memory, which is not the device's, and the model's own queue and count of free values apart), so that no job is loaded, no
ring holds an entry and no key is kept. -/
def Obligations.PerstResetsTheDevice : Prop :=
  ∀ s : State, Completes .perstNAssert s fun t =>
    t = { State.reset with
          pending := s.pending, hostMem := s.hostMem, free := s.free, pins := { s.pins with perst := true } }
      ∧ t.job.loaded = false ∧ t.heat.active = false ∧ t.committed = false ∧ t.boot.seed = none ∧ t.hub.deferred = []
      ∧ (∀ a, t.reg a = resetAt a) ∧ (∀ a, t.hubMem.read a = 0) ∧ ∀ a, t.mem.read a = 0

/-- R373: a CQ_CTRL write that sets IRQ with a vector below 16 is ignored and a Grey event goes out; one that is admitted
turns its queue on whatever vector another queue has, so that two queues may share one. -/
def Obligations.QueueVectors : Prop :=
  ∀ (s : State) (e k e2 k2 : Nat) (v : Word), e < 4 → k < 8 → e2 < 4 → k2 < 8 →
    (bit v.toNat 1 = true → bits v.toNat 13 8 < 16 → Completes (.cqEnable (.edge e k) v) s fun t =>
      s.onlyGrey t ∧ t.reg (cqAt (.edge e k) + 0x14) = s.reg (cqAt (.edge e k) + 0x14))
    ∧ (bit v.toNat 0 = true → bit v.toNat 1 = true → 16 ≤ bits v.toNat 13 8 → (e, k) ≠ (e2, k2) →
      (∀ q ∈ [CqId.edge e k, .edge e2 k2], 4 ≤ s.regN (cqAt q + 8) % 32 ∧ s.regN (cqAt q + 8) % 32 ≤ 16) →
      Completes (.cqEnable (.edge e k) v) s fun t => Completes (.cqEnable (.edge e2 k2) v) t fun u =>
        u.cqOn (.edge e k) = true ∧ u.cqOn (.edge e2 k2) = true
          ∧ bits (u.regN (cqAt (.edge e k) + 0x14)) 13 8 = bits v.toNat 13 8
          ∧ bits (u.regN (cqAt (.edge e2 k2) + 0x14)) 13 8 = bits v.toNat 13 8)
end

