-- ==== Sys2Proof/Laws/Bits.lean ====
section
/-!
SUPPORT. Laws of byte lists: lengths, the byte order there and back, fields of joined lists, the range of the CRC.
-/
namespace Sys2Proof.Machine

@[simp] theorem leBytes_length (n x : Nat) : (leBytes n x).length = n := by
  induction n generalizing x with
  | zero => rfl
  | succ n ih => simp [leBytes, ih]

theorem leNat_leBytes (n x : Nat) : leNat (leBytes n x) = x % 256 ^ n := by
  induction n generalizing x with
  | zero => simp [leBytes, leNat, Nat.mod_one]
  | succ n ih =>
    have h : x % 256 ^ (n + 1) = x % 256 + 256 * (x / 256 % 256 ^ n) := by rw [Nat.pow_succ, Nat.mul_comm, Nat.mod_mul]
    rw [leBytes, leNat, ih, BitVec.toNat_ofNat, h]

theorem leNat_lt (b : List Byte) : leNat b < 256 ^ b.length := by
  induction b with
  | nil => simp [leNat]
  | cons a t ih =>
    have := a.isLt
    rw [leNat, List.length_cons, Nat.pow_succ']
    omega

theorem leBytes_leNat (b : List Byte) : leBytes b.length (leNat b) = b := by
  induction b with
  | nil => rfl
  | cons a t ih =>
    have h : a.toNat < 256 := a.isLt
    have h1 : (a.toNat + 256 * leNat t) / 256 = leNat t := by omega
    have h2 : BitVec.ofNat 8 (a.toNat + 256 * leNat t) = a := by
      apply BitVec.eq_of_toNat_eq
      rw [BitVec.toNat_ofNat]
      omega
    rw [List.length_cons, leNat, leBytes, h1, h2, ih]

@[simp] theorem fit_length (n : Nat) (b : List Byte) : (fit n b).length = n := by simp [fit]; omega

theorem fit_self (b : List Byte) : fit b.length b = b := by simp [fit]

@[simp] theorem sub_length (b : List Byte) (o n : Nat) : (sub b o n).length = n := by simp [sub]

/-- A field that ends a joined list. -/
theorem sub_append_right (a b : List Byte) : sub (a ++ b) a.length b.length = b := by
  simp [sub, fit_self]

/-- A field that lies in the first part of a joined list. -/
theorem sub_append_left (a b : List Byte) (o n : Nat) (h : o + n ≤ a.length) : sub (a ++ b) o n = sub a o n := by
  have h1 : n ≤ (a.drop o).length := by simp; omega
  have h2 : o ≤ a.length := by omega
  rw [sub, sub, List.drop_append_of_le_length h2, fit, fit, List.append_assoc, List.take_append_of_le_length h1,
    List.take_append_of_le_length h1]

theorem crc64Byte_lt (c : Nat) (b : Byte) (h : c < 2 ^ 64) : crc64Byte c b < 2 ^ 64 := by
  have step : ∀ (l : List Nat) (c : Nat), c < 2 ^ 64 → l.foldl (fun c _ =>
      if bit c 63 then ((c <<< 1) % 2 ^ 64) ^^^ 0x42F0E1EBA9EA3693 else (c <<< 1) % 2 ^ 64) c < 2 ^ 64 := by
    intro l
    induction l with
    | nil => exact fun c h => h
    | cons x t ih =>
      intro c _
      apply ih
      have hm : (c <<< 1) % 2 ^ 64 < 2 ^ 64 := Nat.mod_lt _ (by decide)
      dsimp only
      split
      · exact Nat.xor_lt_two_pow hm (by decide)
      · exact hm
  apply step
  apply Nat.xor_lt_two_pow h
  have := b.isLt
  rw [Nat.shiftLeft_eq]
  omega

theorem crc64From_lt (b : List Byte) (c : Nat) (h : c < 2 ^ 64) : crc64From c b < 2 ^ 64 := by
  induction b generalizing c with
  | nil => exact h
  | cons x t ih => exact ih _ (crc64Byte_lt c x h)

theorem crc64Init_lt (i f : Nat) (b : List Byte) (hi : i < 2 ^ 64) (hf : f < 2 ^ 64) : crc64Init i f b < 2 ^ 64 :=
  Nat.xor_lt_two_pow (crc64From_lt b i hi) hf

/-- R205: the digest of zero bytes is 0. -/
theorem crc64_zeros (n : Nat) : crc64 (List.replicate n 0) = 0 := by
  induction n with
  | zero => rfl
  | succ n ih => exact ih

theorem crc32Byte_lt (c : Nat) (b : Byte) (h : c < 2 ^ 32) : crc32Byte c b < 2 ^ 32 := by
  have step : ∀ (l : List Nat) (c : Nat), c < 2 ^ 32 → l.foldl (fun c _ =>
      if bit c 0 then (c >>> 1) ^^^ 0xEDB88320 else c >>> 1) c < 2 ^ 32 := by
    intro l
    induction l with
    | nil => exact fun c h => h
    | cons x t ih =>
      intro c hc
      apply ih
      have hm : c >>> 1 < 2 ^ 32 := by rw [Nat.shiftRight_eq_div_pow]; omega
      dsimp only
      split
      · exact Nat.xor_lt_two_pow hm (by decide)
      · exact hm
  apply step
  exact Nat.xor_lt_two_pow h (Nat.lt_trans b.isLt (by decide))

theorem crc32_lt (b : List Byte) : crc32 b < 2 ^ 32 := by
  have step : ∀ (b : List Byte) (c : Nat), c < 2 ^ 32 → b.foldl crc32Byte c < 2 ^ 32 := by
    intro b
    induction b with
    | nil => exact fun c h => h
    | cons x t ih => exact fun c h => ih _ (crc32Byte_lt c x h)
  exact Nat.xor_lt_two_pow (step b _ (by decide)) (by decide)

end Sys2Proof.Machine
end

