-- ==== Sys2Proof/Laws/Memory.lean ====
section
/-!
SUPPORT. What the tables and memories do: a read after a write, bytes outside a write, the canonical form.
-/
namespace Sys2Proof.Machine

theorem Tab.get?_cons {α : Type} (k : Nat) (v : α) (t : Tab α) (j : Nat) :
    Tab.get? ((k, v) :: t) j = if k = j then some v else Tab.get? t j := by
  by_cases h : k = j <;> simp [Tab.get?, h]

/-- The entry that was set is the one that is found. -/
@[simp] theorem Tab.get?_set_same {α : Type} (t : Tab α) (k : Nat) (v : α) : Tab.get? (Tab.set t k v) k = some v := by
  induction t with
  | nil => simp [Tab.set, Tab.get?_cons]
  | cons p t ih =>
    obtain ⟨k', v'⟩ := p
    simp only [Tab.set]
    split
    · simp [Tab.get?_cons]
    · split
      · simp [Tab.get?_cons]
      · rename_i h; rw [Tab.get?_cons, if_neg (Ne.symm h), ih]

/-- Every other entry is as before. -/
theorem Tab.get?_set_ne {α : Type} (t : Tab α) {k j : Nat} (v : α) (h : k ≠ j) : Tab.get? (Tab.set t k v) j = Tab.get? t j := by
  induction t with
  | nil => simp [Tab.set, h, Tab.get?]
  | cons p t ih =>
    obtain ⟨k', v'⟩ := p
    simp only [Tab.set]
    split
    · simp [Tab.get?_cons, h]
    · split
      · rename_i e; subst e; simp [Tab.get?_cons, h]
      · simp [Tab.get?_cons, ih]

@[simp] theorem Tab.get_set_same {α : Type} (t : Tab α) (k : Nat) (v d : α) : Tab.get (Tab.set t k v) k d = v := by
  simp [Tab.get]

theorem Tab.get_set_ne {α : Type} (t : Tab α) {k j : Nat} (v d : α) (h : k ≠ j) : Tab.get (Tab.set t k v) j d = Tab.get t j d := by
  simp [Tab.get, Tab.get?_set_ne t v h]

/-- An entry that was taken out is not found. -/
@[simp] theorem Tab.get?_del_same {α : Type} (t : Tab α) (k : Nat) : Tab.get? (Tab.del t k) k = none := by
  induction t with
  | nil => rfl
  | cons p t ih =>
    by_cases h : p.1 = k
    · rw [show Tab.del (p :: t) k = Tab.del t k by simp [Tab.del, h]]; exact ih
    · rw [show Tab.del (p :: t) k = p :: Tab.del t k by simp [Tab.del, h], Tab.get?_cons, if_neg h]; exact ih

/-- Every other entry is as before. -/
theorem Tab.get?_del_ne {α : Type} (t : Tab α) {k j : Nat} (h : k ≠ j) : Tab.get? (Tab.del t k) j = Tab.get? t j := by
  induction t with
  | nil => rfl
  | cons p t ih =>
    by_cases e : p.1 = k
    · rw [show Tab.del (p :: t) k = Tab.del t k by simp [Tab.del, e], Tab.get?_cons, if_neg (e ▸ h)]; exact ih
    · rw [show Tab.del (p :: t) k = p :: Tab.del t k by simp [Tab.del, e], Tab.get?_cons, Tab.get?_cons, ih]

/-- A read of the byte that was written. -/
@[simp] theorem Memory.read_write_same (m : Memory) (a : Nat) (b : Byte) : (Memory.write m a b).read a = b := by
  unfold Memory.write Memory.read Tab.get
  split
  · rename_i h; simp [h]
  · simp

/-- A read of any other byte. -/
theorem Memory.read_write_ne (m : Memory) {a x : Nat} (b : Byte) (h : a ≠ x) : (Memory.write m a b).read x = Memory.read m x := by
  unfold Memory.write Memory.read Tab.get
  split
  · rw [Tab.get?_del_ne _ h]
  · rw [Tab.get?_set_ne _ _ h]

/-- A read outside the bytes that were written. -/
theorem Memory.read_writeN_out (m : Memory) (a x : Nat) (bs : List Byte) (h : x < a ∨ a + bs.length ≤ x) :
    (Memory.writeN m a bs).read x = Memory.read m x := by
  induction bs generalizing m a with
  | nil => rfl
  | cons b t ih =>
    simp only [List.length_cons] at h
    rw [Memory.writeN, ih _ _ (by omega), Memory.read_write_ne _ _ (by omega)]

@[simp] theorem Memory.readN_length (m : Memory) (a n : Nat) : (Memory.readN m a n).length = n := by
  induction n generalizing a with
  | zero => rfl
  | succ n ih => simp [Memory.readN, ih]

/-- Reads that agree on every byte of a range agree on the range. -/
theorem Memory.readN_congr (m m' : Memory) (a n : Nat) (h : ∀ x, a ≤ x → x < a + n → m.read x = Memory.read m' x) :
    Memory.readN m a n = Memory.readN m' a n := by
  induction n generalizing a with
  | zero => rfl
  | succ n ih => simp [Memory.readN, h a (by omega) (by omega), ih (a + 1) fun x h1 h2 => h x (by omega) (by omega)]

/-- A read of a range apart from the bytes that were written. -/
theorem Memory.readN_writeN_out (m : Memory) (a x n : Nat) (bs : List Byte) (h : x + n ≤ a ∨ a + bs.length ≤ x) :
    Memory.readN (Memory.writeN m a bs) x n = Memory.readN m x n :=
  Memory.readN_congr _ _ _ _ fun _ _ _ => Memory.read_writeN_out _ _ _ _ (by omega)

/-- A read of the bytes that were written. -/
@[simp] theorem Memory.readN_writeN (m : Memory) (a : Nat) (bs : List Byte) : Memory.readN (Memory.writeN m a bs) a bs.length = bs := by
  induction bs generalizing m a with
  | nil => rfl
  | cons b t ih =>
    rw [List.length_cons, Memory.writeN, Memory.readN, ih, Memory.read_writeN_out _ _ _ _ (by omega), Memory.read_write_same]

/-- The canonical form: the head's byte is not 0, it lies below every later address, and the tail is canonical. -/
theorem Memory.wf_cons (a : Nat) (v : Byte) (m : Memory) :
    Memory.wf ((a, v) :: m) = true ↔ v ≠ 0 ∧ (∀ c ∈ m, a < c.1) ∧ Memory.wf m = true := by
  induction m generalizing a v with
  | nil => simp [Memory.wf]
  | cons c m ih =>
    obtain ⟨b, w⟩ := c
    simp only [Memory.wf, Bool.and_eq_true, bne_iff_ne, ne_eq, decide_eq_true_eq, List.mem_cons, forall_eq_or_imp]
    constructor
    · rintro ⟨⟨h1, h2⟩, h3⟩
      exact ⟨h1, ⟨h2, fun c hc => Nat.lt_trans h2 (((ih b w).1 h3).2.1 c hc)⟩, h3⟩
    · rintro ⟨h1, ⟨h2, _⟩, h3⟩
      exact ⟨⟨h1, h2⟩, h3⟩

/-- The addresses of a table after a write. -/
theorem Tab.mem_set {α : Type} (t : Tab α) (k : Nat) (v : α) (c : Nat × α) (h : c ∈ Tab.set t k v) : c.1 = k ∨ c ∈ t := by
  induction t with
  | nil => simp only [Tab.set, List.mem_singleton] at h; exact .inl (h ▸ rfl)
  | cons p t ih =>
    simp only [Tab.set] at h
    split at h
    · rcases List.mem_cons.1 h with e | e
      · exact .inl (e ▸ rfl)
      · exact .inr e
    · split at h
      · rcases List.mem_cons.1 h with e | e
        · exact .inl (e ▸ rfl)
        · exact .inr (List.mem_cons_of_mem _ e)
      · rcases List.mem_cons.1 h with e | e
        · exact .inr (e ▸ List.mem_cons_self ..)
        · exact (ih e).imp_right (List.mem_cons_of_mem _)

theorem Memory.wf_set (m : Memory) (a : Nat) (b : Byte) (hb : b ≠ 0) (h : Memory.wf m = true) : Memory.wf (Tab.set m a b) = true := by
  induction m with
  | nil => simpa [Tab.set, Memory.wf] using hb
  | cons p m ih =>
    obtain ⟨k, v⟩ := p
    obtain ⟨h1, h2, h3⟩ := (Memory.wf_cons k v m).1 h
    simp only [Tab.set]
    split
    · rename_i hk
      exact (Memory.wf_cons ..).2 ⟨hb, fun c hc => (List.mem_cons.1 hc).elim (fun e => e ▸ hk) fun e => Nat.lt_trans hk (h2 c e), h⟩
    · split
      · rename_i e; subst e; exact (Memory.wf_cons ..).2 ⟨hb, h2, h3⟩
      · refine (Memory.wf_cons ..).2 ⟨h1, fun c hc => ?_, ih h3⟩
        rcases Tab.mem_set m a b c hc with e | e
        · omega
        · exact h2 c e

theorem Memory.wf_del (m : Memory) (a : Nat) (h : Memory.wf m = true) : Memory.wf (Tab.del m a) = true := by
  induction m with
  | nil => rfl
  | cons p m ih =>
    obtain ⟨k, v⟩ := p
    obtain ⟨h1, h2, h3⟩ := (Memory.wf_cons k v m).1 h
    by_cases e : k = a
    · rw [show Tab.del ((k, v) :: m) a = Tab.del m a by simp [Tab.del, e]]; exact ih h3
    · rw [show Tab.del ((k, v) :: m) a = (k, v) :: Tab.del m a by simp [Tab.del, e]]
      exact (Memory.wf_cons ..).2 ⟨h1, fun c hc => h2 c (List.mem_filter.1 hc).1, ih h3⟩

/-- Every write keeps the canonical form. -/
theorem Memory.wf_write (m : Memory) (a : Nat) (b : Byte) (h : Memory.wf m = true) : Memory.wf (Memory.write m a b) = true := by
  unfold Memory.write
  split
  · exact Memory.wf_del m a h
  · rename_i hb; exact Memory.wf_set m a b hb h

theorem Memory.wf_writeN (m : Memory) (a : Nat) (bs : List Byte) (h : Memory.wf m = true) : Memory.wf (Memory.writeN m a bs) = true := by
  induction bs generalizing m a with
  | nil => exact h
  | cons b t ih => exact ih _ _ (Memory.wf_write m a b h)

end Sys2Proof.Machine
end

