-- ==== Sys2Proof/Laws/Keeps.lean ====
section
/-!
SUPPORT. What every operation on the state keeps: the queue as it is, and the canonical form of the three memories. One
lemma per operation, in the direction in which a goal unfolds: to show it of `u.op …`, show it of `u`.
-/
namespace Sys2Proof.Machine

/-- `t` has the queue of `s`, and canonical memories if `s` has. -/
def State.Keeps (s t : State) : Prop := t.pending = s.pending ∧ (s.memOk → t.memOk)

theorem State.Keeps.refl (s : State) : s.Keeps s := ⟨rfl, id⟩

theorem State.Keeps.trans {s t u : State} (h : s.Keeps t) (g : t.Keeps u) : s.Keeps u := ⟨g.1.trans h.1, fun k => g.2 (h.2 k)⟩

/-- The queue and the memories are those of a state that keeps them. -/
theorem State.Keeps.rest {s u : State} {y1 y3 y4 y7 y8 y9 y10 y11 y12 y13 y14 y15 y16 y17 y18 y19 y20 y21 y22 y23 y24 y25 y26 y27 y28 y29 y30 y31 y32 y33 y34 y35 y36 y37 y38 y39 y40 y41 y42 y43 y44} :
    s.Keeps (State.mk u.pending y1 u.mem y3 y4 u.hubMem u.hostMem y7 y8 y9 y10 y11 y12 y13 y14 y15 y16 y17 y18 y19 y20 y21 y22 y23 y24 y25 y26 y27 y28 y29 y30 y31 y32 y33 y34 y35 y36 y37 y38 y39 y40 y41 y42 y43 y44) ↔ s.Keeps u := Iff.rfl

/-- Bytes written to device memory. -/
theorem State.Keeps.putMem {s u : State} {y1 y3 y4 y7 y8 y9 y10 y11 y12 y13 y14 y15 y16 y17 y18 y19 y20 y21 y22 y23 y24 y25 y26 y27 y28 y29 y30 y31 y32 y33 y34 y35 y36 y37 y38 y39 y40 y41 y42 y43 y44} {a b} (h : s.Keeps u) :
    s.Keeps (State.mk u.pending y1 (Memory.writeN u.mem a b) y3 y4 u.hubMem u.hostMem y7 y8 y9 y10 y11 y12 y13 y14 y15 y16 y17 y18 y19 y20 y21 y22 y23 y24 y25 y26 y27 y28 y29 y30 y31 y32 y33 y34 y35 y36 y37 y38 y39 y40 y41 y42 y43 y44) :=
  ⟨h.1, fun k => ⟨Memory.wf_writeN _ _ _ (h.2 k).1, (h.2 k).2⟩⟩

/-- Bytes written to the hub's SRAM. -/
theorem State.Keeps.putHub {s u : State} {y1 y3 y4 y7 y8 y9 y10 y11 y12 y13 y14 y15 y16 y17 y18 y19 y20 y21 y22 y23 y24 y25 y26 y27 y28 y29 y30 y31 y32 y33 y34 y35 y36 y37 y38 y39 y40 y41 y42 y43 y44} {a b} (h : s.Keeps u) :
    s.Keeps (State.mk u.pending y1 u.mem y3 y4 (Memory.writeN u.hubMem a b) u.hostMem y7 y8 y9 y10 y11 y12 y13 y14 y15 y16 y17 y18 y19 y20 y21 y22 y23 y24 y25 y26 y27 y28 y29 y30 y31 y32 y33 y34 y35 y36 y37 y38 y39 y40 y41 y42 y43 y44) :=
  ⟨h.1, fun k => ⟨(h.2 k).1, Memory.wf_writeN _ _ _ (h.2 k).2.1, (h.2 k).2.2⟩⟩

/-- Bytes written to host memory. -/
theorem State.Keeps.putHost {s u : State} {y1 y3 y4 y7 y8 y9 y10 y11 y12 y13 y14 y15 y16 y17 y18 y19 y20 y21 y22 y23 y24 y25 y26 y27 y28 y29 y30 y31 y32 y33 y34 y35 y36 y37 y38 y39 y40 y41 y42 y43 y44} {a b} (h : s.Keeps u) :
    s.Keeps (State.mk u.pending y1 u.mem y3 y4 u.hubMem (Memory.writeN u.hostMem a b) y7 y8 y9 y10 y11 y12 y13 y14 y15 y16 y17 y18 y19 y20 y21 y22 y23 y24 y25 y26 y27 y28 y29 y30 y31 y32 y33 y34 y35 y36 y37 y38 y39 y40 y41 y42 y43 y44) :=
  ⟨h.1, fun k => ⟨(h.2 k).1, (h.2 k).2.1, Memory.wf_writeN _ _ _ (h.2 k).2.2⟩⟩

theorem State.Keeps.ite {s t u : State} {c : Prop} [Decidable c] (h : s.Keeps t) (g : s.Keeps u) : s.Keeps (if c then t else u) := by
  split
  · exact h
  · exact g

theorem State.Keeps.ofNext {s u t : State} (h : s.Keeps u) (e : (.next u : Host.Outcome State Fault Refusal) = .next t) : s.Keeps t :=
  Host.Outcome.next.inj e ▸ h

theorem State.Keeps.ofGuarded {s u t : State} {b : Bool} (h : s.Keeps u) (e : guarded b u = .next t) : s.Keeps t := by
  cases b
  · nomatch e
  · exact h.ofNext e

/-- The state of a pair that an operation answers. -/
theorem State.Keeps.snd {α : Type} {s t : State} {p : α × State} {r : α} (h : s.Keeps p.2) (e : p = (r, t)) : s.Keeps t := by
  subst e
  exact h

/-- What every step of a fold keeps, the fold keeps. -/
theorem State.Keeps.foldl {α : Type} {s u : State} {f : State → α → State} {l : List α} (h : s.Keeps u)
    (g : ∀ t a, s.Keeps t → s.Keeps (f t a)) : s.Keeps (l.foldl f u) := by
  induction l generalizing u with
  | nil => exact h
  | cons a l ih => exact ih (g u a h)

/-- The same of a fold that carries a value beside the state. -/
theorem State.Keeps.foldl1 {α β : Type} {s : State} {u : State × β} {f : State × β → α → State × β} {l : List α} (h : s.Keeps u.1)
    (g : ∀ t a, s.Keeps t.1 → s.Keeps (f t a).1) : s.Keeps (l.foldl f u).1 := by
  induction l generalizing u with
  | nil => exact h
  | cons a l ih => exact ih (g u a h)

theorem State.Keeps.foldl2 {α β : Type} {s : State} {u : β × State} {f : β × State → α → β × State} {l : List α} (h : s.Keeps u.2)
    (g : ∀ t a, s.Keeps t.2 → s.Keeps (f t a).2) : s.Keeps (l.foldl f u).2 := by
  induction l generalizing u with
  | nil => exact h
  | cons a l ih => exact ih (g u a h)

/-- The same of a fold over the moves of a descriptor. -/
theorem State.Keeps.foldlR {α : Type} {s : State} {u : Run} {f : Run → α → Run} {l : List α} (h : s.Keeps u.s)
    (g : ∀ t a, s.Keeps t.s → s.Keeps (f t a).s) : s.Keeps (l.foldl f u).s := by
  induction l generalizing u with
  | nil => exact h
  | cons a l ih => exact ih (g u a h)

theorem State.Keeps.foldlR1 {α β : Type} {s : State} {u : Run × β} {f : Run × β → α → Run × β} {l : List α} (h : s.Keeps u.1.s)
    (g : ∀ t a, s.Keeps t.1.s → s.Keeps (f t a).1.s) : s.Keeps (l.foldl f u).1.s := by
  induction l generalizing u with
  | nil => exact h
  | cons a l ih => exact ih (g u a h)

/-- What a mailbox command's run keeps. -/
def Cmd.Keeps (c : Cmd) : Prop := ∀ {s u r d}, State.Keeps s u → s.Keeps (c.run u r d).s

theorem State.setReg_keeps {s u} (h : State.Keeps s u) {a' w'} : State.Keeps s (@State.setReg u a' w') := by
  unfold State.setReg; repeat' first | with_reducible assumption | simp only [State.Keeps.rest]

theorem State.setRegN_keeps {s u} (h : State.Keeps s u) {a' n'} : State.Keeps s (@State.setRegN u a' n') := by
  unfold State.setRegN; repeat' first | with_reducible assumption | with_reducible apply State.setReg_keeps

theorem State.count_keeps {s u} (h : State.Keeps s u) {a' n'} : State.Keeps s (@State.count u a' n') := by
  unfold State.count; repeat' first | with_reducible assumption | with_reducible apply State.setReg_keeps

theorem State.setReg64_keeps {s u} (h : State.Keeps s u) {a' n'} : State.Keeps s (@State.setReg64 u a' n') := by
  unfold State.setReg64; repeat' first | with_reducible assumption | with_reducible apply State.setRegN_keeps

theorem State.count64_keeps {s u} (h : State.Keeps s u) {a' n'} : State.Keeps s (@State.count64 u a' n') := by
  unfold State.count64; repeat' first | with_reducible assumption | with_reducible apply State.setReg64_keeps

theorem State.raiseBits_keeps {s u} (h : State.Keeps s u) {a' m'} : State.Keeps s (@State.raiseBits u a' m') := by
  unfold State.raiseBits; repeat' first | with_reducible assumption | with_reducible apply State.setReg_keeps

theorem State.dropBits_keeps {s u} (h : State.Keeps s u) {a' m'} : State.Keeps s (@State.dropBits u a' m') := by
  unfold State.dropBits; repeat' first | with_reducible assumption | with_reducible apply State.setReg_keeps

theorem State.putField_keeps {s u} (h : State.Keeps s u) {a' hi' lo' v'} : State.Keeps s (@State.putField u a' hi' lo' v') := by
  unfold State.putField; repeat' first | with_reducible assumption | with_reducible apply State.setRegN_keeps

theorem State.setCore_keeps {s u} (h : State.Keeps s u) {c' k'} : State.Keeps s (@State.setCore u c' k') := by
  unfold State.setCore; repeat' first | with_reducible assumption | simp only [State.Keeps.rest]

theorem State.onCore_keeps {s u} (h : State.Keeps s u) {c' f'} : State.Keeps s (@State.onCore u c' f') := by
  unfold State.onCore; repeat' first | with_reducible assumption | with_reducible apply State.setCore_keeps

theorem State.onPod_keeps {s u} (h : State.Keeps s u) {p' f'} : State.Keeps s (@State.onPod u p' f') := by
  unfold State.onPod; repeat' first | with_reducible assumption | simp only [State.Keeps.rest]

theorem State.store_keeps {s u} (h : State.Keeps s u) {a' bs'} : State.Keeps s (@State.store u a' bs') := by
  unfold State.store; repeat' first | with_reducible assumption | simp only [State.Keeps.rest] | with_reducible apply State.Keeps.putMem

theorem State.freeWord_keeps {s u} (h : State.Keeps s u) : State.Keeps s (@State.freeWord u).2 := by
  unfold State.freeWord; dsimp only; repeat' first | with_reducible assumption | simp only [State.Keeps.rest]

theorem State.plainWrite_keeps {s u} (h : State.Keeps s u) {a' v'} : State.Keeps s (@State.plainWrite u a' v') := by
  unfold State.plainWrite; repeat' first | with_reducible assumption | with_reducible apply State.setReg_keeps | split

theorem State.sendVec_keeps {s u} (h : State.Keeps s u) {v'} : State.Keeps s (@State.sendVec u v') := by
  unfold State.sendVec; dsimp only; repeat' first | with_reducible assumption | simp only [State.Keeps.rest]

theorem State.signal_keeps {s u} (h : State.Keeps s u) {v'} : State.Keeps s (@State.signal u v') := by
  unfold State.signal; dsimp only; repeat' first | with_reducible assumption | simp only [State.Keeps.rest] | with_reducible apply State.sendVec_keeps | split

theorem State.ringDrop_keeps {s u} (h : State.Keeps s u) {w'} : State.Keeps s (@State.ringDrop u w') := by
  unfold State.ringDrop; dsimp only; repeat' first | with_reducible assumption | simp only [State.Keeps.rest] | with_reducible apply State.count_keeps | split

theorem State.ringWrite_keeps {s u} (h : State.Keeps s u) {w' e'} : State.Keeps s (@State.ringWrite u w' e') := by
  unfold State.ringWrite
  dsimp only
  repeat'
    first
    | with_reducible assumption | simp only [State.Keeps.rest] | with_reducible apply State.signal_keeps
    | with_reducible apply State.setRegN_keeps | with_reducible apply State.Keeps.putMem | with_reducible apply State.Keeps.putHub

theorem State.ringPut_keeps {s u} (h : State.Keeps s u) {w' e'} : State.Keeps s (@State.ringPut u w' e') := by
  unfold State.ringPut
  dsimp only
  repeat'
    first
    | with_reducible assumption | simp only [State.Keeps.rest] | with_reducible apply State.ringWrite_keeps
    | with_reducible apply State.ringDrop_keeps | split

theorem State.logEvent_keeps {s u} (h : State.Keeps s u) {iv' sb' e'} : State.Keeps s (@State.logEvent u iv' sb' e') := by
  unfold State.logEvent; dsimp only; repeat' first | with_reducible assumption | simp only [State.Keeps.rest]

theorem State.raise_keeps {s u} (h : State.Keeps s u) {w' code' shade' source' detail'} : State.Keeps s (@State.raise u w' code' shade' source' detail') := by
  unfold State.raise
  dsimp only
  repeat'
    first
    | with_reducible assumption | with_reducible apply State.signal_keeps | with_reducible apply State.ringPut_keeps
    | with_reducible apply State.logEvent_keeps | split

theorem State.raiseHub_keeps {s u} (h : State.Keeps s u) {code' shade' detail'} : State.Keeps s (@State.raiseHub u code' shade' detail') := by
  unfold State.raiseHub; repeat' first | with_reducible assumption | with_reducible apply State.raise_keeps

theorem State.raiseJob_keeps {s u} (h : State.Keeps s u) {code' shade' source' detail'} : State.Keeps s (@State.raiseJob u code' shade' source' detail') := by
  unfold State.raiseJob; repeat' first | with_reducible assumption | with_reducible apply State.raise_keeps

theorem State.regIgnored_keeps {s u} (h : State.Keeps s u) {w' a' v'} : State.Keeps s (@State.regIgnored u w' a' v') := by
  unfold State.regIgnored; repeat' first | with_reducible assumption | with_reducible apply State.raise_keeps

theorem State.refused_keeps {s u} (h : State.Keeps s u) {w' src' a' status'} : State.Keeps s (@State.refused u w' src' a' status') := by
  unfold State.refused; repeat' first | with_reducible assumption | with_reducible apply State.raise_keeps

theorem State.ochre_keeps {s u} (h : State.Keeps s u) {w' code' shade' src' detail'} : State.Keeps s (@State.ochre u w' code' shade' src' detail') := by
  unfold State.ochre
  dsimp only
  repeat'
    first
    | with_reducible assumption | simp only [State.Keeps.rest] | with_reducible apply State.logEvent_keeps
    | with_reducible apply State.ringPut_keeps | with_reducible apply State.raise_keeps | split

theorem State.drainQueue_keeps {s u} (h : State.Keeps s u) {n} : State.Keeps s (State.drainQueue n u) := by
  induction n generalizing u with
  | zero => exact h
  | succ n ih =>
    unfold State.drainQueue
    split
    · exact h
    · split
      · exact ih (State.ringWrite_keeps (State.Keeps.rest.mpr h))
      · exact h

theorem State.forAll_keeps {s u : State} (h : s.Keeps u) {l : List Nat} {f : Nat → State → State}
    (g : ∀ i t, s.Keeps t → s.Keeps (f i t)) : s.Keeps (u.forAll l f) := State.Keeps.foldl h fun t a k => g a t k

theorem State.retireRow_keeps {s u} (h : State.Keeps s u) {r' a'} : State.Keeps s (@State.retireRow u r' a') := by
  unfold State.retireRow; dsimp only; repeat' first | with_reducible assumption | simp only [State.Keeps.rest] | with_reducible apply State.raise_keeps | split

theorem State.rowStruck_keeps {s u} (h : State.Keeps s u) {a'} : State.Keeps s (@State.rowStruck u a') := by
  unfold State.rowStruck
  try dsimp only
  repeat'
    first
    | with_reducible assumption | intro _ | simp only [State.Keeps.rest] | with_reducible apply State.retireRow_keeps | split

theorem State.mendWord_keeps {s u} (h : State.Keeps s u) {a'} : State.Keeps s (@State.mendWord u a') := by
  unfold State.mendWord
  try dsimp only
  repeat'
    first
    | with_reducible assumption | intro _ | simp only [State.Keeps.rest] | with_reducible apply State.raise_keeps
    | with_reducible apply State.rowStruck_keeps | with_reducible apply State.count_keeps | split

theorem State.mend_keeps {s u} (h : State.Keeps s u) {a' n'} : State.Keeps s (@State.mend u a' n') := by
  unfold State.mend
  try dsimp only
  repeat'
    first
    | with_reducible assumption | intro _ | simp only [State.Keeps.rest] | with_reducible apply State.forAll_keeps
    | with_reducible apply State.mendWord_keeps | with_reducible apply State.forAll_keeps | split

theorem State.strike_keeps {s u} (h : State.Keeps s u) {hard' a'} : State.Keeps s (@State.strike u hard' a') := by
  unfold State.strike
  repeat' first | with_reducible assumption | simp only [State.Keeps.rest] | split

theorem State.upset_keeps {s u} (h : State.Keeps s u) : State.Keeps s (@State.upset u) := by
  unfold State.upset
  try dsimp only
  repeat'
    first
    | with_reducible assumption | intro _ | simp only [State.Keeps.rest] | with_reducible apply State.strike_keeps | split

theorem State.poolRefresh_keeps {s u} (h : State.Keeps s u) : State.Keeps s (@State.poolRefresh u) := by
  unfold State.poolRefresh; dsimp only; repeat' first | with_reducible assumption | intro _ | with_reducible apply State.setRegN_keeps | with_reducible apply State.forAll_keeps

theorem State.fillRefresh_keeps {s u} (h : State.Keeps s u) : State.Keeps s (@State.fillRefresh u) := by
  unfold State.fillRefresh
  try dsimp only
  repeat'
    first
    | with_reducible assumption | intro _ | simp only [State.Keeps.rest] | with_reducible apply State.forAll_keeps
    | with_reducible apply State.putField_keeps | with_reducible apply State.forAll_keeps | split

theorem State.discardFills_keeps {s u} (h : State.Keeps s u) {a' n'} : State.Keeps s (@State.discardFills u a' n') := by
  unfold State.discardFills
  try dsimp only
  repeat'
    first
    | with_reducible assumption | intro _ | simp only [State.Keeps.rest] | with_reducible apply State.poolRefresh_keeps
    | with_reducible apply State.fillRefresh_keeps | split

theorem State.clientHit_keeps {s u} (h : State.Keeps s u) {a'} : State.Keeps s (@State.clientHit u a') := by
  unfold State.clientHit
  try dsimp only
  repeat'
    first
    | with_reducible assumption | intro _ | simp only [State.Keeps.rest] | with_reducible apply State.count_keeps | split

theorem State.readSeen_keeps {s u} (h : State.Keeps s u) {a' n'} : State.Keeps s (@State.readSeen u a' n') := by
  unfold State.readSeen
  try dsimp only
  repeat'
    first
    | with_reducible assumption | intro _ | simp only [State.Keeps.rest] | with_reducible apply State.mend_keeps
    | with_reducible apply State.clientHit_keeps | split

theorem State.arrive_keeps {s u} (h : State.Keeps s u) {a' bs'} : State.Keeps s (@State.arrive u a' bs') := by
  unfold State.arrive
  dsimp only
  repeat'
    first
    | with_reducible assumption | simp only [State.Keeps.rest] | with_reducible apply State.discardFills_keeps
    | with_reducible apply State.store_keeps | split

theorem State.eccVoid_keeps {s u} (h : State.Keeps s u) {w' src' a'} : State.Keeps s (@State.eccVoid u w' src' a') := by
  unfold State.eccVoid
  try dsimp only
  repeat'
    first
    | with_reducible assumption | intro _ | simp only [State.Keeps.rest] | with_reducible apply State.ochre_keeps
    | with_reducible apply State.retireRow_keeps | split

theorem State.logFail_keeps {s u} (h : State.Keeps s u) {w src a st} : State.Keeps s (u.logFail w src a st) := by
  unfold State.logFail; split
  · exact h
  · exact State.eccVoid_keeps h
  · exact State.refused_keeps h

theorem State.sbAmax_keeps {s u} (h : State.Keeps s u) {t' xs'} : State.Keeps s (@State.sbAmax u t' xs') := by
  unfold State.sbAmax
  dsimp only
  repeat'
    first
    | with_reducible assumption | intro _ | with_reducible apply State.arrive_keeps | with_reducible apply State.Keeps.foldl
    | with_reducible apply State.Keeps.foldl1 | with_reducible apply State.Keeps.foldl2 | with_reducible apply State.Keeps.foldlR
    | with_reducible apply State.Keeps.foldlR1 | split

theorem State.lateLap_keeps {s u} (h : State.Keeps s u) {src' shard' lap'} : State.Keeps s (@State.lateLap u src' shard' lap') := by
  unfold State.lateLap; dsimp only; repeat' first | with_reducible assumption | with_reducible apply State.raiseBits_keeps | with_reducible apply State.ochre_keeps | split

theorem State.lateHome_keeps {s u} (h : State.Keeps s u) {src' a' n'} : State.Keeps s (@State.lateHome u src' a' n') := by
  unfold State.lateHome; repeat' first | with_reducible assumption | with_reducible apply State.lateLap_keeps | split

theorem State.setCoreState_keeps {s u} (h : State.Keeps s u) {c' n'} : State.Keeps s (@State.setCoreState u c' n') := by
  unfold State.setCoreState; repeat' first | with_reducible assumption | with_reducible apply State.setRegN_keeps

theorem State.setArr_keeps {s u} (h : State.Keeps s u) {c' a' r'} : State.Keeps s (@State.setArr u c' a' r') := by
  unfold State.setArr; repeat' first | with_reducible assumption | intro _ | with_reducible apply State.setRegN_keeps | with_reducible apply State.onCore_keeps

theorem State.setVq_keeps {s u} (h : State.Keeps s u) {c' l'} : State.Keeps s (@State.setVq u c' l') := by
  unfold State.setVq
  try dsimp only
  repeat'
    first
    | with_reducible assumption | intro _ | simp only [State.Keeps.rest] | with_reducible apply State.onCore_keeps
    | with_reducible apply State.setRegN_keeps | split

theorem State.showUnits_keeps {s u} (h : State.Keeps s u) {c'} : State.Keeps s (@State.showUnits u c') := by
  unfold State.showUnits
  try dsimp only
  repeat'
    first
    | with_reducible assumption | intro _ | simp only [State.Keeps.rest] | with_reducible apply State.setArr_keeps
    | with_reducible apply State.setVq_keeps | split

theorem State.exceptionAt_keeps {s u} (h : State.Keeps s u) {c' cause' info' pc'} : State.Keeps s (@State.exceptionAt u c' cause' info' pc') := by
  unfold State.exceptionAt
  try dsimp only
  repeat'
    first
    | with_reducible assumption | intro _ | simp only [State.Keeps.rest] | with_reducible apply State.freeWord_keeps
    | with_reducible apply State.onCore_keeps | with_reducible apply State.showUnits_keeps
    | with_reducible apply State.setCoreState_keeps | with_reducible apply State.setRegN_keeps
    | with_reducible apply State.setReg_keeps | with_reducible apply State.ochre_keeps | split

theorem State.exception_keeps {s u} (h : State.Keeps s u) {c' cause' info'} : State.Keeps s (@State.exception u c' cause' info') := by
  unfold State.exception
  try dsimp only
  repeat'
    first
    | with_reducible assumption | intro _ | simp only [State.Keeps.rest] | with_reducible apply State.exceptionAt_keeps | split

theorem State.wait_keeps {s u} (h : State.Keeps s u) {c'} : State.Keeps s (@State.wait u c') := by
  unfold State.wait; repeat' first | with_reducible assumption | with_reducible apply State.setCoreState_keeps

theorem State.retireAt_keeps {s u} (h : State.Keeps s u) {c' pc' rd' v'} : State.Keeps s (@State.retireAt u c' pc' rd' v') := by
  unfold State.retireAt; dsimp only; repeat' first | with_reducible assumption | intro _ | with_reducible apply State.setCoreState_keeps | with_reducible apply State.onCore_keeps

theorem State.retire_keeps {s u} (h : State.Keeps s u) {c' rd' v'} : State.Keeps s (@State.retire u c' rd' v') := by
  unfold State.retire; repeat' first | with_reducible assumption | with_reducible apply State.retireAt_keeps

theorem kernelRow_keeps {s u} (h : State.Keeps s u) {c want f} (g : ∀ w, State.Keeps s (f w u)) : State.Keeps s (kernelRow c want f u) := by
  unfold kernelRow; repeat' (first | assumption | exact g _ | split)

theorem State.starve_keeps {s u} (h : State.Keeps s u) {c' a'} : State.Keeps s (@State.starve u c' a') := by
  unfold State.starve
  try dsimp only
  repeat'
    first
    | with_reducible assumption | intro _ | simp only [State.Keeps.rest] | with_reducible apply State.exceptionAt_keeps | split

theorem State.syncThen_keeps {s u} (h : State.Keeps s u) {c' units' f'} (gf : ∀ x0, State.Keeps s x0 → State.Keeps s (f' x0)) : State.Keeps s (@State.syncThen u c' units' f') := by
  unfold State.syncThen
  try dsimp only
  repeat'
    first
    | with_reducible assumption | intro _ | simp only [State.Keeps.rest] | with_reducible apply gf
    | with_reducible apply State.starve_keeps | with_reducible apply State.wait_keeps | split

theorem State.coreStart_keeps {s u} (h : State.Keeps s u) {c'} : State.Keeps s (@State.coreStart u c') := by
  unfold State.coreStart
  try dsimp only
  repeat'
    first
    | with_reducible assumption | intro _ | simp only [State.Keeps.rest] | with_reducible apply State.setRegN_keeps
    | with_reducible apply State.onCore_keeps | with_reducible apply State.showUnits_keeps
    | with_reducible apply State.setCoreState_keeps | split

theorem State.stopIfDone_keeps {s u} (h : State.Keeps s u) {c'} : State.Keeps s (@State.stopIfDone u c') := by
  unfold State.stopIfDone
  repeat'
    first
    | with_reducible assumption | intro _ | with_reducible apply State.setCoreState_keeps | with_reducible apply State.onCore_keeps
    | split

theorem State.runWrite_keeps {s u} (h : State.Keeps s u) {c'} : State.Keeps s (@State.runWrite u c') := by
  unfold State.runWrite; dsimp only; repeat' first | with_reducible assumption | with_reducible apply State.raiseBits_keeps | with_reducible apply State.coreStart_keeps | split

theorem State.stopWrite_keeps {s u} (h : State.Keeps s u) {c'} : State.Keeps s (@State.stopWrite u c') := by
  unfold State.stopWrite; repeat' first | with_reducible assumption | with_reducible apply State.stopIfDone_keeps | with_reducible apply State.dropBits_keeps

theorem State.parkWrite_keeps {s u} (h : State.Keeps s u) {c' park'} : State.Keeps s (@State.parkWrite u c' park') := by
  unfold State.parkWrite; repeat' first | with_reducible assumption | with_reducible apply State.raiseBits_keeps | with_reducible apply State.dropBits_keeps | split

theorem State.setUnitQ_keeps {s u} (h : State.Keeps s u) {c' u' l'} : State.Keeps s (@State.setUnitQ u c' u' l') := by
  unfold State.setUnitQ
  try dsimp only
  repeat'
    first
    | with_reducible assumption | intro _ | simp only [State.Keeps.rest] | with_reducible apply State.setVq_keeps
    | with_reducible apply State.setArr_keeps | split

theorem State.slvRefresh_keeps {s u} (h : State.Keeps s u) {p'} : State.Keeps s (@State.slvRefresh u p') := by
  unfold State.slvRefresh; repeat' first | with_reducible assumption | with_reducible apply State.putField_keeps

theorem State.slvAccept_keeps {s u} (h : State.Keeps s u) {p' pos'} : State.Keeps s (@State.slvAccept u p' pos') := by
  unfold State.slvAccept
  dsimp only
  repeat'
    first
    | with_reducible assumption | intro _ | simp only [State.Keeps.rest] | with_reducible apply State.onPod_keeps
    | with_reducible apply State.putField_keeps | with_reducible apply State.raiseBits_keeps | split

theorem State.slvTail_keeps {s u} (h : State.Keeps s u) {w' p' v'} : State.Keeps s (@State.slvTail u w' p' v') := by
  unfold State.slvTail
  dsimp only
  repeat'
    first
    | with_reducible assumption | intro _ | with_reducible apply State.regIgnored_keeps | with_reducible apply State.setReg_keeps
    | with_reducible apply State.slvRefresh_keeps | with_reducible apply State.slvAccept_keeps
    | with_reducible apply State.forAll_keeps | split

theorem State.slvSetup_keeps {s u} (h : State.Keeps s u) {w' p' off' v'} : State.Keeps s (@State.slvSetup u w' p' off' v') := by
  unfold State.slvSetup; repeat' first | with_reducible assumption | with_reducible apply State.regIgnored_keeps | with_reducible apply State.plainWrite_keeps | split

theorem State.copyWide_keeps {s u} (h : State.Keeps s u) {c' bwd'} : State.Keeps s (@State.copyWide u c' bwd') := by
  unfold State.copyWide; dsimp only; repeat' first | with_reducible assumption | with_reducible apply State.putField_keeps

theorem State.slvTakeAt_keeps {s u} (h : State.Keeps s u) {c' pos' rd'} : State.Keeps s (@State.slvTakeAt u c' pos' rd') := by
  unfold State.slvTakeAt
  dsimp only
  repeat'
    first
    | with_reducible assumption | intro _ | with_reducible apply State.setRegN_keeps | with_reducible apply State.onPod_keeps
    | with_reducible apply State.slvRefresh_keeps | with_reducible apply State.count_keeps | with_reducible apply State.copyWide_keeps
    | with_reducible apply State.onCore_keeps | with_reducible apply State.retire_keeps

theorem State.slvTake_keeps {s u} (h : State.Keeps s u) {c' rd'} : State.Keeps s (@State.slvTake u c' rd') := by
  unfold State.slvTake
  dsimp only
  repeat'
    first
    | with_reducible assumption | intro _ | with_reducible apply State.setCoreState_keeps | with_reducible apply State.onCore_keeps
    | with_reducible apply State.exception_keeps | with_reducible apply State.wait_keeps | with_reducible apply State.slvTakeAt_keeps
    | with_reducible apply State.retire_keeps | split

theorem State.markDone_keeps {s u} (h : State.Keeps s u) {c' i'} : State.Keeps s (@State.markDone u c' i') := by
  unfold State.markDone; repeat' first | with_reducible assumption | intro _ | with_reducible apply State.onCore_keeps | with_reducible apply State.onPod_keeps

theorem State.addTrouble_keeps {s u} (h : State.Keeps s u) {c' a' f' t'} : State.Keeps s (@State.addTrouble u c' a' f' t') := by
  unfold State.addTrouble; repeat' first | with_reducible assumption | with_reducible apply State.raiseBits_keeps

theorem State.swapSets_keeps {s u} (h : State.Keeps s u) {c' a'} : State.Keeps s (@State.swapSets u c' a') := by
  unfold State.swapSets
  try dsimp only
  repeat'
    first
    | with_reducible assumption | intro _ | simp only [State.Keeps.rest] | with_reducible apply State.putField_keeps
    | with_reducible apply State.setArr_keeps | split

theorem State.ldsRun_keeps {s u} (h : State.Keeps s u) {c' a' q'} : State.Keeps s (@State.ldsRun u c' a' q') := by
  unfold State.ldsRun
  try dsimp only
  repeat'
    first
    | with_reducible assumption | intro _ | simp only [State.Keeps.rest] | with_reducible apply State.exceptionAt_keeps
    | with_reducible apply State.putField_keeps | with_reducible apply State.setArr_keeps | split

theorem State.waveCounts_keeps {s u} (h : State.Keeps s u) {c' a' f' st' n' z' rows'} : State.Keeps s (@State.waveCounts u c' a' f' st' n' z' rows') := by
  unfold State.waveCounts
  try dsimp only
  repeat'
    first
    | with_reducible assumption | intro _ | simp only [State.Keeps.rest] | with_reducible apply State.count64_keeps | split

theorem State.passCounts_keeps {s u} (h : State.Keeps s u) {c' a' mv' st' n'} : State.Keeps s (@State.passCounts u c' a' mv' st' n') := by
  unfold State.passCounts
  try dsimp only
  repeat'
    first
    | with_reducible assumption | intro _ | simp only [State.Keeps.rest] | with_reducible apply State.waveCounts_keeps | split

theorem State.pass_keeps {s u} (h : State.Keeps s u) {c' a' ctrl' mv' m' handoff' pc'} : State.Keeps s (@State.pass u c' a' ctrl' mv' m' handoff' pc') := by
  unfold State.pass
  try dsimp only
  repeat'
    first
    | with_reducible assumption | intro _ | simp only [State.Keeps.rest] | with_reducible apply State.passCounts_keeps
    | with_reducible apply State.addTrouble_keeps | with_reducible apply State.setRegN_keeps
    | with_reducible apply State.putField_keeps | with_reducible apply State.setArr_keeps
    | with_reducible apply State.swapSets_keeps | with_reducible apply State.Keeps.foldl
    | with_reducible apply State.Keeps.foldl1 | with_reducible apply State.Keeps.foldl2
    | with_reducible apply State.Keeps.foldlR | with_reducible apply State.Keeps.foldlR1 | split

theorem State.tokenEnters_keeps {s u} (h : State.Keeps s u) {c' a' k'} : State.Keeps s (@State.tokenEnters u c' a' k') := by
  unfold State.tokenEnters
  try dsimp only
  repeat'
    first
    | with_reducible assumption | intro _ | simp only [State.Keeps.rest] | with_reducible apply State.waveCounts_keeps
    | with_reducible apply State.addTrouble_keeps | with_reducible apply State.setArr_keeps
    | with_reducible apply State.Keeps.foldl | with_reducible apply State.Keeps.foldl1 | with_reducible apply State.Keeps.foldl2
    | with_reducible apply State.Keeps.foldlR | with_reducible apply State.Keeps.foldlR1 | split

theorem State.convertAmax_keeps {s u} (h : State.Keeps s u) {t' xs'} : State.Keeps s (@State.convertAmax u t' xs') := by
  unfold State.convertAmax
  try dsimp only
  repeat'
    first
    | with_reducible assumption | intro _ | simp only [State.Keeps.rest] | with_reducible apply State.sbAmax_keeps | split

theorem State.streamRun_keeps {s u} (h : State.Keeps s u) {c' a' h'} : State.Keeps s (@State.streamRun u c' a' h') := by
  unfold State.streamRun
  try dsimp only
  repeat'
    first
    | with_reducible assumption | intro _ | simp only [State.Keeps.rest] | with_reducible apply State.exceptionAt_keeps
    | with_reducible apply State.swapSets_keeps | with_reducible apply State.convertAmax_keeps
    | with_reducible apply State.pass_keeps | split

theorem State.streamExec_keeps {s u} (h : State.Keeps s u) {c' a' q'} : State.Keeps s (@State.streamExec u c' a' q') := by
  unfold State.streamExec
  try dsimp only
  repeat'
    first
    | with_reducible assumption | intro _ | simp only [State.Keeps.rest] | with_reducible apply State.setArr_keeps
    | with_reducible apply State.onCore_keeps | with_reducible apply State.streamRun_keeps | split

theorem State.acfgRun_keeps {s u} (h : State.Keeps s u) {c' a' q'} : State.Keeps s (@State.acfgRun u c' a' q') := by
  unfold State.acfgRun
  try dsimp only
  repeat'
    first
    | with_reducible assumption | intro _ | simp only [State.Keeps.rest] | with_reducible apply State.putField_keeps | split

theorem State.clearBank_keeps {s u} (h : State.Keeps s u) {c' a' b'} : State.Keeps s (@State.clearBank u c' a' b') := by
  unfold State.clearBank; repeat' first | with_reducible assumption | with_reducible apply State.setArr_keeps | with_reducible apply State.dropBits_keeps

theorem State.promoteRun_keeps {s u} (h : State.Keeps s u) {c' a' q'} : State.Keeps s (@State.promoteRun u c' a' q') := by
  unfold State.promoteRun
  try dsimp only
  repeat'
    first
    | with_reducible assumption | intro _ | simp only [State.Keeps.rest] | with_reducible apply State.putField_keeps
    | with_reducible apply State.clearBank_keeps | split

theorem State.trapSet_keeps {s u} (h : State.Keeps s u) {c' t' pc'} : State.Keeps s (@State.trapSet u c' t' pc') := by
  unfold State.trapSet
  try dsimp only
  repeat'
    first
    | with_reducible assumption | intro _ | simp only [State.Keeps.rest] | with_reducible apply State.setReg_keeps
    | with_reducible apply State.setRegN_keeps | with_reducible apply State.count_keeps
    | with_reducible apply State.onCore_keeps | split

theorem State.drainExec_keeps {s u} (h : State.Keeps s u) {c' a' q'} : State.Keeps s (@State.drainExec u c' a' q') := by
  unfold State.drainExec
  try dsimp only
  repeat'
    first
    | with_reducible assumption | intro _ | simp only [State.Keeps.rest] | with_reducible apply State.store_keeps
    | with_reducible apply State.exceptionAt_keeps | with_reducible apply State.convertAmax_keeps
    | with_reducible apply State.addTrouble_keeps | with_reducible apply State.trapSet_keeps
    | with_reducible apply State.count_keeps | with_reducible apply State.lateHome_keeps | split

theorem State.qstoreExec_keeps {s u} (h : State.Keeps s u) {c' a' q'} : State.Keeps s (@State.qstoreExec u c' a' q') := by
  unfold State.qstoreExec
  try dsimp only
  repeat'
    first
    | with_reducible assumption | intro _ | simp only [State.Keeps.rest] | with_reducible apply State.store_keeps
    | with_reducible apply State.exceptionAt_keeps | with_reducible apply State.convertAmax_keeps
    | with_reducible apply State.trapSet_keeps | with_reducible apply State.count_keeps | split

theorem State.countRepeat_keeps {s u} (h : State.Keeps s u) {bwd' first' n8'} : State.Keeps s (@State.countRepeat u bwd' first' n8') := by
  unfold State.countRepeat; dsimp only; repeat' first | with_reducible assumption | simp only [State.Keeps.rest]

theorem State.stormTest_keeps {s u} (h : State.Keeps s u) {c' bwd'} : State.Keeps s (@State.stormTest u c' bwd') := by
  unfold State.stormTest
  dsimp only
  repeat'
    first
    | with_reducible assumption | simp only [State.Keeps.rest] | with_reducible apply State.ochre_keeps
    | with_reducible apply State.raiseJob_keeps | split

theorem State.endToken_keeps {s u} (h : State.Keeps s u) {c' a'} : State.Keeps s (@State.endToken u c' a') := by
  unfold State.endToken
  try dsimp only
  repeat'
    first
    | with_reducible assumption | intro _ | simp only [State.Keeps.rest] | with_reducible apply State.freeWord_keeps
    | with_reducible apply State.tokenEnters_keeps | with_reducible apply State.swapSets_keeps
    | with_reducible apply State.count64_keeps | split

theorem State.restart_keeps {s u} (h : State.Keeps s u) {c' t'} : State.Keeps s (@State.restart u c' t') := by
  unfold State.restart
  try dsimp only
  repeat'
    first
    | with_reducible assumption | intro _ | simp only [State.Keeps.rest] | with_reducible apply State.onCore_keeps
    | with_reducible apply State.endToken_keeps | with_reducible apply State.clearBank_keeps
    | with_reducible apply State.setArr_keeps | with_reducible apply State.setVq_keeps
    | with_reducible apply State.setRegN_keeps | with_reducible apply State.count_keeps
    | with_reducible apply State.setCoreState_keeps | split

theorem State.repeatTrap_keeps {s u} (h : State.Keeps s u) {c'} : State.Keeps s (@State.repeatTrap u c') := by
  unfold State.repeatTrap
  try dsimp only
  repeat'
    first
    | with_reducible assumption | intro _ | simp only [State.Keeps.rest] | with_reducible apply State.onCore_keeps
    | with_reducible apply State.countRepeat_keeps | with_reducible apply State.ochre_keeps
    | with_reducible apply State.restart_keeps | with_reducible apply State.stormTest_keeps
    | with_reducible apply State.stopIfDone_keeps | split

theorem State.progress_keeps {s u} (h : State.Keeps s u) : State.Keeps s (@State.progress u) := by
  unfold State.progress; repeat' first | with_reducible assumption | with_reducible apply State.setReg64_keeps | split

theorem State.progressOff_keeps {s u} (h : State.Keeps s u) : State.Keeps s (@State.progressOff u) := by
  unfold State.progressOff; repeat' first | with_reducible assumption | with_reducible apply State.setReg64_keeps

theorem State.jobCrimson_keeps {s u} (h : State.Keeps s u) {code' src' detail'} : State.Keeps s (@State.jobCrimson u code' src' detail') := by
  unfold State.jobCrimson; dsimp only; repeat' first | with_reducible assumption | simp only [State.Keeps.rest] | with_reducible apply State.raiseJob_keeps

theorem State.splitCheck_keeps {s u} (h : State.Keeps s u) {heat' node'} : State.Keeps s (@State.splitCheck u heat' node') := by
  unfold State.splitCheck; repeat' first | with_reducible assumption | with_reducible apply State.jobCrimson_keeps | split

theorem State.onPort_keeps {s u} (h : State.Keeps s u) {p' f'} : State.Keeps s (@State.onPort u p' f') := by
  unfold State.onPort; repeat' first | with_reducible assumption | simp only [State.Keeps.rest]

theorem State.holdCheck_keeps {s u} (h : State.Keeps s u) : State.Keeps s (@State.holdCheck u) := by
  unfold State.holdCheck; dsimp only; repeat' first | with_reducible assumption | simp only [State.Keeps.rest] | split

theorem State.setLink_keeps {s u} (h : State.Keeps s u) {p' n'} : State.Keeps s (@State.setLink u p' n') := by
  unfold State.setLink
  repeat'
    first
    | with_reducible assumption | intro _ | with_reducible apply State.holdCheck_keeps | with_reducible apply State.onPort_keeps
    | with_reducible apply State.putField_keeps

theorem State.linkRefresh_keeps {s u} (h : State.Keeps s u) {p'} : State.Keeps s (@State.linkRefresh u p') := by
  unfold State.linkRefresh; dsimp only; repeat' first | with_reducible assumption | with_reducible apply State.setRegN_keeps

theorem State.unhole_keeps {s u} (h : State.Keeps s u) {q'} : State.Keeps s (@State.unhole u q') := by
  unfold State.unhole
  try dsimp only
  repeat'
    first
    | with_reducible assumption | intro _ | simp only [State.Keeps.rest] | with_reducible apply State.onPort_keeps | split

theorem State.portDown_keeps {s u} (h : State.Keeps s u) {p' cause'} : State.Keeps s (@State.portDown u p' cause') := by
  unfold State.portDown
  try dsimp only
  repeat'
    first
    | with_reducible assumption | intro _ | simp only [State.Keeps.rest] | with_reducible apply State.forAll_keeps
    | with_reducible apply State.unhole_keeps | with_reducible apply State.setLink_keeps
    | with_reducible apply State.putField_keeps | with_reducible apply State.count_keeps
    | with_reducible apply State.raiseBits_keeps | with_reducible apply State.raise_keeps
    | with_reducible apply State.linkRefresh_keeps | with_reducible apply State.ochre_keeps
    | with_reducible apply State.forAll_keeps | split

theorem State.quarantine_keeps {s u} (h : State.Keeps s u) {p' fp'} : State.Keeps s (@State.quarantine u p' fp') := by
  unfold State.quarantine
  dsimp only
  repeat'
    first
    | with_reducible assumption | with_reducible apply State.raiseBits_keeps | with_reducible apply State.setLink_keeps
    | with_reducible apply State.raise_keeps

theorem State.flush_keeps {s u} (h : State.Keeps s u) {p'} : State.Keeps s (@State.flush u p') := by
  unfold State.flush
  try dsimp only
  repeat'
    first
    | with_reducible assumption | intro _ | simp only [State.Keeps.rest] | with_reducible apply State.onPort_keeps | split

theorem State.readyFlit_keeps {s u} (h : State.Keeps s u) {p' f'} : State.Keeps s (@State.readyFlit u p' f') := by
  unfold State.readyFlit
  try dsimp only
  repeat'
    first
    | with_reducible assumption | intro _ | simp only [State.Keeps.rest] | with_reducible apply State.onPort_keeps
    | with_reducible apply State.count64_keeps | split

theorem State.sendFlit_keeps {s u} (h : State.Keeps s u) {p' kind' vc' seq' payload'} : State.Keeps s (@State.sendFlit u p' kind' vc' seq' payload') := by
  unfold State.sendFlit
  try dsimp only
  repeat'
    first
    | with_reducible assumption | intro _ | simp only [State.Keeps.rest] | with_reducible apply State.readyFlit_keeps | split

theorem State.sendCounts_keeps {s u} (h : State.Keeps s u) {p'} : State.Keeps s (@State.sendCounts u p') := by
  unfold State.sendCounts
  try dsimp only
  repeat'
    first
    | with_reducible assumption | intro _ | simp only [State.Keeps.rest] | with_reducible apply State.sendFlit_keeps
    | with_reducible apply State.onPort_keeps | split

theorem State.turnOn_keeps {s u} (h : State.Keeps s u) {p' m'} : State.Keeps s (@State.turnOn u p' m') := by
  unfold State.turnOn
  try dsimp only
  repeat'
    first
    | with_reducible assumption | intro _ | simp only [State.Keeps.rest] | with_reducible apply State.onPort_keeps | split

theorem State.sendOne_keeps {s u} (h : State.Keeps s u) {p' m'} : State.Keeps s (@State.sendOne u p' m') := by
  unfold State.sendOne
  try dsimp only
  repeat'
    first
    | with_reducible assumption | intro _ | simp only [State.Keeps.rest] | with_reducible apply State.onPort_keeps
    | with_reducible apply State.turnOn_keeps | with_reducible apply State.sendFlit_keeps
    | with_reducible apply State.linkRefresh_keeps | split

theorem State.pumpN_keeps {s u} (h : State.Keeps s u) {p n} : State.Keeps s (State.pumpN p n u) := by
  induction n generalizing u with
  | zero => exact h
  | succ n ih =>
    unfold State.pumpN
    split
    · exact h
    · exact ih (State.sendOne_keeps h)

theorem State.pump_keeps {s u} (h : State.Keeps s u) {p'} : State.Keeps s (@State.pump u p') := by
  unfold State.pump
  try dsimp only
  repeat'
    first
    | with_reducible assumption | intro _ | simp only [State.Keeps.rest] | with_reducible apply State.pumpN_keeps
    | with_reducible apply State.flush_keeps | split

theorem State.queueMsg_keeps {s u} (h : State.Keeps s u) {p' vc' m'} : State.Keeps s (@State.queueMsg u p' vc' m') := by
  unfold State.queueMsg; repeat' first | with_reducible assumption | intro _ | with_reducible apply State.pump_keeps | with_reducible apply State.onPort_keeps | split

theorem State.sendRank_keeps {s u} (h : State.Keeps s u) {g' r' m'} : State.Keeps s (@State.sendRank u g' r' m') := by
  unfold State.sendRank; dsimp only; repeat' first | with_reducible assumption | with_reducible apply State.queueMsg_keeps

theorem State.sendNode_keeps {s u} (h : State.Keeps s u) {node' port' m'} : State.Keeps s (@State.sendNode u node' port' m') := by
  unfold State.sendNode; repeat' first | with_reducible assumption | with_reducible apply State.queueMsg_keeps | split

theorem State.giveCredit_keeps {s u} (h : State.Keeps s u) {p' vc'} : State.Keeps s (@State.giveCredit u p' vc') := by
  unfold State.giveCredit; repeat' first | with_reducible assumption | intro _ | with_reducible apply State.onPort_keeps

theorem State.dropMsg_keeps {s u} (h : State.Keeps s u) {p' ev'} : State.Keeps s (@State.dropMsg u p' ev') := by
  unfold State.dropMsg
  dsimp only
  repeat'
    first
    | with_reducible assumption | with_reducible apply State.raiseBits_keeps | with_reducible apply State.count_keeps
    | with_reducible apply State.freeWord_keeps | with_reducible apply State.raise_keeps

theorem State.deliver_keeps {s u} (h : State.Keeps s u) {p' vc' payload'} : State.Keeps s (@State.deliver u p' vc' payload') := by
  unfold State.deliver
  dsimp only
  repeat'
    first
    | with_reducible assumption | intro _ | with_reducible apply State.quarantine_keeps | with_reducible apply State.giveCredit_keeps
    | with_reducible apply State.count_keeps | with_reducible apply State.dropMsg_keeps | with_reducible apply State.onPort_keeps
    | split

theorem State.replayOne_keeps {s u} (h : State.Keeps s u) {p' r'} : State.Keeps s (@State.replayOne p' u r') := by
  unfold State.replayOne
  try dsimp only
  repeat'
    first
    | with_reducible assumption | intro _ | simp only [State.Keeps.rest] | with_reducible apply State.sendCounts_keeps
    | with_reducible apply State.onPort_keeps | with_reducible apply State.sendFlit_keeps | split

theorem State.doReplay_keeps {s u} (h : State.Keeps s u) {p'} : State.Keeps s (@State.doReplay u p') := by
  unfold State.doReplay
  try dsimp only
  repeat'
    first
    | with_reducible assumption | intro _ | simp only [State.Keeps.rest] | with_reducible apply State.portDown_keeps
    | with_reducible apply State.onPort_keeps | with_reducible apply State.count_keeps
    | with_reducible apply State.replayOne_keeps | with_reducible apply State.flush_keeps
    | with_reducible apply State.Keeps.foldl | with_reducible apply State.Keeps.foldl1 | with_reducible apply State.Keeps.foldl2
    | with_reducible apply State.Keeps.foldlR | with_reducible apply State.Keeps.foldlR1 | split

theorem State.rxAck_keeps {s u} (h : State.Keeps s u) {p' w'} : State.Keeps s (@State.rxAck u p' w') := by
  unfold State.rxAck
  dsimp only
  repeat'
    first
    | with_reducible assumption | intro _ | with_reducible apply State.onPort_keeps | with_reducible apply State.doReplay_keeps
    | with_reducible apply State.pump_keeps | with_reducible apply State.linkRefresh_keeps | split

theorem State.badFlit_keeps {s u} (h : State.Keeps s u) {p' data' a'} : State.Keeps s (@State.badFlit u p' data' a') := by
  unfold State.badFlit; repeat' first | with_reducible assumption | intro _ | with_reducible apply State.count_keeps | with_reducible apply State.onPort_keeps | split

theorem State.stomp_keeps {s u} (h : State.Keeps s u) {p' b'} : State.Keeps s (@State.stomp u p' b') := by
  unfold State.stomp
  try dsimp only
  repeat'
    first
    | with_reducible assumption | intro _ | simp only [State.Keeps.rest] | with_reducible apply State.onPort_keeps
    | with_reducible apply State.readyFlit_keeps | with_reducible apply State.flush_keeps
    | with_reducible apply State.linkRefresh_keeps | split

theorem State.unholes_keeps {s u} (h : State.Keeps s u) {p' vc' m'} : State.Keeps s (@State.unholes u p' vc' m') := by
  unfold State.unholes
  try dsimp only
  repeat'
    first
    | with_reducible assumption | intro _ | simp only [State.Keeps.rest] | with_reducible apply State.forAll_keeps
    | with_reducible apply State.unhole_keeps | with_reducible apply State.forAll_keeps | split

theorem State.rxData_keeps {s u} (h : State.Keeps s u) {p' b'} : State.Keeps s (@State.rxData u p' b') := by
  unfold State.rxData
  try dsimp only
  repeat'
    first
    | with_reducible assumption | intro _ | simp only [State.Keeps.rest] | with_reducible apply State.onPort_keeps
    | with_reducible apply State.count64_keeps | with_reducible apply State.unholes_keeps
    | with_reducible apply State.deliver_keeps | with_reducible apply State.rxAck_keeps | split

theorem State.rxCounts_keeps {s u} (h : State.Keeps s u) {p' counts'} : State.Keeps s (@State.rxCounts u p' counts') := by
  unfold State.rxCounts; repeat' first | with_reducible assumption | intro _ | with_reducible apply State.onPort_keeps

theorem State.rxNull_keeps {s u} (h : State.Keeps s u) {p' b'} : State.Keeps s (@State.rxNull u p' b') := by
  unfold State.rxNull
  dsimp only
  repeat'
    first
    | with_reducible assumption | with_reducible apply State.rxCounts_keeps | with_reducible apply State.count64_keeps
    | with_reducible apply State.rxAck_keeps

theorem State.xTime_keeps {s u} (h : State.Keeps s u) : State.Keeps s (@State.xTime u).2 := by
  unfold State.xTime; dsimp only; repeat' first | with_reducible assumption | with_reducible apply State.freeWord_keeps

theorem State.slewTick_keeps {s u} (h : State.Keeps s u) : State.Keeps s (@State.slewTick u) := by
  unfold State.slewTick
  try dsimp only
  repeat'
    first
    | with_reducible assumption | intro _ | simp only [State.Keeps.rest] | split

theorem State.timeSync_keeps {s u} (h : State.Keeps s u) {p' rx' k'} : State.Keeps s (@State.timeSync u p' rx' k') := by
  unfold State.timeSync
  dsimp only
  repeat'
    first
    | with_reducible assumption | simp only [State.Keeps.rest] | with_reducible apply State.setRegN_keeps
    | with_reducible apply State.putField_keeps

theorem State.rxKeep_keeps {s u} (h : State.Keeps s u) {p' b'} : State.Keeps s (@State.rxKeep u p' b') := by
  unfold State.rxKeep
  try dsimp only
  repeat'
    first
    | with_reducible assumption | intro _ | simp only [State.Keeps.rest] | with_reducible apply State.portDown_keeps
    | with_reducible apply State.xTime_keeps | with_reducible apply State.onPort_keeps
    | with_reducible apply State.count64_keeps | with_reducible apply State.rxCounts_keeps
    | with_reducible apply State.quarantine_keeps | with_reducible apply State.timeSync_keeps
    | with_reducible apply State.splitCheck_keeps | with_reducible apply State.rxAck_keeps | split

theorem State.llDone_keeps {s u} (h : State.Keeps s u) {p' t'} : State.Keeps s (@State.llDone u p' t') := by
  unfold State.llDone
  dsimp only
  repeat'
    first
    | with_reducible assumption | simp only [State.Keeps.rest] | with_reducible apply State.setRegN_keeps
    | with_reducible apply State.portDown_keeps | with_reducible apply State.raiseBits_keeps
    | with_reducible apply State.linkRefresh_keeps | with_reducible apply State.setLink_keeps
    | with_reducible apply State.quarantine_keeps | split

theorem State.sendTrain_keeps {s u} (h : State.Keeps s u) {p'} : State.Keeps s (@State.sendTrain u p') := by
  unfold State.sendTrain
  try dsimp only
  repeat'
    first
    | with_reducible assumption | intro _ | simp only [State.Keeps.rest] | with_reducible apply State.sendFlit_keeps
    | with_reducible apply State.flush_keeps | split

theorem State.trainTick_keeps {s u} (h : State.Keeps s u) : State.Keeps s (@State.trainTick u) := by
  unfold State.trainTick
  try dsimp only
  repeat'
    first
    | with_reducible assumption | intro _ | simp only [State.Keeps.rest] | with_reducible apply State.forAll_keeps
    | with_reducible apply State.sendTrain_keeps | with_reducible apply State.forAll_keeps | split

theorem State.rxTrain_keeps {s u} (h : State.Keeps s u) {p' b'} : State.Keeps s (@State.rxTrain u p' b') := by
  unfold State.rxTrain
  dsimp only
  repeat'
    first
    | with_reducible assumption | intro _ | with_reducible apply State.count64_keeps | with_reducible apply State.onPort_keeps
    | with_reducible apply State.llDone_keeps | split

theorem State.fec_keeps {s u} (h : State.Keeps s u) {p' corr' uncorr'} : State.Keeps s (@State.fec u p' corr' uncorr') := by
  unfold State.fec
  try dsimp only
  repeat'
    first
    | with_reducible assumption | intro _ | simp only [State.Keeps.rest] | with_reducible apply State.count64_keeps
    | with_reducible apply State.count_keeps | split

theorem State.rxFlit_keeps {s u} (h : State.Keeps s u) {p' kind' c' f' inState' g'} (gg : ∀ x0, State.Keeps s x0 → State.Keeps s (g' x0)) : State.Keeps s (@State.rxFlit u p' kind' c' f' inState' g') := by
  unfold State.rxFlit
  try dsimp only
  repeat'
    first
    | with_reducible assumption | intro _ | simp only [State.Keeps.rest] | with_reducible apply gg
    | with_reducible apply State.stomp_keeps | with_reducible apply State.badFlit_keeps | split

theorem State.retrain_keeps {s u} (h : State.Keeps s u) {p'} : State.Keeps s (@State.retrain u p') := by
  unfold State.retrain; repeat' first | with_reducible assumption | with_reducible apply State.portDown_keeps | split

theorem State.setHold_keeps {s u} (h : State.Keeps s u) {p' hold'} : State.Keeps s (@State.setHold u p' hold') := by
  unfold State.setHold
  dsimp only
  repeat'
    first
    | with_reducible assumption | with_reducible apply State.raiseBits_keeps | with_reducible apply State.setLink_keeps
    | with_reducible apply State.portDown_keeps | with_reducible apply State.dropBits_keeps | split

theorem State.rxAny_keeps {s u} (h : State.Keeps s u) {p' f'} : State.Keeps s (@State.rxAny u p' f') := by
  unfold State.rxAny
  try dsimp only
  repeat'
    first
    | with_reducible assumption | intro _ | simp only [State.Keeps.rest] | with_reducible apply State.rxFlit_keeps
    | with_reducible apply State.rxNull_keeps | with_reducible apply State.rxKeep_keeps
    | with_reducible apply State.rxTrain_keeps | with_reducible apply State.rxData_keeps | split

theorem State.popMsg_keeps {s u} (h : State.Keeps s u) {p' vc'} : State.Keeps s (@State.popMsg u p' vc') := by
  unfold State.popMsg
  repeat'
    first
    | with_reducible assumption | intro _ | with_reducible apply State.giveCredit_keeps | with_reducible apply State.onPort_keeps
    | split

theorem State.forwardTo_keeps {s u} (h : State.Keeps s u) {p' q' vc' out'} : State.Keeps s (@State.forwardTo u p' q' vc' out') := by
  unfold State.forwardTo
  try dsimp only
  repeat'
    first
    | with_reducible assumption | intro _ | simp only [State.Keeps.rest] | with_reducible apply State.queueMsg_keeps
    | with_reducible apply State.onPort_keeps | with_reducible apply State.sendFlit_keeps
    | with_reducible apply State.linkRefresh_keeps | with_reducible apply State.pump_keeps | split

theorem State.onHrd_keeps {s u} (h : State.Keeps s u) {e' f'} : State.Keeps s (@State.onHrd u e' f') := by
  unfold State.onHrd; dsimp only; repeat' first | with_reducible assumption | simp only [State.Keeps.rest]

theorem State.sendHurdle_keeps {s u} (h : State.Keeps s u) {g' r' data'} : State.Keeps s (@State.sendHurdle u g' r' data') := by
  unfold State.sendHurdle; repeat' first | with_reducible assumption | with_reducible apply State.sendRank_keeps

theorem State.hrdRefresh_keeps {s u} (h : State.Keeps s u) : State.Keeps s (@State.hrdRefresh u) := by
  unfold State.hrdRefresh; dsimp only; repeat' first | with_reducible assumption | with_reducible apply State.setRegN_keeps | with_reducible apply State.setReg64_keeps

theorem State.hrdComplete_keeps {s u} (h : State.Keeps s u) {e' a' l'} : State.Keeps s (@State.hrdComplete u e' a' l') := by
  unfold State.hrdComplete
  dsimp only
  repeat'
    first
    | with_reducible assumption | intro _ | simp only [State.Keeps.rest] | with_reducible apply State.onHrd_keeps
    | with_reducible apply State.progress_keeps | with_reducible apply State.count_keeps | with_reducible apply State.raiseJob_keeps
    | split

theorem State.hrdAdvance_keeps {s u} (h : State.Keeps s u) {e n} : State.Keeps s (State.hrdAdvance e n u) := by
  induction n generalizing u with
  | zero => exact h
  | succ n ih =>
    unfold State.hrdAdvance; dsimp only
    repeat' (first | with_reducible assumption | with_reducible apply ih | with_reducible apply State.onHrd_keeps | with_reducible apply State.sendHurdle_keeps | with_reducible apply State.hrdComplete_keeps | split)

theorem State.hrdArriveLocal_keeps {s u} (h : State.Keeps s u) {e'} : State.Keeps s (@State.hrdArriveLocal u e') := by
  unfold State.hrdArriveLocal
  dsimp only
  repeat'
    first
    | with_reducible assumption | intro _ | with_reducible apply State.onHrd_keeps | with_reducible apply State.hrdRefresh_keeps
    | with_reducible apply State.hrdAdvance_keeps | split

theorem State.phaseEnd_keeps {s u} (h : State.Keeps s u) {ph'} : State.Keeps s (@State.phaseEnd u ph') := by
  unfold State.phaseEnd; repeat' first | with_reducible assumption | intro _ | with_reducible apply State.hrdArriveLocal_keeps | with_reducible apply State.forAll_keeps

theorem State.hrdRound_keeps {s u} (h : State.Keeps s u) {e' r'} : State.Keeps s (@State.hrdRound u e' r') := by
  unfold State.hrdRound
  dsimp only
  repeat'
    first
    | with_reducible assumption | intro _ | with_reducible apply State.count_keeps | with_reducible apply State.onHrd_keeps
    | with_reducible apply State.hrdRefresh_keeps | with_reducible apply State.hrdAdvance_keeps | split

theorem State.voidSend_keeps {s u} (h : State.Keeps s u) {j' origin' heat' attempt'} : State.Keeps s (@State.voidSend u j' origin' heat' attempt') := by
  unfold State.voidSend; dsimp only; repeat' first | with_reducible assumption | intro _ | with_reducible apply State.sendHurdle_keeps | with_reducible apply State.forAll_keeps

theorem State.voidRx_keeps {s u} (h : State.Keeps s u) {j' origin'} : State.Keeps s (@State.voidRx u j' origin') := by
  unfold State.voidRx
  dsimp only
  repeat'
    first
    | with_reducible assumption | intro _ | with_reducible apply State.voidSend_keeps | with_reducible apply State.onHrd_keeps
    | with_reducible apply State.ochre_keeps | split

theorem State.hrdJoin_keeps {s u} (h : State.Keeps s u) {c' v'} : State.Keeps s (@State.hrdJoin u c' v') := by
  unfold State.hrdJoin
  dsimp only
  repeat'
    first
    | with_reducible assumption | intro _ | simp only [State.Keeps.rest] | with_reducible apply State.onPod_keeps
    | with_reducible apply State.hrdArriveLocal_keeps | split

theorem State.hurdlesReset_keeps {s u} (h : State.Keeps s u) : State.Keeps s (@State.hurdlesReset u) := by
  unfold State.hurdlesReset; dsimp only; repeat' first | with_reducible assumption | simp only [State.Keeps.rest] | with_reducible apply State.hrdRefresh_keeps

theorem State.gateRefresh_keeps {s u} (h : State.Keeps s u) : State.Keeps s (@State.gateRefresh u) := by
  unfold State.gateRefresh; dsimp only; repeat' first | with_reducible assumption | with_reducible apply State.putField_keeps | with_reducible apply State.setRegN_keeps

theorem State.poolPut_keeps {s u} (h : State.Keeps s u) {ev' e'} : State.Keeps s (@State.poolPut u ev' e') := by
  unfold State.poolPut
  try dsimp only
  repeat'
    first
    | with_reducible assumption | intro _ | simp only [State.Keeps.rest] | with_reducible apply State.count_keeps
    | with_reducible apply State.poolRefresh_keeps | with_reducible apply State.fillRefresh_keeps | split

theorem State.poolRefuse_keeps {s u} (h : State.Keeps s u) {c'} : State.Keeps s (@State.poolRefuse u c') := by
  unfold State.poolRefuse
  try dsimp only
  repeat'
    first
    | with_reducible assumption | intro _ | simp only [State.Keeps.rest] | with_reducible apply State.count_keeps | split

theorem State.poolGrant_keeps {s u} (h : State.Keeps s u) {c' n' flags' age' tag' src' len'} : State.Keeps s (@State.poolGrant u c' n' flags' age' tag' src' len').2 := by
  unfold State.poolGrant
  try dsimp only
  repeat'
    first
    | with_reducible assumption | intro _ | simp only [State.Keeps.rest] | with_reducible apply State.poolRefuse_keeps
    | with_reducible apply State.poolPut_keeps | split

theorem State.scratchPin_keeps {s u} (h : State.Keeps s u) {tag' us'} : State.Keeps s (@State.scratchPin u tag' us') := by
  unfold State.scratchPin
  try dsimp only
  repeat'
    first
    | with_reducible assumption | intro _ | simp only [State.Keeps.rest] | with_reducible apply State.poolRefuse_keeps
    | with_reducible apply State.poolPut_keeps | split

theorem State.poolAsk_keeps {s u} (h : State.Keeps s u) {r'} : State.Keeps s (@State.poolAsk u r') := by
  unfold State.poolAsk
  try dsimp only
  repeat'
    first
    | with_reducible assumption | intro _ | simp only [State.Keeps.rest] | split

theorem State.poolTakeReq_keeps {s u} (h : State.Keeps s u) {r'} : State.Keeps s (@State.poolTakeReq u r') := by
  unfold State.poolTakeReq
  try dsimp only
  repeat'
    first
    | with_reducible assumption | intro _ | simp only [State.Keeps.rest] | split

theorem State.poolDrop_keeps {s u} (h : State.Keeps s u) {keep'} : State.Keeps s (@State.poolDrop u keep') := by
  unfold State.poolDrop; dsimp only; repeat' first | with_reducible assumption | simp only [State.Keeps.rest] | with_reducible apply State.poolRefresh_keeps

theorem State.gatherRelease_keeps {s u} (h : State.Keeps s u) {phase' mark'} : State.Keeps s (@State.gatherRelease u phase' mark') := by
  unfold State.gatherRelease
  dsimp only
  repeat'
    first
    | with_reducible assumption | intro _ | simp only [State.Keeps.rest] | with_reducible apply State.poolDrop_keeps
    | with_reducible apply State.Keeps.foldl

theorem State.pfRelease_keeps {s u} (h : State.Keeps s u) {phase' mark'} : State.Keeps s (@State.pfRelease u phase' mark') := by
  unfold State.pfRelease; repeat' first | with_reducible assumption | intro _ | with_reducible apply State.gatherRelease_keeps | with_reducible apply State.poolDrop_keeps

theorem State.lapClose_keeps {s u} (h : State.Keeps s u) {v'} : State.Keeps s (@State.lapClose u v') := by
  unfold State.lapClose
  dsimp only
  repeat'
    first
    | with_reducible assumption | simp only [State.Keeps.rest] | with_reducible apply State.ochre_keeps
    | with_reducible apply State.raiseBits_keeps | with_reducible apply State.lateLap_keeps
    | with_reducible apply State.gateRefresh_keeps | with_reducible apply State.phaseEnd_keeps
    | with_reducible apply State.pfRelease_keeps | with_reducible apply State.progress_keeps | split

theorem State.fwdClose_keeps {s u} (h : State.Keeps s u) {v'} : State.Keeps s (@State.fwdClose u v') := by
  unfold State.fwdClose
  dsimp only
  repeat'
    first
    | with_reducible assumption | simp only [State.Keeps.rest] | with_reducible apply State.ochre_keeps
    | with_reducible apply State.raiseBits_keeps | with_reducible apply State.setRegN_keeps | with_reducible apply State.phaseEnd_keeps
    | with_reducible apply State.pfRelease_keeps | with_reducible apply State.progress_keeps | split

theorem State.gatesReset_keeps {s u} (h : State.Keeps s u) : State.Keeps s (@State.gatesReset u) := by
  unfold State.gatesReset
  repeat'
    first
    | with_reducible assumption | simp only [State.Keeps.rest] | with_reducible apply State.gateRefresh_keeps
    | with_reducible apply State.dropBits_keeps | with_reducible apply State.setRegN_keeps

theorem State.stashWalk_keeps {s u} (h : State.Keeps s u) : State.Keeps s (@State.stashWalk u) := by
  unfold State.stashWalk
  dsimp only
  repeat'
    first
    | with_reducible assumption | intro _ | simp only [State.Keeps.rest] | with_reducible apply State.raiseJob_keeps
    | with_reducible apply State.jobCrimson_keeps | with_reducible apply State.Keeps.foldl | with_reducible apply State.Keeps.foldl1
    | with_reducible apply State.Keeps.foldl2 | with_reducible apply State.Keeps.foldlR | with_reducible apply State.Keeps.foldlR1
    | split

theorem State.slotPut_keeps {s u} (h : State.Keeps s u) {key' n' sl' res'} : State.Keeps s (@State.slotPut u key' n' sl' res') := by
  unfold State.slotPut
  try dsimp only
  repeat'
    first
    | with_reducible assumption | intro _ | simp only [State.Keeps.rest] | split

theorem State.stashHbm_keeps {s u} (h : State.Keeps s u) {key' sl'} : State.Keeps s (@State.stashHbm u key' sl') := by
  unfold State.stashHbm
  try dsimp only
  repeat'
    first
    | with_reducible assumption | intro _ | simp only [State.Keeps.rest] | with_reducible apply State.slotPut_keeps | split

theorem State.stashDecide_keeps {s u} (h : State.Keeps s u) {key} : State.Keeps s (u.stashDecide key) := by
  unfold State.stashDecide
  split
  · exact h
  · split
    · exact h
    · split
      · rename_i e
        exact State.slotPut_keeps (State.Keeps.snd (State.poolGrant_keeps h) e)
      · rename_i e
        exact State.stashHbm_keeps (State.Keeps.snd (State.poolGrant_keeps h) e)

theorem State.stashPlace_keeps {s u} (h : State.Keeps s u) {key' src' sl'} : State.Keeps s (@State.stashPlace u key' src' sl') := by
  unfold State.stashPlace
  try dsimp only
  repeat'
    first
    | with_reducible assumption | intro _ | simp only [State.Keeps.rest] | with_reducible apply State.poolAsk_keeps
    | with_reducible apply State.stashHbm_keeps | split

theorem State.stashRelease_keeps {s u} (h : State.Keeps s u) {key' sl'} : State.Keeps s (@State.stashRelease u key' sl') := by
  unfold State.stashRelease; dsimp only; repeat' first | with_reducible assumption | intro _ | simp only [State.Keeps.rest] | with_reducible apply State.poolDrop_keeps | split

theorem State.stashClear_keeps {s u} (h : State.Keeps s u) : State.Keeps s (@State.stashClear u) := by
  unfold State.stashClear; repeat' first | with_reducible assumption | intro _ | simp only [State.Keeps.rest] | with_reducible apply State.poolDrop_keeps

theorem State.onSrc_keeps {s u} (h : State.Keeps s u) {x' f'} : State.Keeps s (@State.onSrc u x' f') := by
  unfold State.onSrc; repeat' first | with_reducible assumption | simp only [State.Keeps.rest]

theorem State.setRecs_keeps {s u} (h : State.Keeps s u) {q' l'} : State.Keeps s (@State.setRecs u q' l') := by
  unfold State.setRecs; repeat' first | with_reducible assumption | simp only [State.Keeps.rest]

theorem State.shuDone_keeps {s u} (h : State.Keeps s u) {c x n} : State.Keeps s (State.shuDone c x n u) := by
  induction n generalizing u with
  | zero => exact h
  | succ n ih =>
    unfold State.shuDone
    split
    · exact ih (State.count_keeps (State.onSrc_keeps h))
    · exact h

theorem State.finish_keeps {s u} (h : State.Keeps s u) {x' ticket'} : State.Keeps s (@State.finish u x' ticket') := by
  unfold State.finish
  try dsimp only
  repeat'
    first
    | with_reducible assumption | intro _ | simp only [State.Keeps.rest] | with_reducible apply State.onSrc_keeps
    | with_reducible apply State.shuDone_keeps | with_reducible apply State.stopIfDone_keeps | split

theorem State.cqRefresh_keeps {s u} (h : State.Keeps s u) {q'} : State.Keeps s (@State.cqRefresh u q') := by
  unfold State.cqRefresh
  dsimp only
  repeat'
    first
    | with_reducible assumption | with_reducible apply State.putField_keeps | with_reducible apply State.setRecs_keeps
    | with_reducible apply State.count_keeps | split

theorem State.cqFault_keeps {s u} (h : State.Keeps s u) {q' x' tag'} : State.Keeps s (@State.cqFault u q' x' tag') := by
  unfold State.cqFault
  dsimp only
  repeat'
    first
    | with_reducible assumption | intro _ | with_reducible apply State.setRecs_keeps | with_reducible apply State.dropBits_keeps
    | with_reducible apply State.finish_keeps | with_reducible apply State.raiseBits_keeps | with_reducible apply State.ochre_keeps
    | with_reducible apply State.Keeps.foldl | with_reducible apply State.Keeps.foldl1 | with_reducible apply State.Keeps.foldl2
    | with_reducible apply State.Keeps.foldlR | with_reducible apply State.Keeps.foldlR1 | split

theorem State.srcRefresh_keeps {s u} (h : State.Keeps s u) {x'} : State.Keeps s (@State.srcRefresh u x') := by
  unfold State.srcRefresh; dsimp only; repeat' first | with_reducible assumption | with_reducible apply State.putField_keeps | with_reducible apply State.dropBits_keeps | split

theorem State.acceptDesc_keeps {s u} (h : State.Keeps s u) {x' ticket' d'} : State.Keeps s (@State.acceptDesc u x' ticket' d') := by
  unfold State.acceptDesc
  dsimp only
  repeat'
    first
    | with_reducible assumption | intro _ | with_reducible apply State.finish_keeps | with_reducible apply State.cqFault_keeps
    | with_reducible apply State.setRecs_keeps | with_reducible apply State.srcRefresh_keeps | with_reducible apply State.onSrc_keeps
    | split

theorem State.acceptNext_keeps {s u} (h : State.Keeps s u) {x n} : State.Keeps s (State.acceptNext x n u) := by
  induction n generalizing u with
  | zero => exact h
  | succ n ih =>
    unfold State.acceptNext
    repeat' (first | with_reducible assumption | with_reducible apply ih | with_reducible apply State.acceptDesc_keeps | with_reducible apply State.onSrc_keeps | split)

theorem State.acceptPod_keeps {s u} (h : State.Keeps s u) {p'} : State.Keeps s (@State.acceptPod u p') := by
  unfold State.acceptPod; repeat' first | with_reducible assumption | intro _ | with_reducible apply State.acceptNext_keeps | with_reducible apply State.forAll_keeps

theorem State.shqExec_keeps {s u} (h : State.Keeps s u) {c' w'} : State.Keeps s (@State.shqExec u c' w') := by
  unfold State.shqExec
  try dsimp only
  repeat'
    first
    | with_reducible assumption | intro _ | simp only [State.Keeps.rest] | with_reducible apply State.exception_keeps
    | with_reducible apply State.wait_keeps | with_reducible apply State.eccVoid_keeps
    | with_reducible apply State.readSeen_keeps | with_reducible apply State.onSrc_keeps
    | with_reducible apply State.count_keeps | with_reducible apply State.acceptNext_keeps
    | with_reducible apply State.retire_keeps | split

theorem State.recCounts_keeps {s u} (h : State.Keeps s u) {x' st' n' retries'} : State.Keeps s (@State.recCounts u x' st' n' retries') := by
  unfold State.recCounts
  dsimp only
  repeat'
    first
    | with_reducible assumption | with_reducible apply State.count_keeps | with_reducible apply State.count64_keeps
    | with_reducible apply State.putField_keeps | split

theorem State.recWrite_keeps {s u} (h : State.Keeps s u) {q'} : State.Keeps s (@State.recWrite u q') := by
  unfold State.recWrite
  dsimp only
  repeat'
    first
    | with_reducible assumption | with_reducible apply State.cqFault_keeps | with_reducible apply State.cqRefresh_keeps
    | with_reducible apply State.arrive_keeps | with_reducible apply State.setRecs_keeps | with_reducible apply State.recCounts_keeps
    | with_reducible apply State.count_keeps | with_reducible apply State.finish_keeps | with_reducible apply State.acceptPod_keeps
    | with_reducible apply State.signal_keeps | split

theorem State.cqHead_keeps {s u} (h : State.Keeps s u) {q' v'} : State.Keeps s (@State.cqHead u q' v') := by
  unfold State.cqHead
  dsimp only
  repeat'
    first
    | with_reducible assumption | with_reducible apply State.raiseBits_keeps | with_reducible apply State.cqRefresh_keeps
    | with_reducible apply State.setReg_keeps | with_reducible apply State.acceptPod_keeps | split

theorem State.cqCtrl_keeps {s u} (h : State.Keeps s u) {ag' q' v'} : State.Keeps s (@State.cqCtrl u ag' q' v') := by
  unfold State.cqCtrl
  dsimp only
  repeat'
    first
    | with_reducible assumption | with_reducible apply State.regIgnored_keeps | with_reducible apply State.setReg_keeps
    | with_reducible apply State.cqRefresh_keeps | split

theorem State.cqSetup_keeps {s u} (h : State.Keeps s u) {ag' q' off' v'} : State.Keeps s (@State.cqSetup u ag' q' off' v') := by
  unfold State.cqSetup; repeat' first | with_reducible assumption | with_reducible apply State.regIgnored_keeps | with_reducible apply State.plainWrite_keeps | split

theorem State.lpHead_keeps {s u} (h : State.Keeps s u) {p' lp' head'} : State.Keeps s (@State.lpHead u p' lp' head') := by
  unfold State.lpHead
  dsimp only
  repeat'
    first
    | with_reducible assumption | intro _ | with_reducible apply State.regIgnored_keeps | with_reducible apply State.raiseBits_keeps
    | with_reducible apply State.srcRefresh_keeps | with_reducible apply State.onSrc_keeps | split

theorem State.lpPush_keeps {s u} (h : State.Keeps s u) {ag' p' lp' v'} : State.Keeps s (@State.lpPush u ag' p' lp' v') := by
  unfold State.lpPush
  dsimp only
  repeat'
    first
    | with_reducible assumption | with_reducible apply State.regIgnored_keeps | with_reducible apply State.setReg_keeps
    | with_reducible apply State.lpHead_keeps | split

theorem State.lpFetch_keeps {s u} (h : State.Keeps s u) {p' lp'} : State.Keeps s (@State.lpFetch u p' lp') := by
  unfold State.lpFetch
  try dsimp only
  repeat'
    first
    | with_reducible assumption | intro _ | simp only [State.Keeps.rest] | with_reducible apply State.onSrc_keeps
    | with_reducible apply State.raiseBits_keeps | with_reducible apply State.logFail_keeps
    | with_reducible apply State.srcRefresh_keeps | with_reducible apply State.readSeen_keeps
    | with_reducible apply State.acceptDesc_keeps | split

theorem State.bshShadow_keeps {s u} (h : State.Keeps s u) {ag' e' ch' off' v'} : State.Keeps s (@State.bshShadow u ag' e' ch' off' v') := by
  unfold State.bshShadow; repeat' first | with_reducible assumption | with_reducible apply State.regIgnored_keeps | with_reducible apply State.setReg_keeps | split

theorem State.bshGo_keeps {s u} (h : State.Keeps s u) {ag' e' ch' v'} : State.Keeps s (@State.bshGo u ag' e' ch' v') := by
  unfold State.bshGo
  dsimp only
  repeat'
    first
    | with_reducible assumption | intro _ | with_reducible apply State.regIgnored_keeps | with_reducible apply State.srcRefresh_keeps
    | with_reducible apply State.onSrc_keeps | split

theorem State.bshActivate_keeps {s u} (h : State.Keeps s u) {e' ch'} : State.Keeps s (@State.bshActivate u e' ch') := by
  unfold State.bshActivate
  dsimp only
  repeat'
    first
    | with_reducible assumption | intro _ | simp only [State.Keeps.rest] | with_reducible apply State.onSrc_keeps
    | with_reducible apply State.setReg64_keeps | with_reducible apply State.setRegN_keeps
    | with_reducible apply State.srcRefresh_keeps | with_reducible apply State.acceptDesc_keeps | split

theorem State.recDone_keeps {s u} (h : State.Keeps s u) {q' x' ticket' o'} : State.Keeps s (@State.recDone u q' x' ticket' o') := by
  unfold State.recDone
  try dsimp only
  repeat'
    first
    | with_reducible assumption | intro _ | simp only [State.Keeps.rest] | with_reducible apply State.finish_keeps
    | with_reducible apply State.setRecs_keeps | with_reducible apply State.cqRefresh_keeps | split

theorem State.bshStop_keeps {s u} (h : State.Keeps s u) {e' ch'} : State.Keeps s (@State.bshStop u e' ch') := by
  unfold State.bshStop
  try dsimp only
  repeat'
    first
    | with_reducible assumption | intro _ | simp only [State.Keeps.rest] | with_reducible apply State.raiseBits_keeps
    | with_reducible apply State.srcRefresh_keeps | with_reducible apply State.onSrc_keeps
    | with_reducible apply State.acceptDesc_keeps | with_reducible apply State.recDone_keeps | split

theorem State.shuVoid_keeps {s u} (h : State.Keeps s u) : State.Keeps s (@State.shuVoid u) := by
  unfold State.shuVoid
  dsimp only
  repeat'
    first
    | with_reducible assumption | intro _ | with_reducible apply State.srcRefresh_keeps | with_reducible apply State.onSrc_keeps
    | with_reducible apply State.finish_keeps | with_reducible apply State.Keeps.foldl | with_reducible apply State.Keeps.foldl1
    | with_reducible apply State.Keeps.foldl2 | with_reducible apply State.Keeps.foldlR | with_reducible apply State.Keeps.foldlR1
    | split

theorem State.shuDark_keeps {s u} (h : State.Keeps s u) {p'} : State.Keeps s (@State.shuDark u p') := by
  unfold State.shuDark; dsimp only; repeat' first | with_reducible assumption | simp only [State.Keeps.rest] | with_reducible apply State.setRegN_keeps

theorem State.pfIssue_keeps {s u} (h : State.Keeps s u) {i'} : State.Keeps s (@State.pfIssue u i') := by
  unfold State.pfIssue
  try dsimp only
  repeat'
    first
    | with_reducible assumption | intro _ | simp only [State.Keeps.rest] | with_reducible apply State.poolAsk_keeps
    | with_reducible apply State.lpHead_keeps | split

theorem State.pfDecide_keeps {s u} (h : State.Keeps s u) {i'} : State.Keeps s (@State.pfDecide u i') := by
  unfold State.pfDecide
  try dsimp only
  repeat'
    first
    | with_reducible assumption | intro _ | simp only [State.Keeps.rest] | with_reducible apply State.poolGrant_keeps | split

theorem State.fillCopy_keeps {s u} (h : State.Keeps s u) {x'} : State.Keeps s (@State.fillCopy u x') := by
  unfold State.fillCopy
  try dsimp only
  repeat'
    first
    | with_reducible assumption | intro _ | simp only [State.Keeps.rest] | with_reducible apply State.forAll_keeps
    | with_reducible apply State.arrive_keeps | with_reducible apply State.forAll_keeps | split

theorem State.fillCounts_keeps {s u} (h : State.Keeps s u) {e' n' st'} : State.Keeps s (@State.fillCounts u e' n' st') := by
  unfold State.fillCounts
  try dsimp only
  repeat'
    first
    | with_reducible assumption | intro _ | simp only [State.Keeps.rest] | with_reducible apply State.setReg64_keeps
    | with_reducible apply State.count_keeps | with_reducible apply State.count64_keeps
    | with_reducible apply State.putField_keeps | split

theorem State.fillEnd_keeps {s u} (h : State.Keeps s u) {x'} : State.Keeps s (@State.fillEnd u x') := by
  unfold State.fillEnd
  try dsimp only
  repeat'
    first
    | with_reducible assumption | intro _ | simp only [State.Keeps.rest] | with_reducible apply State.readSeen_keeps
    | with_reducible apply State.fillCopy_keeps | with_reducible apply State.logFail_keeps
    | with_reducible apply State.ochre_keeps | with_reducible apply State.poolRefresh_keeps
    | with_reducible apply State.fillCounts_keeps | with_reducible apply State.fillRefresh_keeps | split

theorem State.pfMark_keeps {s u} (h : State.Keeps s u) {v'} : State.Keeps s (@State.pfMark u v') := by
  unfold State.pfMark
  dsimp only
  repeat'
    first
    | with_reducible assumption | intro _ | simp only [State.Keeps.rest] | with_reducible apply State.count_keeps
    | with_reducible apply State.pfRelease_keeps | with_reducible apply State.pfIssue_keeps | with_reducible apply State.forAll_keeps
    | split

theorem State.pfCounts_keeps {s u} (h : State.Keeps s u) {a' n'} : State.Keeps s (@State.pfCounts u a' n') := by
  unfold State.pfCounts; repeat' first | with_reducible assumption | with_reducible apply State.count_keeps | split

theorem State.putBlock_keeps {s u} (h : State.Keeps s u) {base' f' nb' k' b'} : State.Keeps s (@State.putBlock u base' f' nb' k' b') := by
  unfold State.putBlock; repeat' first | with_reducible assumption | with_reducible apply State.arrive_keeps

theorem State.onUnit_keeps {s u} (h : State.Keeps s u) {u' f'} : State.Keeps s (@State.onUnit u u' f') := by
  unfold State.onUnit; dsimp only; repeat' first | with_reducible assumption | simp only [State.Keeps.rest]

theorem State.undoWrite_keeps {s u} (h : State.Keeps s u) {u' shard' index' kind' body'} : State.Keeps s (@State.undoWrite u u' shard' index' kind' body') := by
  unfold State.undoWrite
  try dsimp only
  repeat'
    first
    | with_reducible assumption | intro _ | simp only [State.Keeps.rest] | with_reducible apply State.onUnit_keeps
    | with_reducible apply State.arrive_keeps | with_reducible apply State.count_keeps | split

theorem State.cursorWrite_keeps {s u} (h : State.Keeps s u) {i' st' lo' limit'} : State.Keeps s (@State.cursorWrite u i' st' lo' limit') := by
  unfold State.cursorWrite; repeat' first | with_reducible assumption | with_reducible apply State.arrive_keeps

theorem State.setUnitState_keeps {s u} (h : State.Keeps s u) {u' n'} : State.Keeps s (@State.setUnitState u u' n') := by
  unfold State.setUnitState; repeat' first | with_reducible assumption | with_reducible apply State.setRegN_keeps

theorem State.digestWrite_keeps {s u} (h : State.Keeps s u) {u' i' g' blocks' crc'} : State.Keeps s (@State.digestWrite u u' i' g' blocks' crc') := by
  unfold State.digestWrite
  dsimp only
  repeat'
    first
    | with_reducible assumption | simp only [State.Keeps.rest] | with_reducible apply State.arrive_keeps
    | with_reducible apply State.setReg64_keeps

theorem State.sweepStop_keeps {s u} (h : State.Keeps s u) {u' i' k' tr'} : State.Keeps s (@State.sweepStop u u' i' k' tr') := by
  unfold State.sweepStop
  dsimp only
  repeat'
    first
    | with_reducible assumption | with_reducible apply State.raiseBits_keeps | with_reducible apply State.setUnitState_keeps
    | with_reducible apply State.ochre_keeps

theorem State.sweepFail_keeps {s u} (h : State.Keeps s u) {u' a' st'} : State.Keeps s (@State.sweepFail u u' a' st') := by
  unfold State.sweepFail
  try dsimp only
  repeat'
    first
    | with_reducible assumption | intro _ | simp only [State.Keeps.rest] | with_reducible apply State.setUnitState_keeps
    | with_reducible apply State.eccVoid_keeps | with_reducible apply State.ochre_keeps | split

theorem State.sweepWith_keeps {s u} (h : State.Keeps s u) {u' rd' wr' k'} (gk : ∀ x0, State.Keeps s x0 → State.Keeps s (k' x0)) : State.Keeps s (@State.sweepWith u u' rd' wr' k') := by
  unfold State.sweepWith
  try dsimp only
  repeat'
    first
    | with_reducible assumption | intro _ | simp only [State.Keeps.rest] | with_reducible apply gk
    | with_reducible apply State.sweepFail_keeps | with_reducible apply State.readSeen_keeps
    | with_reducible apply State.Keeps.foldl | with_reducible apply State.Keeps.foldl1 | with_reducible apply State.Keeps.foldl2
    | with_reducible apply State.Keeps.foldlR | with_reducible apply State.Keeps.foldlR1 | split

theorem State.blockWrite_keeps {s u} (h : State.Keeps s u) {i' k' o'} : State.Keeps s (@State.blockWrite u i' k' o') := by
  unfold State.blockWrite; dsimp only; repeat' first | with_reducible assumption | with_reducible apply State.putBlock_keeps | with_reducible apply State.arrive_keeps | split

theorem State.showCursor_keeps {s u} (h : State.Keeps s u) {u' i' lo'} : State.Keeps s (@State.showCursor u u' i' lo') := by
  unfold State.showCursor; repeat' first | with_reducible assumption | with_reducible apply State.setRegN_keeps | split

theorem State.indexDone_keeps {s u} (h : State.Keeps s u) {u' i'} : State.Keeps s (@State.indexDone u u' i') := by
  unfold State.indexDone
  dsimp only
  repeat'
    first
    | with_reducible assumption | intro _ | with_reducible apply State.digestWrite_keeps | with_reducible apply State.onUnit_keeps
    | with_reducible apply State.setUnitState_keeps | split

theorem State.blockDone_keeps {s u} (h : State.Keeps s u) {u' i' k'} : State.Keeps s (@State.blockDone u u' i' k') := by
  unfold State.blockDone
  dsimp only
  repeat'
    first
    | with_reducible assumption | simp only [State.Keeps.rest] | with_reducible apply State.showCursor_keeps
    | with_reducible apply State.count64_keeps | with_reducible apply State.cursorWrite_keeps
    | with_reducible apply State.digestWrite_keeps | with_reducible apply State.indexDone_keeps | split

theorem State.sweepOne_keeps {s u} (h : State.Keeps s u) {u' i' k' gr' own'} : State.Keeps s (@State.sweepOne u u' i' k' gr' own') := by
  unfold State.sweepOne
  try dsimp only
  repeat'
    first
    | with_reducible assumption | intro _ | simp only [State.Keeps.rest] | with_reducible apply State.sweepWith_keeps
    | with_reducible apply State.blockWrite_keeps | with_reducible apply State.undoWrite_keeps
    | with_reducible apply State.setRegN_keeps | with_reducible apply State.cursorWrite_keeps
    | with_reducible apply State.sweepStop_keeps | with_reducible apply State.blockDone_keeps | split

theorem State.latchParams_keeps {s u} (h : State.Keeps s u) : State.Keeps s (@State.latchParams u) := by
  unfold State.latchParams; dsimp only; repeat' first | with_reducible assumption | simp only [State.Keeps.rest]

theorem State.sweepPhase_keeps {s u} (h : State.Keeps s u) : State.Keeps s (@State.sweepPhase u) := by
  unfold State.sweepPhase
  try dsimp only
  repeat'
    first
    | with_reducible assumption | intro _ | simp only [State.Keeps.rest] | with_reducible apply State.sweepWith_keeps
    | with_reducible apply State.latchParams_keeps | split

theorem State.shardStart_keeps {s u} (h : State.Keeps s u) {u'} : State.Keeps s (@State.shardStart u u') := by
  unfold State.shardStart
  try dsimp only
  repeat'
    first
    | with_reducible assumption | intro _ | simp only [State.Keeps.rest] | with_reducible apply State.setRegN_keeps
    | with_reducible apply State.setUnitState_keeps | with_reducible apply State.onUnit_keeps
    | with_reducible apply State.sweepWith_keeps | with_reducible apply State.cursorWrite_keeps | split

theorem State.factorPass_keeps {s u} (h : State.Keeps s u) {u' i'} : State.Keeps s (@State.factorPass u u' i') := by
  unfold State.factorPass
  try dsimp only
  repeat'
    first
    | with_reducible assumption | intro _ | simp only [State.Keeps.rest] | with_reducible apply State.sweepWith_keeps
    | with_reducible apply State.sweepStop_keeps | with_reducible apply State.forAll_keeps
    | with_reducible apply State.undoWrite_keeps | with_reducible apply State.cursorWrite_keeps
    | with_reducible apply State.arrive_keeps | with_reducible apply State.setUnitState_keeps
    | with_reducible apply State.forAll_keeps | split

theorem State.bookEntry_keeps {s u} (h : State.Keeps s u) {t'} : State.Keeps s (@State.bookEntry u t') := by
  unfold State.bookEntry; dsimp only; repeat' first | with_reducible assumption | with_reducible apply State.arrive_keeps | split

theorem State.bookStep_keeps {s u} (h : State.Keeps s u.1) {t} : State.Keeps s (State.bookStep u t).1 := by
  unfold State.bookStep; dsimp only
  split
  · exact h
  · split
    · exact State.sweepFail_keeps h
    · exact State.bookEntry_keeps (State.undoWrite_keeps (State.readSeen_keeps h))

theorem State.bookEnd_keeps {s u} (h : State.Keeps s u) {crc' n'} : State.Keeps s (@State.bookEnd u crc' n') := by
  unfold State.bookEnd
  try dsimp only
  repeat'
    first
    | with_reducible assumption | intro _ | simp only [State.Keeps.rest] | with_reducible apply State.digestWrite_keeps
    | with_reducible apply State.progress_keeps | with_reducible apply State.phaseEnd_keeps | split

theorem State.bookWrite_keeps {s u} (h : State.Keeps s u) : State.Keeps s (@State.bookWrite u) := by
  unfold State.bookWrite
  try dsimp only
  repeat'
    first
    | with_reducible assumption | intro _ | simp only [State.Keeps.rest] | with_reducible apply State.bookStep_keeps
    | with_reducible apply State.sweepWith_keeps | with_reducible apply State.bookEnd_keeps
    | with_reducible apply State.Keeps.foldl | with_reducible apply State.Keeps.foldl1 | with_reducible apply State.Keeps.foldl2
    | with_reducible apply State.Keeps.foldlR | with_reducible apply State.Keeps.foldlR1 | split

theorem State.undoRestore_keeps {s u} (h : State.Keeps s u) {u' n'} : State.Keeps s (@State.undoRestore u u' n').1 := by
  unfold State.undoRestore; dsimp only; repeat' first | with_reducible assumption | with_reducible apply State.arrive_keeps | split

theorem State.slotRestore_keeps {s u} (h : State.Keeps s u) {u' n'} : State.Keeps s (@State.slotRestore u u' n') := by
  unfold State.slotRestore
  try dsimp only
  repeat'
    first
    | with_reducible assumption | intro _ | simp only [State.Keeps.rest] | with_reducible apply State.readSeen_keeps
    | with_reducible apply State.undoRestore_keeps | with_reducible apply State.raiseBits_keeps
    | with_reducible apply State.raiseJob_keeps | split

theorem State.unitRestore_keeps {s u} (h : State.Keeps s u) {u'} : State.Keeps s (@State.unitRestore u u') := by
  unfold State.unitRestore
  try dsimp only
  repeat'
    first
    | with_reducible assumption | intro _ | simp only [State.Keeps.rest] | with_reducible apply State.setUnitState_keeps
    | with_reducible apply State.forAll_keeps | with_reducible apply State.slotRestore_keeps
    | with_reducible apply State.forAll_keeps | split

theorem State.amaxClear_keeps {s u} (h : State.Keeps s u) : State.Keeps s (@State.amaxClear u) := by
  unfold State.amaxClear; repeat' first | with_reducible assumption | intro _ | with_reducible apply State.arrive_keeps | with_reducible apply State.forAll_keeps | split

theorem State.ringShow_keeps {s u} (h : State.Keeps s u) : State.Keeps s (@State.ringShow u) := by
  unfold State.ringShow
  try dsimp only
  repeat'
    first
    | with_reducible assumption | intro _ | simp only [State.Keeps.rest] | with_reducible apply State.forAll_keeps
    | with_reducible apply State.setRegN_keeps | with_reducible apply State.forAll_keeps | split

theorem State.sweepReset_keeps {s u} (h : State.Keeps s u) {rolled'} : State.Keeps s (@State.sweepReset u rolled') := by
  unfold State.sweepReset
  dsimp only
  repeat'
    first
    | with_reducible assumption | intro _ | simp only [State.Keeps.rest] | with_reducible apply State.cursorWrite_keeps
    | with_reducible apply State.setRegN_keeps | with_reducible apply State.count_keeps | with_reducible apply State.forAll_keeps
    | split

theorem State.onColl_keeps {s u} (h : State.Keeps s u) {i' f'} : State.Keeps s (@State.onColl u i' f') := by
  unfold State.onColl; dsimp only; repeat' first | with_reducible assumption | simp only [State.Keeps.rest]

theorem State.rlyRefresh_keeps {s u} (h : State.Keeps s u) {e'} : State.Keeps s (@State.rlyRefresh u e') := by
  unfold State.rlyRefresh; repeat' first | with_reducible assumption | with_reducible apply State.setRegN_keeps

theorem State.collEnd_keeps {s u} (h : State.Keeps s u) {i' status'} : State.Keeps s (@State.collEnd u i' status') := by
  unfold State.collEnd
  dsimp only
  repeat'
    first
    | with_reducible assumption | intro _ | simp only [State.Keeps.rest] | with_reducible apply State.arrive_keeps
    | with_reducible apply State.count_keeps | with_reducible apply State.onColl_keeps | with_reducible apply State.rlyRefresh_keeps
    | with_reducible apply State.setRegN_keeps | split

theorem State.landRefused_keeps {s u} (h : State.Keeps s u) {i' a' st'} : State.Keeps s (@State.landRefused u i' a' st') := by
  unfold State.landRefused
  dsimp only
  repeat'
    first
    | with_reducible assumption | with_reducible apply State.raiseBits_keeps | with_reducible apply State.eccVoid_keeps
    | with_reducible apply State.collEnd_keeps | with_reducible apply State.raise_keeps | with_reducible apply State.ochre_keeps
    | split

theorem State.rlyWrite_keeps {s u} (h : State.Keeps s u) {w' i' a' bs'} : State.Keeps s (@State.rlyWrite u w' i' a' bs') := by
  unfold State.rlyWrite
  try dsimp only
  repeat'
    first
    | with_reducible assumption | intro _ | simp only [State.Keeps.rest] | with_reducible apply State.lateHome_keeps
    | with_reducible apply State.arrive_keeps | with_reducible apply State.landRefused_keeps | split

theorem State.rlyRead_keeps {s u} (h : State.Keeps s u) {i' a' n' f'} (gf : ∀ x0 x1, State.Keeps s x1 → State.Keeps s (f' x0 x1)) : State.Keeps s (@State.rlyRead u i' a' n' f') := by
  unfold State.rlyRead
  try dsimp only
  repeat'
    first
    | with_reducible assumption | intro _ | simp only [State.Keeps.rest] | with_reducible apply gf
    | with_reducible apply State.readSeen_keeps | with_reducible apply State.landRefused_keeps | split

theorem State.sendFrag_keeps {s u} (h : State.Keeps s u) {i' r' step' dtype' chunk' elem' count' ready' payload'} : State.Keeps s (@State.sendFrag u i' r' step' dtype' chunk' elem' count' ready' payload') := by
  unfold State.sendFrag; dsimp only; repeat' first | with_reducible assumption | with_reducible apply State.count64_keeps | with_reducible apply State.sendRank_keeps

theorem State.redTrouble_keeps {s u} (h : State.Keeps s u) {i' k' t'} : State.Keeps s (@State.redTrouble u i' k' t') := by
  unfold State.redTrouble; repeat' first | with_reducible assumption | with_reducible apply State.ochre_keeps | split

theorem State.pairRun_keeps {s u} (h : State.Keeps s u) {w' i' k' b0' l'} : State.Keeps s (@State.pairRun u w' i' k' b0' l') := by
  unfold State.pairRun
  try dsimp only
  repeat'
    first
    | with_reducible assumption | intro _ | simp only [State.Keeps.rest] | with_reducible apply State.forAll_keeps
    | with_reducible apply State.rlyWrite_keeps | with_reducible apply State.onColl_keeps
    | with_reducible apply State.sendFrag_keeps | with_reducible apply State.forAll_keeps | split

theorem State.redRead_keeps {s u} (h : State.Keeps s u) {i' k' b0' m' f'} (gf : ∀ x0, State.Keeps s x0 → State.Keeps s (f' x0)) : State.Keeps s (@State.redRead u i' k' b0' m' f') := by
  unfold State.redRead
  try dsimp only
  repeat'
    first
    | with_reducible assumption | intro _ | simp only [State.Keeps.rest] | with_reducible apply gf
    | with_reducible apply State.rlyRead_keeps | split

theorem State.redRun_keeps {s u} (h : State.Keeps s u) {i' k' b0' m'} : State.Keeps s (@State.redRun u i' k' b0' m') := by
  unfold State.redRun
  try dsimp only
  repeat'
    first
    | with_reducible assumption | intro _ | simp only [State.Keeps.rest] | with_reducible apply State.redRead_keeps
    | with_reducible apply State.redTrouble_keeps | with_reducible apply State.pairRun_keeps
    | with_reducible apply State.sendFrag_keeps | with_reducible apply State.onColl_keeps
    | with_reducible apply State.Keeps.foldl | with_reducible apply State.Keeps.foldl1 | with_reducible apply State.Keeps.foldl2
    | with_reducible apply State.Keeps.foldlR | with_reducible apply State.Keeps.foldlR1 | split

theorem State.redNow_keeps {s u} (h : State.Keeps s u) {i' k' b0' m'} : State.Keeps s (@State.redNow u i' k' b0' m') := by
  unfold State.redNow
  try dsimp only
  repeat'
    first
    | with_reducible assumption | intro _ | simp only [State.Keeps.rest] | with_reducible apply State.redRun_keeps
    | with_reducible apply State.Keeps.foldl | with_reducible apply State.Keeps.foldl1 | with_reducible apply State.Keeps.foldl2
    | with_reducible apply State.Keeps.foldlR | with_reducible apply State.Keeps.foldlR1 | split

theorem State.redOpen_keeps {s u} (h : State.Keeps s u) {i'} : State.Keeps s (@State.redOpen u i') := by
  unfold State.redOpen
  try dsimp only
  repeat'
    first
    | with_reducible assumption | intro _ | simp only [State.Keeps.rest] | with_reducible apply State.forAll_keeps
    | with_reducible apply State.redNow_keeps | with_reducible apply State.forAll_keeps | split

theorem State.sendChunk_keeps {s u} (h : State.Keeps s u) {i' r' step' chunk' base'} : State.Keeps s (@State.sendChunk u i' r' step' chunk' base') := by
  unfold State.sendChunk
  dsimp only
  repeat'
    first
    | with_reducible assumption | intro _ | with_reducible apply State.rlyRead_keeps | with_reducible apply State.sendFrag_keeps
    | with_reducible apply State.forAll_keeps | split

theorem State.landData_keeps {s u} (h : State.Keeps s u) {w' i' base' elem' count' d'} : State.Keeps s (@State.landData u w' i' base' elem' count' d') := by
  unfold State.landData
  try dsimp only
  repeat'
    first
    | with_reducible assumption | intro _ | simp only [State.Keeps.rest] | with_reducible apply State.count_keeps
    | with_reducible apply State.rlyWrite_keeps | split

theorem State.kvSend_keeps {s u} (h : State.Keeps s u) {i n} : State.Keeps s (State.kvSend i n u) := by
  induction n generalizing u with
  | zero => exact h
  | succ n ih =>
    unfold State.kvSend; dsimp only
    split
    · exact ih (State.onColl_keeps (State.sendChunk_keeps h))
    · exact h

theorem State.kvLanded_keeps {s u} (h : State.Keeps s u) {i'} : State.Keeps s (@State.kvLanded u i') := by
  unfold State.kvLanded
  try dsimp only
  repeat'
    first
    | with_reducible assumption | intro _ | simp only [State.Keeps.rest] | with_reducible apply State.onColl_keeps
    | with_reducible apply State.rlyWrite_keeps | with_reducible apply State.kvSend_keeps | split

theorem State.gatherBase_keeps {s u} (h : State.Keeps s u) {i} : State.Keeps s (u.gatherBase i) := by
  unfold State.gatherBase
  dsimp only
  split
  · rename_i e
    exact State.onColl_keeps (State.Keeps.snd (State.poolGrant_keeps h) e)
  · rename_i e
    exact State.onColl_keeps (State.Keeps.snd (State.poolGrant_keeps h) e)

theorem State.gatherLand_keeps {s u} (h : State.Keeps s u) {w' i' base' d'} : State.Keeps s (@State.gatherLand u w' i' base' d') := by
  unfold State.gatherLand
  try dsimp only
  repeat'
    first
    | with_reducible assumption | intro _ | simp only [State.Keeps.rest] | with_reducible apply State.count_keeps
    | with_reducible apply State.landData_keeps | with_reducible apply State.onColl_keeps | split

theorem State.gatherPass_keeps {s u} (h : State.Keeps s u) {i' d'} : State.Keeps s (@State.gatherPass u i' d') := by
  unfold State.gatherPass
  try dsimp only
  repeat'
    first
    | with_reducible assumption | intro _ | simp only [State.Keeps.rest] | with_reducible apply State.forAll_keeps
    | with_reducible apply State.sendFrag_keeps | with_reducible apply State.forAll_keeps | split

theorem State.gatherRx_keeps {s u} (h : State.Keeps s u) {w' i' d'} : State.Keeps s (@State.gatherRx u w' i' d') := by
  unfold State.gatherRx
  try dsimp only
  repeat'
    first
    | with_reducible assumption | intro _ | simp only [State.Keeps.rest] | with_reducible apply State.gatherLand_keeps
    | with_reducible apply State.gatherPass_keeps | with_reducible apply State.onColl_keeps | split

theorem State.stageRx_keeps {s u} (h : State.Keeps s u) {w' i' r' off' bs'} : State.Keeps s (@State.stageRx u w' i' r' off' bs') := by
  unfold State.stageRx
  try dsimp only
  repeat'
    first
    | with_reducible assumption | intro _ | simp only [State.Keeps.rest] | with_reducible apply State.rlyWrite_keeps
    | with_reducible apply State.onColl_keeps | split

theorem State.permSend_keeps {s u} (h : State.Keeps s u) {i' e'} : State.Keeps s (@State.permSend u i' e') := by
  unfold State.permSend
  try dsimp only
  repeat'
    first
    | with_reducible assumption | intro _ | simp only [State.Keeps.rest] | with_reducible apply State.forAll_keeps
    | with_reducible apply State.rlyRead_keeps | with_reducible apply State.stageRx_keeps
    | with_reducible apply State.sendFrag_keeps | with_reducible apply State.forAll_keeps | split

theorem State.permList_keeps {s u} (h : State.Keeps s u) {i' list' f'} (gf : ∀ x0 x1, State.Keeps s x1 → State.Keeps s (f' x0 x1)) : State.Keeps s (@State.permList u i' list' f') := by
  unfold State.permList
  try dsimp only
  repeat'
    first
    | with_reducible assumption | intro _ | simp only [State.Keeps.rest] | with_reducible apply gf
    | with_reducible apply State.rlyRead_keeps | split

theorem State.permStage_keeps {s u} (h : State.Keeps s u) {i' st'} : State.Keeps s (@State.permStage u i' st') := by
  unfold State.permStage
  try dsimp only
  repeat'
    first
    | with_reducible assumption | intro _ | simp only [State.Keeps.rest] | with_reducible apply State.onColl_keeps
    | with_reducible apply State.hrdArriveLocal_keeps | split

theorem State.permOpen_keeps {s u} (h : State.Keeps s u) {i'} : State.Keeps s (@State.permOpen u i') := by
  unfold State.permOpen
  try dsimp only
  repeat'
    first
    | with_reducible assumption | intro _ | simp only [State.Keeps.rest] | with_reducible apply State.permList_keeps
    | with_reducible apply State.permSend_keeps | with_reducible apply State.permStage_keeps
    | with_reducible apply State.Keeps.foldl | with_reducible apply State.Keeps.foldl1 | with_reducible apply State.Keeps.foldl2
    | with_reducible apply State.Keeps.foldlR | with_reducible apply State.Keeps.foldlR1 | split

theorem State.permFault_keeps {s u} (h : State.Keeps s u) {i'} : State.Keeps s (@State.permFault u i') := by
  unfold State.permFault
  try dsimp only
  repeat'
    first
    | with_reducible assumption | intro _ | simp only [State.Keeps.rest] | with_reducible apply State.raiseBits_keeps
    | with_reducible apply State.raise_keeps | with_reducible apply State.freeWord_keeps
    | with_reducible apply State.collEnd_keeps | split

theorem State.permCopy_keeps {s u} (h : State.Keeps s u) {i'} : State.Keeps s (@State.permCopy u i') := by
  unfold State.permCopy
  try dsimp only
  repeat'
    first
    | with_reducible assumption | intro _ | simp only [State.Keeps.rest] | with_reducible apply State.permList_keeps
    | with_reducible apply State.rlyRead_keeps | with_reducible apply State.rlyWrite_keeps
    | with_reducible apply State.permStage_keeps | with_reducible apply State.permFault_keeps
    | with_reducible apply State.Keeps.foldl | with_reducible apply State.Keeps.foldl1 | with_reducible apply State.Keeps.foldl2
    | with_reducible apply State.Keeps.foldlR | with_reducible apply State.Keeps.foldlR1 | split

theorem State.gatherOpen_keeps {s u} (h : State.Keeps s u) {i'} : State.Keeps s (@State.gatherOpen u i') := by
  unfold State.gatherOpen
  try dsimp only
  repeat'
    first
    | with_reducible assumption | intro _ | simp only [State.Keeps.rest] | with_reducible apply State.rlyRead_keeps
    | with_reducible apply State.rlyWrite_keeps | with_reducible apply State.onColl_keeps
    | with_reducible apply State.forAll_keeps | with_reducible apply State.sendChunk_keeps
    | with_reducible apply State.gatherLand_keeps | with_reducible apply State.gatherPass_keeps
    | with_reducible apply State.forAll_keeps | with_reducible apply State.Keeps.foldl | with_reducible apply State.Keeps.foldl1
    | with_reducible apply State.Keeps.foldl2 | with_reducible apply State.Keeps.foldlR
    | with_reducible apply State.Keeps.foldlR1 | split

theorem State.poolDecide_keeps {s u} (h : State.Keeps s u) {r'} : State.Keeps s (@State.poolDecide u r') := by
  unfold State.poolDecide
  try dsimp only
  repeat'
    first
    | with_reducible assumption | intro _ | simp only [State.Keeps.rest] | with_reducible apply State.poolTakeReq_keeps
    | with_reducible apply State.pfDecide_keeps | with_reducible apply State.fillRefresh_keeps
    | with_reducible apply State.stashDecide_keeps | with_reducible apply State.gatherBase_keeps
    | with_reducible apply State.gatherOpen_keeps | with_reducible apply State.scratchPin_keeps | split

theorem State.gradByte_keeps {s u} (h : State.Keeps s u) {a' v'} : State.Keeps s (@State.gradByte u a' v') := by
  unfold State.gradByte
  try dsimp only
  repeat'
    first
    | with_reducible assumption | intro _ | simp only [State.Keeps.rest] | with_reducible apply State.arrive_keeps
    | with_reducible apply State.ochre_keeps | split

theorem State.gradRow_keeps {s u} (h : State.Keeps s u) {t' tile' r' b'} : State.Keeps s (@State.gradRow u t' tile' r' b') := by
  unfold State.gradRow
  try dsimp only
  repeat'
    first
    | with_reducible assumption | intro _ | simp only [State.Keeps.rest] | with_reducible apply State.forAll_keeps
    | with_reducible apply State.gradByte_keeps | with_reducible apply State.forAll_keeps | split

theorem State.gradZero_keeps {s u} (h : State.Keeps s u) {t'} : State.Keeps s (@State.gradZero u t') := by
  unfold State.gradZero; dsimp only; repeat' first | with_reducible assumption | intro _ | with_reducible apply State.gradRow_keeps | with_reducible apply State.forAll_keeps

theorem State.gradNone_keeps {s u} (h : State.Keeps s u) {t'} : State.Keeps s (@State.gradNone u t') := by
  unfold State.gradNone
  try dsimp only
  repeat'
    first
    | with_reducible assumption | intro _ | simp only [State.Keeps.rest] | with_reducible apply State.gradZero_keeps | split

theorem State.collOpen_keeps {s u} (h : State.Keeps s u) {i'} : State.Keeps s (@State.collOpen u i') := by
  unfold State.collOpen
  try dsimp only
  repeat'
    first
    | with_reducible assumption | intro _ | simp only [State.Keeps.rest] | with_reducible apply State.raiseBits_keeps
    | with_reducible apply State.ochre_keeps | with_reducible apply State.onColl_keeps
    | with_reducible apply State.rlyRefresh_keeps | with_reducible apply State.gradNone_keeps
    | with_reducible apply State.poolAsk_keeps | with_reducible apply State.redOpen_keeps
    | with_reducible apply State.gatherOpen_keeps | with_reducible apply State.rlyRead_keeps
    | with_reducible apply State.rlyWrite_keeps | with_reducible apply State.forAll_keeps
    | with_reducible apply State.sendChunk_keeps | with_reducible apply State.kvSend_keeps
    | with_reducible apply State.permOpen_keeps | with_reducible apply State.forAll_keeps | split

theorem State.rsCheck_keeps {s u} (h : State.Keeps s u) : State.Keeps s (@State.rsCheck u) := by
  unfold State.rsCheck
  dsimp only
  repeat'
    first
    | with_reducible assumption | simp only [State.Keeps.rest] | with_reducible apply State.phaseEnd_keeps
    | with_reducible apply State.progress_keeps | split

theorem State.badKick_keeps {s u} (h : State.Keeps s u) {e' v'} : State.Keeps s (@State.badKick u e' v') := by
  unfold State.badKick; repeat' first | with_reducible assumption | with_reducible apply State.regIgnored_keeps | with_reducible apply State.raiseBits_keeps

theorem State.freshColl_keeps {s u} (h : State.Keeps s u) {i'} : State.Keeps s (@State.freshColl u i') := by
  unfold State.freshColl
  try dsimp only
  repeat'
    first
    | with_reducible assumption | intro _ | simp only [State.Keeps.rest] | with_reducible apply State.onColl_keeps | split

theorem State.rlyKick_keeps {s u} (h : State.Keeps s u) {e' v'} : State.Keeps s (@State.rlyKick u e' v') := by
  unfold State.rlyKick
  try dsimp only
  repeat'
    first
    | with_reducible assumption | intro _ | simp only [State.Keeps.rest] | with_reducible apply State.badKick_keeps
    | with_reducible apply State.sendFrag_keeps | with_reducible apply State.collEnd_keeps
    | with_reducible apply State.freshColl_keeps | with_reducible apply State.collOpen_keeps | split

theorem State.redLand_keeps {s u} (h : State.Keeps s u) {w' i' srcNode' d'} : State.Keeps s (@State.redLand u w' i' srcNode' d') := by
  unfold State.redLand
  try dsimp only
  repeat'
    first
    | with_reducible assumption | intro _ | simp only [State.Keeps.rest] | with_reducible apply State.pairRun_keeps
    | with_reducible apply State.onColl_keeps | with_reducible apply State.rlyWrite_keeps
    | with_reducible apply State.redNow_keeps | split

theorem State.kvRx_keeps {s u} (h : State.Keeps s u) {w' i' d'} : State.Keeps s (@State.kvRx u w' i' d') := by
  unfold State.kvRx
  try dsimp only
  repeat'
    first
    | with_reducible assumption | intro _ | simp only [State.Keeps.rest] | with_reducible apply State.count_keeps
    | with_reducible apply State.kvSend_keeps | with_reducible apply State.onColl_keeps
    | with_reducible apply State.landData_keeps | with_reducible apply State.kvLanded_keeps | split

theorem State.fragLand_keeps {s u} (h : State.Keeps s u) {w' i' srcNode' d'} : State.Keeps s (@State.fragLand u w' i' srcNode' d') := by
  unfold State.fragLand
  try dsimp only
  repeat'
    first
    | with_reducible assumption | intro _ | simp only [State.Keeps.rest] | with_reducible apply State.count_keeps
    | with_reducible apply State.gatherRx_keeps | with_reducible apply State.rlyWrite_keeps
    | with_reducible apply State.onColl_keeps | with_reducible apply State.kvRx_keeps | with_reducible apply State.stageRx_keeps
    | with_reducible apply State.redLand_keeps | split

theorem State.fragRx_keeps {s u} (h : State.Keeps s u) {m'} : State.Keeps s (@State.fragRx u m') := by
  unfold State.fragRx
  try dsimp only
  repeat'
    first
    | with_reducible assumption | intro _ | simp only [State.Keeps.rest] | with_reducible apply State.count_keeps
    | with_reducible apply State.raiseBits_keeps | with_reducible apply State.raise_keeps
    | with_reducible apply State.collEnd_keeps | with_reducible apply State.ochre_keeps
    | with_reducible apply State.lateLap_keeps | with_reducible apply State.freshColl_keeps
    | with_reducible apply State.fragLand_keeps | with_reducible apply State.count64_keeps | split

theorem State.relayVoid_keeps {s u} (h : State.Keeps s u) : State.Keeps s (@State.relayVoid u) := by
  unfold State.relayVoid
  dsimp only
  repeat'
    first
    | with_reducible assumption | intro _ | simp only [State.Keeps.rest] | with_reducible apply State.poolDrop_keeps
    | with_reducible apply State.rlyRefresh_keeps | with_reducible apply State.forAll_keeps

theorem State.amaxReduce_keeps {s u} (h : State.Keeps s u) {g' peers'} : State.Keeps s (@State.amaxReduce u g' peers') := by
  unfold State.amaxReduce
  dsimp only
  repeat'
    first
    | with_reducible assumption | intro _ | simp only [State.Keeps.rest] | with_reducible apply State.sbAmax_keeps
    | with_reducible apply State.rsCheck_keeps | with_reducible apply State.Keeps.foldl | with_reducible apply State.Keeps.foldl1
    | with_reducible apply State.Keeps.foldl2 | with_reducible apply State.Keeps.foldlR | with_reducible apply State.Keeps.foldlR1
    | split

theorem State.gradTamax_keeps {s u} (h : State.Keeps s u) {t' tile' r'} : State.Keeps s (@State.gradTamax u t' tile' r') := by
  unfold State.gradTamax
  try dsimp only
  repeat'
    first
    | with_reducible assumption | intro _ | simp only [State.Keeps.rest] | with_reducible apply State.count_keeps
    | with_reducible apply State.raise_keeps | split

theorem State.homeTake_keeps {s u} (h : State.Keeps s u) {i'} : State.Keeps s (@State.homeTake u i') := by
  unfold State.homeTake
  try dsimp only
  repeat'
    first
    | with_reducible assumption | intro _ | simp only [State.Keeps.rest] | with_reducible apply State.sbAmax_keeps
    | with_reducible apply State.forAll_keeps | with_reducible apply State.gradTamax_keeps
    | with_reducible apply State.ochre_keeps | with_reducible apply State.gradRow_keeps
    | with_reducible apply State.gradZero_keeps | with_reducible apply State.progress_keeps
    | with_reducible apply State.forAll_keeps | with_reducible apply State.Keeps.foldl | with_reducible apply State.Keeps.foldl1
    | with_reducible apply State.Keeps.foldl2 | with_reducible apply State.Keeps.foldlR
    | with_reducible apply State.Keeps.foldlR1 | split

theorem State.homeRead_keeps {s u} (h : State.Keeps s u) {i'} : State.Keeps s (@State.homeRead u i') := by
  unfold State.homeRead
  try dsimp only
  repeat'
    first
    | with_reducible assumption | intro _ | simp only [State.Keeps.rest] | with_reducible apply State.raiseBits_keeps
    | with_reducible apply State.eccVoid_keeps | with_reducible apply State.ochre_keeps
    | with_reducible apply State.readSeen_keeps | with_reducible apply State.homeTake_keeps | split

theorem State.ibiSend_keeps {s u} (h : State.Keeps s u) {b'} : State.Keeps s (@State.ibiSend u b') := by
  unfold State.ibiSend; dsimp only; repeat' first | with_reducible assumption | simp only [State.Keeps.rest]

theorem State.ibiFlush_keeps {s u} (h : State.Keeps s u) : State.Keeps s (@State.ibiFlush u) := by
  unfold State.ibiFlush; repeat' first | with_reducible assumption | intro _ | with_reducible apply State.ibiSend_keeps | with_reducible apply State.forAll_keeps | split

theorem State.ibi_keeps {s u} (h : State.Keeps s u) {b'} : State.Keeps s (@State.ibi u b') := by
  unfold State.ibi; dsimp only; repeat' first | with_reducible assumption | simp only [State.Keeps.rest] | with_reducible apply State.ibiFlush_keeps

theorem State.tick_keeps {s u} (h : State.Keeps s u) : State.Keeps s (@State.tick u) := by
  unfold State.tick
  try dsimp only
  repeat'
    first
    | with_reducible assumption | intro _ | simp only [State.Keeps.rest] | with_reducible apply State.upset_keeps
    | with_reducible apply State.slewTick_keeps | with_reducible apply State.trainTick_keeps
    | with_reducible apply State.ibiFlush_keeps | split

theorem State.trayPut_keeps {s u} (h : State.Keeps s u) {e'} : State.Keeps s (@State.trayPut u e') := by
  unfold State.trayPut
  dsimp only
  repeat'
    first
    | with_reducible assumption | simp only [State.Keeps.rest] | with_reducible apply State.ibi_keeps
    | with_reducible apply State.Keeps.putMem | with_reducible apply State.Keeps.putHub | with_reducible apply State.Keeps.putHost
    | split

theorem State.trayDrain_keeps {s u} (h : State.Keeps s u) {n} : State.Keeps s (State.trayDrain n u) := by
  induction n generalizing u with
  | zero => exact h
  | succ n ih =>
    unfold State.trayDrain
    split
    · exact h
    · split
      · exact ih (State.ibi_keeps (State.Keeps.putHub h))
      · exact h

theorem State.deferRefresh_keeps {s u} (h : State.Keeps s u) {m'} : State.Keeps s (@State.deferRefresh u m') := by
  unfold State.deferRefresh; repeat' first | with_reducible assumption | with_reducible apply State.putField_keeps

theorem State.cmdDone_keeps {s u} (h : State.Keeps s u) {d' st' detail'} : State.Keeps s (@State.cmdDone u d' st' detail') := by
  unfold State.cmdDone
  dsimp only
  repeat'
    first
    | with_reducible assumption | intro _ | simp only [State.Keeps.rest] | with_reducible apply State.raise_keeps
    | with_reducible apply State.trayPut_keeps | with_reducible apply State.deferRefresh_keeps
    | with_reducible apply State.forAll_keeps | split

theorem State.doneOf_keeps {s u} (h : State.Keeps s u) {op' st'} : State.Keeps s (@State.doneOf u op' st') := by
  unfold State.doneOf; repeat' first | with_reducible assumption | intro _ | with_reducible apply State.cmdDone_keeps | with_reducible apply State.Keeps.foldl

theorem State.abortDeferred_keeps {s u} (h : State.Keeps s u) : State.Keeps s (@State.abortDeferred u) := by
  unfold State.abortDeferred; repeat' first | with_reducible assumption | intro _ | with_reducible apply State.cmdDone_keeps | with_reducible apply State.Keeps.foldl

theorem State.onTwin_keeps {s u} (h : State.Keeps s u) {f'} : State.Keeps s (@State.onTwin u f') := by
  unfold State.onTwin; repeat' first | with_reducible assumption | simp only [State.Keeps.rest]

theorem State.twinSend_keeps {s u} (h : State.Keeps s u) {node' op' payload'} : State.Keeps s (@State.twinSend u node' op' payload') := by
  unfold State.twinSend; dsimp only; repeat' first | with_reducible assumption | intro _ | with_reducible apply State.sendNode_keeps | with_reducible apply State.onTwin_keeps | split

theorem State.sendHello_keeps {s u} (h : State.Keeps s u) {node' answer'} : State.Keeps s (@State.sendHello u node' answer') := by
  unfold State.sendHello; repeat' first | with_reducible assumption | with_reducible apply State.twinSend_keeps

theorem State.helloStart_keeps {s u} (h : State.Keeps s u) : State.Keeps s (@State.helloStart u) := by
  unfold State.helloStart
  repeat'
    first
    | with_reducible assumption | intro _ | with_reducible apply State.onTwin_keeps | with_reducible apply State.sendHello_keeps
    | split

theorem State.setPairing_keeps {s u} (h : State.Keeps s u) {n'} : State.Keeps s (@State.setPairing u n') := by
  unfold State.setPairing; repeat' first | with_reducible assumption | intro _ | with_reducible apply State.raiseJob_keeps | with_reducible apply State.onTwin_keeps | split

theorem State.feedCheck_keeps {s u} (h : State.Keeps s u) {which' want' got'} : State.Keeps s (@State.feedCheck u which' want' got') := by
  unfold State.feedCheck; repeat' first | with_reducible assumption | with_reducible apply State.raiseJob_keeps | split

theorem State.helloRx_keeps {s u} (h : State.Keeps s u) {src' p'} : State.Keeps s (@State.helloRx u src' p') := by
  unfold State.helloRx
  dsimp only
  repeat'
    first
    | with_reducible assumption | intro _ | with_reducible apply State.sendHello_keeps | with_reducible apply State.onTwin_keeps
    | with_reducible apply State.feedCheck_keeps | with_reducible apply State.setPairing_keeps
    | with_reducible apply State.raiseJob_keeps | split

theorem State.blockFrom_keeps {s u} (h : State.Keeps s u) {i' k' b'} : State.Keeps s (@State.blockFrom u i' k' b') := by
  unfold State.blockFrom; dsimp only; repeat' first | with_reducible assumption | with_reducible apply State.arrive_keeps | split

theorem State.imageWrite_keeps {s u} (h : State.Keeps s u) {i g a img} : State.Keeps s (u.imageWrite i g a img) := by
  unfold State.imageWrite; dsimp only
  split
  · exact State.Keeps.foldl1 (u := (u, 0)) h fun t a k => State.arrive_keeps k
  split
  · exact State.arrive_keeps h
  · exact State.Keeps.foldl1 (u := (u, 0)) h fun t a k => State.blockFrom_keeps k

theorem State.sendMade_keeps {s u} (h : State.Keeps s u) : State.Keeps s (@State.sendMade u) := by
  unfold State.sendMade
  dsimp only
  repeat'
    first
    | with_reducible assumption | intro _ | simp only [State.Keeps.rest] | with_reducible apply State.onTwin_keeps
    | with_reducible apply State.twinSend_keeps | with_reducible apply State.Keeps.foldl

theorem State.groupRestore_keeps {s u} (h : State.Keeps s u) {i' g'} : State.Keeps s (@State.groupRestore u i' g') := by
  unfold State.groupRestore
  try dsimp only
  repeat'
    first
    | with_reducible assumption | intro _ | simp only [State.Keeps.rest] | with_reducible apply State.forAll_keeps
    | with_reducible apply State.slotRestore_keeps | with_reducible apply State.forAll_keeps | split

theorem State.sweepAgain_keeps {s u} (h : State.Keeps s u) {i' k' gr'} : State.Keeps s (@State.sweepAgain u i' k' gr') := by
  unfold State.sweepAgain; dsimp only; repeat' first | with_reducible assumption | with_reducible apply State.sweepStop_keeps | with_reducible apply State.blockWrite_keeps | split

theorem State.groupRecord_keeps {s u} (h : State.Keeps s u) {i' g'} : State.Keeps s (@State.groupRecord u i' g') := by
  unfold State.groupRecord; repeat' first | with_reducible assumption | with_reducible apply State.digestWrite_keeps

theorem State.sendMirror_keeps {s u} (h : State.Keeps s u) {i' k' gr'} : State.Keeps s (@State.sendMirror u i' k' gr') := by
  unfold State.sendMirror; repeat' first | with_reducible assumption | with_reducible apply State.sendNode_keeps

theorem State.factorAgain_keeps {s u} (h : State.Keeps s u) {i'} : State.Keeps s (@State.factorAgain u i') := by
  unfold State.factorAgain; dsimp only; repeat' first | with_reducible assumption | intro _ | with_reducible apply State.groupRestore_keeps | with_reducible apply State.arrive_keeps

theorem State.bookAgain_keeps {s u} (h : State.Keeps s u) : State.Keeps s (@State.bookAgain u) := by
  unfold State.bookAgain
  dsimp only
  repeat'
    first
    | with_reducible assumption | intro _ | with_reducible apply State.bookEntry_keeps | with_reducible apply State.digestWrite_keeps
    | with_reducible apply State.forAll_keeps

theorem State.recompute_keeps {s u} (h : State.Keeps s u) {i' g'} : State.Keeps s (@State.recompute u i' g') := by
  unfold State.recompute
  dsimp only
  repeat'
    first
    | with_reducible assumption | intro _ | with_reducible apply State.groupRestore_keeps | with_reducible apply State.onTwin_keeps
    | with_reducible apply State.bookAgain_keeps | with_reducible apply State.groupRecord_keeps
    | with_reducible apply State.factorAgain_keeps | with_reducible apply State.sendMirror_keeps
    | with_reducible apply State.sweepAgain_keeps | with_reducible apply State.forAll_keeps | split

theorem State.redoCheck_keeps {s u} (h : State.Keeps s u) {i' g'} : State.Keeps s (@State.redoCheck u i' g') := by
  unfold State.redoCheck; dsimp only; repeat' first | with_reducible assumption | with_reducible apply State.recompute_keeps | split

theorem State.pullNext_keeps {s u} (h : State.Keeps s u) : State.Keeps s (@State.pullNext u) := by
  unfold State.pullNext; dsimp only; repeat' first | with_reducible assumption | intro _ | with_reducible apply State.twinSend_keeps | with_reducible apply State.onTwin_keeps | split

theorem State.pullStart_keeps {s u} (h : State.Keeps s u) {p'} : State.Keeps s (@State.pullStart u p') := by
  unfold State.pullStart; repeat' first | with_reducible assumption | intro _ | with_reducible apply State.pullNext_keeps | with_reducible apply State.onTwin_keeps

theorem State.coreHalt_keeps {s u} (h : State.Keeps s u) {c'} : State.Keeps s (@State.coreHalt u c') := by
  unfold State.coreHalt
  try dsimp only
  repeat'
    first
    | with_reducible assumption | intro _ | simp only [State.Keeps.rest] | with_reducible apply State.setCoreState_keeps
    | with_reducible apply State.onCore_keeps | with_reducible apply State.showUnits_keeps | split

theorem State.retirePod_keeps {s u} (h : State.Keeps s u) : State.Keeps s (@State.retirePod u) := by
  unfold State.retirePod
  try dsimp only
  repeat'
    first
    | with_reducible assumption | intro _ | simp only [State.Keeps.rest] | with_reducible apply State.forAll_keeps
    | with_reducible apply State.coreHalt_keeps | with_reducible apply State.onPod_keeps
    | with_reducible apply State.raise_keeps | with_reducible apply State.forAll_keeps | split

theorem State.settle_keeps {s u} (h : State.Keeps s u) {i' g'} : State.Keeps s (@State.settle u i' g') := by
  unfold State.settle
  try dsimp only
  repeat'
    first
    | with_reducible assumption | intro _ | simp only [State.Keeps.rest] | with_reducible apply State.onTwin_keeps
    | with_reducible apply State.raiseJob_keeps | with_reducible apply State.retirePod_keeps
    | with_reducible apply State.pullStart_keeps | with_reducible apply State.ochre_keeps | split

theorem State.digestEnd_keeps {s u} (h : State.Keeps s u) : State.Keeps s (@State.digestEnd u) := by
  unfold State.digestEnd
  dsimp only
  repeat'
    first
    | with_reducible assumption | simp only [State.Keeps.rest] | with_reducible apply State.phaseEnd_keeps
    | with_reducible apply State.progress_keeps | split

theorem State.twinStep_keeps {s u} (h : State.Keeps s u) : State.Keeps s (@State.twinStep u) := by
  unfold State.twinStep
  dsimp only
  repeat'
    first
    | with_reducible assumption | intro _ | with_reducible apply State.sendMade_keeps | with_reducible apply State.redoCheck_keeps
    | with_reducible apply State.digestEnd_keeps | with_reducible apply State.settle_keeps | with_reducible apply State.Keeps.foldl
    | with_reducible apply State.Keeps.foldl1 | with_reducible apply State.Keeps.foldl2 | with_reducible apply State.Keeps.foldlR
    | with_reducible apply State.Keeps.foldlR1 | split

theorem State.digestRx_keeps {s u} (h : State.Keeps s u) {node' p'} : State.Keeps s (@State.digestRx u node' p') := by
  unfold State.digestRx; dsimp only; repeat' first | with_reducible assumption | intro _ | with_reducible apply State.twinStep_keeps | with_reducible apply State.onTwin_keeps | split

theorem State.sendSeals_keeps {s u} (h : State.Keeps s u) {node' slot' digest'} : State.Keeps s (@State.sendSeals u node' slot' digest') := by
  unfold State.sendSeals; dsimp only; repeat' first | with_reducible assumption | intro _ | with_reducible apply State.twinSend_keeps | with_reducible apply State.forAll_keeps | split

theorem State.pullRx_keeps {s u} (h : State.Keeps s u) {node' p'} : State.Keeps s (@State.pullRx u node' p') := by
  unfold State.pullRx
  dsimp only
  repeat'
    first
    | with_reducible assumption | intro _ | with_reducible apply State.sendSeals_keeps | with_reducible apply State.onTwin_keeps
    | with_reducible apply State.sendNode_keeps | with_reducible apply State.forAll_keeps | split

theorem State.ackRx_keeps {s u} (h : State.Keeps s u) {node' tag'} : State.Keeps s (@State.ackRx u node' tag') := by
  unfold State.ackRx
  dsimp only
  repeat'
    first
    | with_reducible assumption | intro _ | with_reducible apply State.sendSeals_keeps | with_reducible apply State.onTwin_keeps
    | split

theorem State.pullPop_keeps {s u} (h : State.Keeps s u) : State.Keeps s (@State.pullPop u) := by
  unfold State.pullPop; repeat' first | with_reducible assumption | intro _ | with_reducible apply State.pullNext_keeps | with_reducible apply State.onTwin_keeps

theorem State.restoreEnd_keeps {s u} (h : State.Keeps s u) {st'} : State.Keeps s (@State.restoreEnd u st') := by
  unfold State.restoreEnd
  repeat'
    first
    | with_reducible assumption | intro _ | with_reducible apply State.doneOf_keeps | with_reducible apply State.pullNext_keeps
    | with_reducible apply State.onTwin_keeps

theorem State.restoreHeat_keeps {s u} (h : State.Keeps s u) {heat'} : State.Keeps s (@State.restoreHeat u heat') := by
  unfold State.restoreHeat; dsimp only; repeat' first | with_reducible assumption | intro _ | simp only [State.Keeps.rest] | with_reducible apply State.onTwin_keeps | split

theorem State.restoreIdx_keeps {s u} (h : State.Keeps s u) {i' heat'} : State.Keeps s (@State.restoreIdx u i' heat') := by
  unfold State.restoreIdx
  dsimp only
  repeat'
    first
    | with_reducible assumption | intro _ | with_reducible apply State.onTwin_keeps | with_reducible apply State.setRegN_keeps
    | with_reducible apply State.cursorWrite_keeps | with_reducible apply State.restoreHeat_keeps | split

theorem State.restoreStep_keeps {s u} (h : State.Keeps s u) {i' heat'} : State.Keeps s (@State.restoreStep u i' heat') := by
  unfold State.restoreStep; dsimp only; repeat' first | with_reducible assumption | with_reducible apply State.restoreIdx_keeps | with_reducible apply State.restoreEnd_keeps | split

theorem State.rotLost_keeps {s u} (h : State.Keeps s u) {i' g'} : State.Keeps s (@State.rotLost u i' g') := by
  unfold State.rotLost
  try dsimp only
  repeat'
    first
    | with_reducible assumption | intro _ | simp only [State.Keeps.rest] | with_reducible apply State.jobCrimson_keeps | split

theorem State.pullLost_keeps {s u} (h : State.Keeps s u) {p' status'} : State.Keeps s (@State.pullLost u p' status') := by
  unfold State.pullLost
  try dsimp only
  repeat'
    first
    | with_reducible assumption | intro _ | simp only [State.Keeps.rest] | with_reducible apply State.settle_keeps
    | with_reducible apply State.freeWord_keeps | with_reducible apply State.pullPop_keeps
    | with_reducible apply State.ochre_keeps | with_reducible apply State.rotLost_keeps
    | with_reducible apply State.restoreEnd_keeps | split

theorem State.pullFail_keeps {s u} (h : State.Keeps s u) {p'} : State.Keeps s (@State.pullFail u p') := by
  unfold State.pullFail
  repeat'
    first
    | with_reducible assumption | intro _ | with_reducible apply State.pullNext_keeps | with_reducible apply State.onTwin_keeps
    | with_reducible apply State.pullLost_keeps | split

theorem State.pullTake_keeps {s u} (h : State.Keeps s u) {p' digest'} : State.Keeps s (@State.pullTake u p' digest') := by
  unfold State.pullTake
  dsimp only
  repeat'
    first
    | with_reducible assumption | intro _ | with_reducible apply State.pullFail_keeps | with_reducible apply State.pullPop_keeps
    | with_reducible apply State.imageWrite_keeps | with_reducible apply State.arrive_keeps | with_reducible apply State.twinStep_keeps
    | with_reducible apply State.onTwin_keeps | with_reducible apply State.raiseJob_keeps
    | with_reducible apply State.restoreStep_keeps | split

theorem State.lostPull_keeps {s u} (h : State.Keeps s u) : State.Keeps s (@State.lostPull u) := by
  unfold State.lostPull
  try dsimp only
  repeat'
    first
    | with_reducible assumption | intro _ | simp only [State.Keeps.rest] | with_reducible apply State.onTwin_keeps
    | with_reducible apply State.forAll_keeps | with_reducible apply State.rotLost_keeps
    | with_reducible apply State.pullStart_keeps | with_reducible apply State.forAll_keeps | split

theorem State.sealRx_keeps {s u} (h : State.Keeps s u) {node' d'} : State.Keeps s (@State.sealRx u node' d') := by
  unfold State.sealRx
  dsimp only
  repeat'
    first
    | with_reducible assumption | intro _ | with_reducible apply State.pullLost_keeps | with_reducible apply State.pullFail_keeps
    | with_reducible apply State.onTwin_keeps | with_reducible apply State.pullTake_keeps | split

theorem State.slotBad_keeps {s u} (h : State.Keeps s u) {node' op'} : State.Keeps s (@State.slotBad u node' op') := by
  unfold State.slotBad; repeat' first | with_reducible assumption | with_reducible apply State.raiseJob_keeps

theorem State.slotRx_keeps {s u} (h : State.Keeps s u) {node' b'} : State.Keeps s (@State.slotRx u node' b') := by
  unfold State.slotRx
  dsimp only
  repeat'
    first
    | with_reducible assumption | with_reducible apply State.slotBad_keeps | with_reducible apply State.helloRx_keeps
    | with_reducible apply State.digestRx_keeps | with_reducible apply State.pullRx_keeps | with_reducible apply State.sealRx_keeps
    | split

theorem State.mirrorAgain_keeps {s u} (h : State.Keeps s u) {i' k' gr'} : State.Keeps s (@State.mirrorAgain u i' k' gr') := by
  unfold State.mirrorAgain
  dsimp only
  repeat'
    first
    | with_reducible assumption | intro _ | with_reducible apply State.onTwin_keeps | with_reducible apply State.sweepAgain_keeps
    | with_reducible apply State.twinStep_keeps | with_reducible apply State.groupRecord_keeps | split

theorem State.shadowParams_keeps {s u} (h : State.Keeps s u) : State.Keeps s (@State.shadowParams u) := by
  unfold State.shadowParams; dsimp only; repeat' first | with_reducible assumption | simp only [State.Keeps.rest] | split

theorem State.mirrorApply_keeps {s u} (h : State.Keeps s u) {i' k' d'} : State.Keeps s (@State.mirrorApply u i' k' d') := by
  unfold State.mirrorApply
  dsimp only
  repeat'
    first
    | with_reducible assumption | with_reducible apply State.shadowParams_keeps | with_reducible apply State.mirrorAgain_keeps
    | with_reducible apply State.twinStep_keeps | with_reducible apply State.sweepOne_keeps | split

theorem State.hostWrite_keeps {s u} (h : State.Keeps s u) {a' bs'} : State.Keeps s (@State.hostWrite u a' bs') := by
  unfold State.hostWrite
  repeat'
    first
    | with_reducible assumption | simp only [State.Keeps.rest] | with_reducible apply State.Keeps.putMem
    | with_reducible apply State.Keeps.putHub | with_reducible apply State.Keeps.putHost

theorem State.twinCommit_keeps {s u} (h : State.Keeps s u) {heat'} : State.Keeps s (@State.twinCommit u heat') := by
  unfold State.twinCommit; dsimp only; repeat' first | with_reducible assumption | intro _ | with_reducible apply State.onTwin_keeps | with_reducible apply State.raiseJob_keeps | split

theorem State.twinVoid_keeps {s u} (h : State.Keeps s u) : State.Keeps s (@State.twinVoid u) := by
  unfold State.twinVoid; repeat' first | with_reducible assumption | intro _ | with_reducible apply State.onTwin_keeps

theorem State.onPwr_keeps {s u} (h : State.Keeps s u) {f'} : State.Keeps s (@State.onPwr u f') := by
  unfold State.onPwr; repeat' first | with_reducible assumption | simp only [State.Keeps.rest]

theorem State.parkPod_keeps {s u} (h : State.Keeps s u) {p' a'} : State.Keeps s (@State.parkPod u p' a') := by
  unfold State.parkPod; dsimp only; repeat' first | with_reducible assumption | intro _ | with_reducible apply State.parkWrite_keeps | with_reducible apply State.forAll_keeps

theorem State.shareAllow_keeps {s u} (h : State.Keeps s u) {n'} : State.Keeps s (@State.shareAllow u n') := by
  unfold State.shareAllow; dsimp only; repeat' first | with_reducible assumption | intro _ | with_reducible apply State.parkPod_keeps | with_reducible apply State.forAll_keeps

theorem State.pwrEvent_keeps {s u} (h : State.Keeps s u) {code' shade' detail'} : State.Keeps s (@State.pwrEvent u code' shade' detail') := by
  unfold State.pwrEvent; repeat' first | with_reducible assumption | with_reducible apply State.raise_keeps

theorem State.setOp_keeps {s u} (h : State.Keeps s u) {op'} : State.Keeps s (@State.setOp u op') := by
  unfold State.setOp
  dsimp only
  repeat'
    first
    | with_reducible assumption | intro _ | with_reducible apply State.count_keeps | with_reducible apply State.putField_keeps
    | with_reducible apply State.setRegN_keeps | with_reducible apply State.onPwr_keeps | with_reducible apply State.forAll_keeps
    | split

theorem State.opUpdate_keeps {s u} (h : State.Keeps s u) {boundary'} : State.Keeps s (@State.opUpdate u boundary') := by
  unfold State.opUpdate; dsimp only; repeat' first | with_reducible assumption | with_reducible apply State.putField_keeps | with_reducible apply State.setOp_keeps | split

theorem State.setPst_keeps {s u} (h : State.Keeps s u) {n'} : State.Keeps s (@State.setPst u n') := by
  unfold State.setPst; repeat' first | with_reducible assumption | with_reducible apply State.pwrEvent_keeps | with_reducible apply State.putField_keeps

theorem State.sweepPause_keeps {s u} (h : State.Keeps s u) {pause'} : State.Keeps s (@State.sweepPause u pause') := by
  unfold State.sweepPause
  try dsimp only
  repeat'
    first
    | with_reducible assumption | intro _ | simp only [State.Keeps.rest] | with_reducible apply State.forAll_keeps
    | with_reducible apply State.onUnit_keeps | with_reducible apply State.setUnitState_keeps
    | with_reducible apply State.forAll_keeps | split

theorem State.pwrEnter_keeps {s u} (h : State.Keeps s u) {n'} : State.Keeps s (@State.pwrEnter u n') := by
  unfold State.pwrEnter
  dsimp only
  repeat'
    first
    | with_reducible assumption | intro _ | with_reducible apply State.parkWrite_keeps | with_reducible apply State.setPst_keeps
    | with_reducible apply State.onPwr_keeps | with_reducible apply State.sweepPause_keeps | with_reducible apply State.forAll_keeps

theorem State.pwrMove_keeps {s u} (h : State.Keeps s u) {cause'} : State.Keeps s (@State.pwrMove u cause') := by
  unfold State.pwrMove
  dsimp only
  repeat'
    first
    | with_reducible assumption | intro _ | with_reducible apply State.onPwr_keeps | with_reducible apply State.pwrEnter_keeps
    | with_reducible apply State.setPst_keeps | split

theorem State.cmdFloor_keeps {s u} (h : State.Keeps s u) : State.Keeps s (@State.cmdFloor u) := by
  unfold State.cmdFloor; repeat' first | with_reducible assumption | with_reducible apply State.pwrMove_keeps | with_reducible apply State.putField_keeps

theorem State.cmdPark_keeps {s u} (h : State.Keeps s u) : State.Keeps s (@State.cmdPark u) := by
  unfold State.cmdPark; repeat' first | with_reducible assumption | with_reducible apply State.pwrMove_keeps | with_reducible apply State.putField_keeps

theorem State.cmdResume_keeps {s u} (h : State.Keeps s u) : State.Keeps s (@State.cmdResume u) := by
  unfold State.cmdResume; repeat' first | with_reducible assumption | with_reducible apply State.pwrMove_keeps | with_reducible apply State.putField_keeps

theorem State.autoState_keeps {s u} (h : State.Keeps s u) : State.Keeps s (@State.autoState u) := by
  unfold State.autoState
  dsimp only
  repeat'
    first
    | with_reducible assumption | intro _ | with_reducible apply State.putField_keeps | with_reducible apply State.onPwr_keeps
    | with_reducible apply State.pwrMove_keeps

theorem State.pwrHold_keeps {s u} (h : State.Keeps s u) {n'} : State.Keeps s (@State.pwrHold u n') := by
  unfold State.pwrHold
  dsimp only
  repeat'
    first
    | with_reducible assumption | intro _ | with_reducible apply State.putField_keeps | with_reducible apply State.pwrMove_keeps
    | with_reducible apply State.setPst_keeps | with_reducible apply State.forAll_keeps

theorem State.bookSample_keeps {s u} (h : State.Keeps s u) {uw'} : State.Keeps s (@State.bookSample u uw') := by
  unfold State.bookSample; dsimp only; repeat' first | with_reducible assumption | intro _ | with_reducible apply State.count64_keeps | with_reducible apply State.onPwr_keeps | split

theorem State.backCheck_keeps {s u} (h : State.Keeps s u) {uw' path'} : State.Keeps s (@State.backCheck u uw' path') := by
  unfold State.backCheck
  dsimp only
  repeat'
    first
    | with_reducible assumption | intro _ | with_reducible apply State.onPwr_keeps | with_reducible apply State.count_keeps
    | with_reducible apply State.opUpdate_keeps | with_reducible apply State.pwrEvent_keeps
    | with_reducible apply State.raiseBits_keeps | split

theorem State.settleCheck_keeps {s u} (h : State.Keeps s u) : State.Keeps s (@State.settleCheck u) := by
  unfold State.settleCheck; dsimp only; repeat' first | with_reducible assumption | intro _ | with_reducible apply State.pwrEvent_keeps | with_reducible apply State.onPwr_keeps | split

theorem State.limitsDue_keeps {s u} (h : State.Keeps s u) : State.Keeps s (@State.limitsDue u) := by
  unfold State.limitsDue; dsimp only; repeat' first | with_reducible assumption | intro _ | with_reducible apply State.autoState_keeps | with_reducible apply State.onPwr_keeps | split

theorem State.pathReg_keeps {s u} (h : State.Keeps s u) {path'} : State.Keeps s (@State.pathReg u path') := by
  unfold State.pathReg; dsimp only; repeat' first | with_reducible assumption | with_reducible apply State.setRegN_keeps

theorem State.pathStep_keeps {s u} (h : State.Keeps s u) {uw' pnc' pcore'} : State.Keeps s (@State.pathStep u uw' pnc' pcore') := by
  unfold State.pathStep
  dsimp only
  repeat'
    first
    | with_reducible assumption | intro _ | with_reducible apply State.freeWord_keeps | with_reducible apply State.pathReg_keeps
    | with_reducible apply State.setRegN_keeps | with_reducible apply State.putField_keeps
    | with_reducible apply State.shareAllow_keeps | with_reducible apply State.onPwr_keeps

theorem State.bookOpen_keeps {s u} (h : State.Keeps s u) : State.Keeps s (@State.bookOpen u) := by
  unfold State.bookOpen; repeat' first | with_reducible assumption | intro _ | with_reducible apply State.onPwr_keeps

theorem State.sampleTake_keeps {s u} (h : State.Keeps s u) {uw'} : State.Keeps s (@State.sampleTake u uw') := by
  unfold State.sampleTake
  dsimp only
  repeat'
    first
    | with_reducible assumption | intro _ | with_reducible apply State.setReg64_keeps | with_reducible apply State.setRegN_keeps
    | with_reducible apply State.bookSample_keeps | with_reducible apply State.onPwr_keeps

theorem State.sample_keeps {s u} (h : State.Keeps s u) {uw' pnc' pcore'} : State.Keeps s (@State.sample u uw' pnc' pcore') := by
  unfold State.sample
  dsimp only
  repeat'
    first
    | with_reducible assumption | intro _ | with_reducible apply State.backCheck_keeps | with_reducible apply State.pwrHold_keeps
    | with_reducible apply State.opUpdate_keeps | with_reducible apply State.limitsDue_keeps
    | with_reducible apply State.settleCheck_keeps | with_reducible apply State.pathStep_keeps
    | with_reducible apply State.setRegN_keeps | with_reducible apply State.pathReg_keeps | with_reducible apply State.onPwr_keeps
    | with_reducible apply State.bookOpen_keeps | split

theorem State.pwrDone_keeps {s u} (h : State.Keeps s u) : State.Keeps s (@State.pwrDone u) := by
  unfold State.pwrDone; dsimp only; repeat' first | with_reducible assumption | with_reducible apply State.doneOf_keeps | split

theorem State.staggerFrom_keeps {s u} (h : State.Keeps s u) {t'} : State.Keeps s (@State.staggerFrom u t') := by
  unfold State.staggerFrom; dsimp only; repeat' first | with_reducible assumption | intro _ | with_reducible apply State.onPwr_keeps | with_reducible apply State.putField_keeps

theorem State.paceOne_keeps {s u} (h : State.Keeps s u) {k'} : State.Keeps s (@State.paceOne u k') := by
  unfold State.paceOne; dsimp only; repeat' first | with_reducible assumption | with_reducible apply State.putField_keeps | with_reducible apply State.pwrEvent_keeps | split

theorem State.paceReset_keeps {s u} (h : State.Keeps s u) : State.Keeps s (@State.paceReset u) := by
  unfold State.paceReset; repeat' first | with_reducible assumption | with_reducible apply State.setRegN_keeps

theorem State.ledgerOpen_keeps {s u} (h : State.Keeps s u) : State.Keeps s (@State.ledgerOpen u) := by
  unfold State.ledgerOpen; repeat' first | with_reducible assumption | intro _ | with_reducible apply State.onPwr_keeps

theorem State.pwrCommit_keeps {s u} (h : State.Keeps s u) {c'} : State.Keeps s (@State.pwrCommit u c') := by
  unfold State.pwrCommit
  dsimp only
  repeat'
    first
    | with_reducible assumption | intro _ | with_reducible apply State.onPwr_keeps | with_reducible apply State.paceOne_keeps
    | with_reducible apply State.staggerFrom_keeps | with_reducible apply State.setRegN_keeps | with_reducible apply State.forAll_keeps

theorem State.enforceCeil_keeps {s u} (h : State.Keeps s u) {p'} : State.Keeps s (@State.enforceCeil u p') := by
  unfold State.enforceCeil; dsimp only; repeat' first | with_reducible assumption | intro _ | with_reducible apply State.onPwr_keeps | with_reducible apply State.parkPod_keeps | split

theorem State.onHeat_keeps {s u} (h : State.Keeps s u) {f'} : State.Keeps s (@State.onHeat u f') := by
  unfold State.onHeat; repeat' first | with_reducible assumption | simp only [State.Keeps.rest]

theorem State.sweepBlock_keeps {s u} (h : State.Keeps s u) {u'} : State.Keeps s (@State.sweepBlock u u') := by
  unfold State.sweepBlock
  dsimp only
  repeat'
    first
    | with_reducible assumption | with_reducible apply State.sweepOne_keeps | with_reducible apply State.sendMirror_keeps
    | with_reducible apply State.twinStep_keeps | split

theorem State.coreLevels_keeps {s u} (h : State.Keeps s u) : State.Keeps s (@State.coreLevels u) := by
  unfold State.coreLevels; repeat' first | with_reducible assumption | intro _ | with_reducible apply State.setRegN_keeps | with_reducible apply State.forAll_keeps

theorem State.homesClear_keeps {s u} (h : State.Keeps s u) : State.Keeps s (@State.homesClear u) := by
  unfold State.homesClear; repeat' first | with_reducible assumption | intro _ | with_reducible apply State.arrive_keeps | with_reducible apply State.forAll_keeps

theorem State.bookLoad_keeps {s u} (h : State.Keeps s u) : State.Keeps s (@State.bookLoad u) := by
  unfold State.bookLoad; dsimp only; repeat' first | with_reducible assumption | simp only [State.Keeps.rest]

theorem State.portsCheck_keeps {s u} (h : State.Keeps s u) : State.Keeps s (@State.portsCheck u) := by
  unfold State.portsCheck
  repeat'
    first
    | with_reducible assumption | intro _ | with_reducible apply State.jobCrimson_keeps | with_reducible apply State.onHeat_keeps
    | split

theorem State.attemptStart_keeps {s u} (h : State.Keeps s u) : State.Keeps s (@State.attemptStart u) := by
  unfold State.attemptStart
  try dsimp only
  repeat'
    first
    | with_reducible assumption | intro _ | simp only [State.Keeps.rest] | with_reducible apply State.onHeat_keeps
    | with_reducible apply State.finish_keeps | with_reducible apply State.relayVoid_keeps
    | with_reducible apply State.gatesReset_keeps | with_reducible apply State.hurdlesReset_keeps
    | with_reducible apply State.twinVoid_keeps | with_reducible apply State.ledgerOpen_keeps
    | with_reducible apply State.scratchPin_keeps | with_reducible apply State.coreLevels_keeps
    | with_reducible apply State.homesClear_keeps | with_reducible apply State.bookLoad_keeps
    | with_reducible apply State.ringShow_keeps | with_reducible apply State.progress_keeps
    | with_reducible apply State.stashWalk_keeps | with_reducible apply State.portsCheck_keeps | split

theorem State.coresHalt_keeps {s u} (h : State.Keeps s u) : State.Keeps s (@State.coresHalt u) := by
  unfold State.coresHalt; repeat' first | with_reducible assumption | intro _ | with_reducible apply State.coreHalt_keeps | with_reducible apply State.forAll_keeps

theorem State.voidUnits_keeps {s u} (h : State.Keeps s u) : State.Keeps s (@State.voidUnits u) := by
  unfold State.voidUnits
  try dsimp only
  repeat'
    first
    | with_reducible assumption | intro _ | simp only [State.Keeps.rest] | with_reducible apply State.coresHalt_keeps
    | with_reducible apply State.shuVoid_keeps | with_reducible apply State.relayVoid_keeps
    | with_reducible apply State.forAll_keeps | with_reducible apply State.unitRestore_keeps
    | with_reducible apply State.amaxClear_keeps | with_reducible apply State.stashClear_keeps
    | with_reducible apply State.poolDrop_keeps | with_reducible apply State.twinVoid_keeps
    | with_reducible apply State.progressOff_keeps | with_reducible apply State.forAll_keeps | split

theorem State.heatVoid_keeps {s u} (h : State.Keeps s u) {f'} : State.Keeps s (@State.heatVoid u f') := by
  unfold State.heatVoid
  dsimp only
  repeat'
    first
    | with_reducible assumption | intro _ | with_reducible apply State.raiseJob_keeps | with_reducible apply State.voidSend_keeps
    | with_reducible apply State.onHeat_keeps | with_reducible apply State.onPwr_keeps | with_reducible apply State.voidUnits_keeps
    | split

theorem State.jobStopped_keeps {s u} (h : State.Keeps s u) : State.Keeps s (@State.jobStopped u) := by
  unfold State.jobStopped
  dsimp only
  repeat'
    first
    | with_reducible assumption | intro _ | with_reducible apply State.onHeat_keeps | with_reducible apply State.doneOf_keeps
    | with_reducible apply State.raiseJob_keeps | with_reducible apply State.onTwin_keeps | with_reducible apply State.cmdPark_keeps
    | split

theorem State.rollbackDone_keeps {s u} (h : State.Keeps s u) : State.Keeps s (@State.rollbackDone u) := by
  unfold State.rollbackDone
  try dsimp only
  repeat'
    first
    | with_reducible assumption | intro _ | simp only [State.Keeps.rest] | with_reducible apply State.sweepReset_keeps
    | with_reducible apply State.onHeat_keeps | with_reducible apply State.lostPull_keeps
    | with_reducible apply State.jobCrimson_keeps | split

theorem State.raiseJobAt_keeps {s u} (h : State.Keeps s u) {t' code' shade' detail'} : State.Keeps s (@State.raiseJobAt u t' code' shade' detail') := by
  unfold State.raiseJobAt; dsimp only; repeat' first | with_reducible assumption | with_reducible apply State.ringPut_keeps | with_reducible apply State.logEvent_keeps

theorem State.heatCommit_keeps {s u} (h : State.Keeps s u) {c'} : State.Keeps s (@State.heatCommit u c') := by
  unfold State.heatCommit
  try dsimp only
  repeat'
    first
    | with_reducible assumption | intro _ | simp only [State.Keeps.rest] | with_reducible apply State.raiseJobAt_keeps
    | with_reducible apply State.tick_keeps | with_reducible apply State.sweepReset_keeps
    | with_reducible apply State.stashClear_keeps | with_reducible apply State.poolDrop_keeps
    | with_reducible apply State.progressOff_keeps | with_reducible apply State.pwrCommit_keeps
    | with_reducible apply State.onHeat_keeps | with_reducible apply State.finish_keeps
    | with_reducible apply State.forAll_keeps | with_reducible apply State.setRegN_keeps
    | with_reducible apply State.twinCommit_keeps | with_reducible apply State.jobStopped_keeps
    | with_reducible apply State.forAll_keeps | split

theorem State.setHif_keeps {s u} (h : State.Keeps s u) {n'} : State.Keeps s (@State.setHif u n') := by
  unfold State.setHif; repeat' first | with_reducible assumption | with_reducible apply State.setRegN_keeps

theorem State.latchSf_keeps {s u} (h : State.Keeps s u) {n'} : State.Keeps s (@State.latchSf u n') := by
  unfold State.latchSf
  repeat'
    first
    | with_reducible assumption | intro _ | with_reducible apply State.raiseBits_keeps | with_reducible apply State.forAll_keeps
    | split

theorem State.safeUnits_keeps {s u} (h : State.Keeps s u) : State.Keeps s (@State.safeUnits u) := by
  unfold State.safeUnits
  dsimp only
  repeat'
    first
    | with_reducible assumption | intro _ | simp only [State.Keeps.rest] | with_reducible apply State.coresHalt_keeps
    | with_reducible apply State.voidSend_keeps | with_reducible apply State.onHeat_keeps | with_reducible apply State.setHold_keeps
    | with_reducible apply State.progressOff_keeps | with_reducible apply State.putField_keeps
    | with_reducible apply State.forAll_keeps | split

theorem State.safeEnter_keeps {s u} (h : State.Keeps s u) {cause' sf'} : State.Keeps s (@State.safeEnter u cause' sf') := by
  unfold State.safeEnter
  dsimp only
  repeat'
    first
    | with_reducible assumption | intro _ | with_reducible apply State.latchSf_keeps | with_reducible apply State.setRegN_keeps
    | with_reducible apply State.safeUnits_keeps | with_reducible apply State.raiseHub_keeps | with_reducible apply State.setHif_keeps
    | with_reducible apply State.ibi_keeps | with_reducible apply State.abortDeferred_keeps | with_reducible apply State.forAll_keeps
    | split

theorem State.devCrimson_keeps {s u} (h : State.Keeps s u) {code' sf' src' w' detail'} : State.Keeps s (@State.devCrimson u code' sf' src' w' detail') := by
  unfold State.devCrimson; repeat' first | with_reducible assumption | with_reducible apply State.safeEnter_keeps | with_reducible apply State.raise_keeps

theorem State.stopJobNow_keeps {s u} (h : State.Keeps s u) : State.Keeps s (@State.stopJobNow u) := by
  unfold State.stopJobNow; repeat' first | with_reducible assumption | intro _ | with_reducible apply State.onHeat_keeps

theorem State.goDark_keeps {s u} (h : State.Keeps s u) {p'} : State.Keeps s (@State.goDark u p') := by
  unfold State.goDark
  dsimp only
  repeat'
    first
    | with_reducible assumption | intro _ | with_reducible apply State.coreHalt_keeps | with_reducible apply State.shuDark_keeps
    | with_reducible apply State.putField_keeps | with_reducible apply State.onPod_keeps | with_reducible apply State.ochre_keeps
    | with_reducible apply State.stopJobNow_keeps | with_reducible apply State.forAll_keeps | split

theorem State.powerOff_keeps {s u} (h : State.Keeps s u) {b} : State.Keeps s (u.powerOff b) :=
  ⟨h.1, fun k => ⟨rfl, rfl, (h.2 k).2.2⟩⟩

theorem State.onRails_keeps {s u} (h : State.Keeps s u) {f'} : State.Keeps s (@State.onRails u f') := by
  unfold State.onRails; repeat' first | with_reducible assumption | simp only [State.Keeps.rest]

theorem State.minv_keeps {s u} (h : State.Keeps s u) {g' mv' sensor' t'} : State.Keeps s (@State.minv u g' mv' sensor' t') := by
  unfold State.minv; dsimp only; repeat' first | with_reducible assumption | with_reducible apply State.setReg64_keeps | with_reducible apply State.setRegN_keeps | split

theorem State.sense_keeps {s u} (h : State.Keeps s u) {g' sensor' mv'} : State.Keeps s (@State.sense u g' sensor' mv') := by
  unfold State.sense
  try dsimp only
  repeat'
    first
    | with_reducible assumption | intro _ | simp only [State.Keeps.rest] | with_reducible apply State.setRegN_keeps | split

theorem State.droopEvent_keeps {s u} (h : State.Keeps s u) {g' sensor' mv'} : State.Keeps s (@State.droopEvent u g' sensor' mv') := by
  unfold State.droopEvent; repeat' first | with_reducible assumption | with_reducible apply State.ochre_keeps

theorem State.vcoreFloor_keeps {s u} (h : State.Keeps s u) {g' sensor' mv'} : State.Keeps s (@State.vcoreFloor u g' sensor' mv') := by
  unfold State.vcoreFloor
  dsimp only
  repeat'
    first
    | with_reducible assumption | intro _ | with_reducible apply State.count_keeps | with_reducible apply State.onRails_keeps
    | with_reducible apply State.latchSf_keeps | with_reducible apply State.droopEvent_keeps
    | with_reducible apply State.safeEnter_keeps | with_reducible apply State.forAll_keeps | split

theorem State.elecCeil_keeps {s u} (h : State.Keeps s u) {p'} : State.Keeps s (@State.elecCeil u p') := by
  unfold State.elecCeil; dsimp only; repeat' first | with_reducible assumption | intro _ | with_reducible apply State.putField_keeps

theorem State.ceilEvent_keeps {s u} (h : State.Keeps s u) {ps' w' code' detail'} : State.Keeps s (@State.ceilEvent u ps' w' code' detail') := by
  unfold State.ceilEvent
  dsimp only
  repeat'
    first
    | with_reducible assumption | intro _ | with_reducible apply State.stopJobNow_keeps | with_reducible apply State.ochre_keeps
    | with_reducible apply State.raise_keeps | with_reducible apply State.enforceCeil_keeps | with_reducible apply State.forAll_keeps
    | split

theorem State.lowerLimit_keeps {s u} (h : State.Keeps s u) {p'} : State.Keeps s (@State.lowerLimit u p') := by
  unfold State.lowerLimit; dsimp only; repeat' first | with_reducible assumption | intro _ | with_reducible apply State.setRegN_keeps | with_reducible apply State.onRails_keeps | split

theorem State.minvReset_keeps {s u} (h : State.Keeps s u) {g'} : State.Keeps s (@State.minvReset u g') := by
  unfold State.minvReset; repeat' first | with_reducible assumption | with_reducible apply State.setReg64_keeps | with_reducible apply State.setRegN_keeps

theorem State.railsUp_keeps {s u} (h : State.Keeps s u) : State.Keeps s (@State.railsUp u) := by
  unfold State.railsUp
  dsimp only
  repeat'
    first
    | with_reducible assumption | intro _ | with_reducible apply State.freeWord_keeps | with_reducible apply State.setRegN_keeps
    | with_reducible apply State.forAll_keeps

theorem State.scrubMove_keeps {s u} (h : State.Keeps s u) {k'} : State.Keeps s (@State.scrubMove u k') := by
  unfold State.scrubMove
  try dsimp only
  repeat'
    first
    | with_reducible assumption | intro _ | simp only [State.Keeps.rest] | split

theorem State.scrubRead_keeps {s u} (h : State.Keeps s u) {k'} : State.Keeps s (@State.scrubRead u k') := by
  unfold State.scrubRead
  try dsimp only
  repeat'
    first
    | with_reducible assumption | intro _ | simp only [State.Keeps.rest] | with_reducible apply State.eccVoid_keeps
    | with_reducible apply State.mend_keeps | with_reducible apply State.scrubMove_keeps | split

theorem State.sectorMet_keeps {s u} (h : State.Keeps s u) {a' m'} : State.Keeps s (@State.sectorMet u a' m') := by
  unfold State.sectorMet
  repeat' first | with_reducible assumption | with_reducible apply State.strike_keeps | split

theorem State.onBoot_keeps {s u} (h : State.Keeps s u) {f'} : State.Keeps s (@State.onBoot u f') := by
  unfold State.onBoot; repeat' first | with_reducible assumption | simp only [State.Keeps.rest]

theorem State.standbyRefuses_keeps {s u} (h : State.Keeps s u) : State.Keeps s (@State.standbyRefuses u) := by
  unfold State.standbyRefuses
  try dsimp only
  repeat'
    first
    | with_reducible assumption | intro _ | simp only [State.Keeps.rest] | with_reducible apply State.freeWord_keeps
    | with_reducible apply State.setRegN_keeps | with_reducible apply State.safeEnter_keeps | split

theorem State.identity_keeps {s u} (h : State.Keeps s u) {enrol' blob'} : State.Keeps s (@State.identity u enrol' blob') := by
  unfold State.identity
  dsimp only
  repeat'
    first
    | with_reducible assumption | intro _ | simp only [State.Keeps.rest] | with_reducible apply State.onBoot_keeps
    | with_reducible apply State.putField_keeps | with_reducible apply State.Keeps.putMem | with_reducible apply State.Keeps.putHub
    | with_reducible apply State.Keeps.putHost | split

theorem State.bootGo_keeps {s u} (h : State.Keeps s u) {enrol'} : State.Keeps s (@State.bootGo u enrol') := by
  unfold State.bootGo
  try dsimp only
  repeat'
    first
    | with_reducible assumption | intro _ | simp only [State.Keeps.rest] | with_reducible apply State.setRegN_keeps
    | with_reducible apply State.setHif_keeps | with_reducible apply State.standbyRefuses_keeps
    | with_reducible apply State.identity_keeps | with_reducible apply State.onBoot_keeps | split

theorem State.bootPut_keeps {s u} (h : State.Keeps s u) {o' v'} : State.Keeps s (@State.bootPut u o' v') := by
  unfold State.bootPut; repeat' first | with_reducible assumption | with_reducible apply State.bootGo_keeps | with_reducible apply State.plainWrite_keeps | split

theorem State.retireList_keeps {s u} (h : State.Keeps s u) {r'} : State.Keeps s (@State.retireList u r') := by
  unfold State.retireList
  dsimp only
  repeat'
    first
    | with_reducible assumption | intro _ | simp only [State.Keeps.rest] | with_reducible apply State.handRow_keeps
    | with_reducible apply State.Keeps.foldl

theorem State.podTested_keeps {s u} (h : State.Keeps s u) {r' p'} : State.Keeps s (@State.podTested u r' p') := by
  unfold State.podTested
  dsimp only
  repeat'
    first
    | with_reducible assumption | intro _ | with_reducible apply State.raise_keeps | with_reducible apply State.putField_keeps
    | with_reducible apply State.Keeps.foldl | with_reducible apply State.Keeps.foldl1 | with_reducible apply State.Keeps.foldl2
    | with_reducible apply State.Keeps.foldlR | with_reducible apply State.Keeps.foldlR1 | split

theorem State.onThm_keeps {s u} (h : State.Keeps s u) {f'} : State.Keeps s (@State.onThm u f') := by
  unfold State.onThm; repeat' first | with_reducible assumption | simp only [State.Keeps.rest]

theorem State.onHot_keeps {s u} (h : State.Keeps s u) {h' f'} : State.Keeps s (@State.onHot u h' f') := by
  unfold State.onHot; repeat' first | with_reducible assumption | intro _ | with_reducible apply State.onThm_keeps

theorem State.selRefresh_keeps {s u} (h : State.Keeps s u) : State.Keeps s (@State.selRefresh u) := by
  unfold State.selRefresh; dsimp only; repeat' first | with_reducible assumption | with_reducible apply State.setRegN_keeps

theorem State.tctlRefresh_keeps {s u} (h : State.Keeps s u) : State.Keeps s (@State.tctlRefresh u) := by
  unfold State.tctlRefresh; dsimp only; repeat' first | with_reducible assumption | intro _ | with_reducible apply State.putField_keeps

theorem State.thmCeil_keeps {s u} (h : State.Keeps s u) {p'} : State.Keeps s (@State.thmCeil u p') := by
  unfold State.thmCeil; dsimp only; repeat' first | with_reducible assumption | with_reducible apply State.putField_keeps

theorem State.flagPair_keeps {s u} (h : State.Keeps s u) {h'} : State.Keeps s (@State.flagPair u h') := by
  unfold State.flagPair
  dsimp only
  repeat'
    first
    | with_reducible assumption | intro _ | with_reducible apply State.raiseBits_keeps | with_reducible apply State.onHot_keeps
    | with_reducible apply State.raise_keeps | with_reducible apply State.enforceCeil_keeps | with_reducible apply State.thmCeil_keeps
    | split

theorem State.sensorFail_keeps {s u} (h : State.Keeps s u) {h' ab'} : State.Keeps s (@State.sensorFail u h' ab') := by
  unfold State.sensorFail; dsimp only; repeat' first | with_reducible assumption | with_reducible apply State.raiseBits_keeps | with_reducible apply State.raise_keeps | split

theorem State.reading_keeps {s u} (h : State.Keeps s u) {i ra rb fa fb} : State.Keeps s (u.reading i ra rb fa fb) := by
  unfold State.reading
  extract_lets old failA failB apart new s1 s2 s3 s4 long s5 s6
  have k1 : State.Keeps s s1 := State.onHot_keeps h
  have k2 : State.Keeps s s2 := State.Keeps.ite (State.setRegN_keeps (State.setRegN_keeps k1)) k1
  have k3 : State.Keeps s s3 := State.Keeps.ite (State.sensorFail_keeps k2) k2
  have k4 : State.Keeps s s4 := State.Keeps.ite (State.sensorFail_keeps k3) k3
  have k5 : State.Keeps s s5 := State.Keeps.ite (State.flagPair_keeps k4) k4
  have k6 : State.Keeps s s6 := State.tctlRefresh_keeps (State.selRefresh_keeps k5)
  exact State.Keeps.ite (State.devCrimson_keeps k6) k6

theorem State.protect_keeps {s u} (h : State.Keeps s u) : State.Keeps s (@State.protect u) := by
  unfold State.protect; repeat' first | with_reducible assumption | intro _ | with_reducible apply State.opUpdate_keeps | with_reducible apply State.onPwr_keeps | split

theorem State.thmStep_keeps {s u} (h : State.Keeps s u) {n'} : State.Keeps s (@State.thmStep u n') := by
  unfold State.thmStep
  dsimp only
  repeat'
    first
    | with_reducible assumption | with_reducible apply State.putField_keeps | with_reducible apply State.count_keeps
    | with_reducible apply State.protect_keeps | with_reducible apply State.raise_keeps | split

theorem State.thmFloor_keeps {s u} (h : State.Keeps s u) {on'} : State.Keeps s (@State.thmFloor u on') := by
  unfold State.thmFloor
  dsimp only
  repeat'
    first
    | with_reducible assumption | intro _ | with_reducible apply State.onThm_keeps | with_reducible apply State.onPwr_keeps
    | with_reducible apply State.putField_keeps | with_reducible apply State.raiseBits_keeps | with_reducible apply State.raise_keeps
    | with_reducible apply State.pwrDone_keeps | with_reducible apply State.pwrMove_keeps | split

theorem State.bands_keeps {s u} (h : State.Keeps s u) : State.Keeps s (@State.bands u) := by
  unfold State.bands; dsimp only; repeat' first | with_reducible assumption | intro _ | with_reducible apply State.thmStep_keeps | with_reducible apply State.onThm_keeps | split

theorem State.floorBands_keeps {s u} (h : State.Keeps s u) : State.Keeps s (@State.floorBands u) := by
  unfold State.floorBands; dsimp only; repeat' first | with_reducible assumption | intro _ | with_reducible apply State.onThm_keeps | with_reducible apply State.thmFloor_keeps | split

theorem State.coolStop_keeps {s u} (h : State.Keeps s u) {how' first'} : State.Keeps s (@State.coolStop u how' first') := by
  unfold State.coolStop; repeat' first | with_reducible assumption | with_reducible apply State.devCrimson_keeps | split

theorem State.rateCheck_keeps {s u} (h : State.Keeps s u) : State.Keeps s (@State.rateCheck u) := by
  unfold State.rateCheck; dsimp only; repeat' first | with_reducible assumption | with_reducible apply State.coolStop_keeps | split

theorem State.derate_keeps {s u} (h : State.Keeps s u) {target'} : State.Keeps s (@State.derate u target') := by
  unfold State.derate
  dsimp only
  repeat'
    first
    | with_reducible assumption | intro _ | with_reducible apply State.onThm_keeps | with_reducible apply State.raiseBits_keeps
    | with_reducible apply State.count_keeps | with_reducible apply State.putField_keeps | with_reducible apply State.raise_keeps
    | with_reducible apply State.enforceCeil_keeps | with_reducible apply State.thmCeil_keeps | with_reducible apply State.onPwr_keeps
    | with_reducible apply State.pwrDone_keeps | with_reducible apply State.pwrMove_keeps | with_reducible apply State.protect_keeps
    | with_reducible apply State.forAll_keeps | split

theorem State.coolReport_keeps {s u} (h : State.Keeps s u) {flow' inlet'} : State.Keeps s (@State.coolReport u flow' inlet') := by
  unfold State.coolReport
  dsimp only
  repeat'
    first
    | with_reducible assumption | intro _ | with_reducible apply State.setRegN_keeps | with_reducible apply State.onThm_keeps
    | with_reducible apply State.putField_keeps | with_reducible apply State.raise_keeps | with_reducible apply State.raiseBits_keeps
    | with_reducible apply State.derate_keeps | split

theorem State.setTile_keeps {s u} (h : State.Keeps s u) {c' n' t'} : State.Keeps s (@State.setTile u c' n' t') := by
  unfold State.setTile; repeat' first | with_reducible assumption | with_reducible apply State.store_keeps

theorem State.setMask_keeps {s u} (h : State.Keeps s u) {c' m' v'} : State.Keeps s (@State.setMask u c' m' v') := by
  unfold State.setMask; repeat' first | with_reducible assumption | intro _ | with_reducible apply State.onCore_keeps

theorem State.lanes_keeps {s u} (h : State.Keeps s u) {c' n'} : State.Keeps s (@State.lanes u c' n') := by
  unfold State.lanes; repeat' first | with_reducible assumption | with_reducible apply State.count64_keeps

theorem State.vTile_keeps {s u} (h : State.Keeps s u) {c' w' f'} : State.Keeps s (@State.vTile u c' w' f') := by
  unfold State.vTile
  dsimp only
  repeat'
    first
    | with_reducible assumption | with_reducible apply State.retire_keeps | with_reducible apply State.lanes_keeps
    | with_reducible apply State.setTile_keeps

theorem State.vSetV_keeps {s u} (h : State.Keeps s u) {c' w' f'} : State.Keeps s (@State.vSetV u c' w' f') := by
  unfold State.vSetV
  try dsimp only
  repeat'
    first
    | with_reducible assumption | intro _ | simp only [State.Keeps.rest] | with_reducible apply State.onCore_keeps
    | with_reducible apply State.lanes_keeps | split

theorem State.vBinary_keeps {s u} (h : State.Keeps s u) {c' w'} : State.Keeps s (@State.vBinary u c' w') := by
  unfold State.vBinary; dsimp only; repeat' first | with_reducible assumption | intro _ | with_reducible apply State.vSetV_keeps | with_reducible apply State.vTile_keeps | split

theorem State.vUnary_keeps {s u} (h : State.Keeps s u) {c' w'} : State.Keeps s (@State.vUnary u c' w') := by
  unfold State.vUnary; dsimp only; repeat' first | with_reducible assumption | intro _ | with_reducible apply State.vSetV_keeps | with_reducible apply State.vTile_keeps | split

theorem State.vSelect_keeps {s u} (h : State.Keeps s u) {c' w'} : State.Keeps s (@State.vSelect u c' w') := by
  unfold State.vSelect; dsimp only; repeat' first | with_reducible assumption | intro _ | with_reducible apply State.vTile_keeps

theorem State.vMask_keeps {s u} (h : State.Keeps s u) {c' w' f'} : State.Keeps s (@State.vMask u c' w' f') := by
  unfold State.vMask
  repeat'
    first
    | with_reducible assumption | with_reducible apply State.retire_keeps | with_reducible apply State.lanes_keeps
    | with_reducible apply State.setMask_keeps

theorem State.vCompare_keeps {s u} (h : State.Keeps s u) {c' w' cmp'} : State.Keeps s (@State.vCompare u c' w' cmp') := by
  unfold State.vCompare; dsimp only; repeat' first | with_reducible assumption | intro _ | with_reducible apply State.vMask_keeps

theorem State.vMaskOp_keeps {s u} (h : State.Keeps s u) {c' w' f'} : State.Keeps s (@State.vMaskOp u c' w' f') := by
  unfold State.vMaskOp
  dsimp only
  repeat'
    first
    | with_reducible assumption | with_reducible apply State.retire_keeps | with_reducible apply State.lanes_keeps
    | with_reducible apply State.setMask_keeps

theorem State.vTri_keeps {s u} (h : State.Keeps s u) {c' q'} : State.Keeps s (@State.vTri u c' q') := by
  unfold State.vTri
  try dsimp only
  repeat'
    first
    | with_reducible assumption | intro _ | simp only [State.Keeps.rest] | with_reducible apply State.vMask_keeps | split

theorem State.vBox_keeps {s u} (h : State.Keeps s u) {c' q'} : State.Keeps s (@State.vBox u c' q') := by
  unfold State.vBox
  try dsimp only
  repeat'
    first
    | with_reducible assumption | intro _ | simp only [State.Keeps.rest] | with_reducible apply State.vMask_keeps | split

theorem State.vReduce_keeps {s u} (h : State.Keeps s u) {c' w' rows' op' z'} : State.Keeps s (@State.vReduce u c' w' rows' op' z') := by
  unfold State.vReduce
  dsimp only
  repeat'
    first
    | with_reducible assumption | intro _ | with_reducible apply State.retire_keeps | with_reducible apply State.lanes_keeps
    | with_reducible apply State.onCore_keeps

theorem State.withBook_keeps {s u} (h : State.Keeps s u) {c t f} (g : State.Keeps s (f u)) : State.Keeps s (u.withBook c t f) := by
  unfold State.withBook; split
  · exact g
  · exact State.exception_keeps h

theorem State.vAmax_keeps {s u} (h : State.Keeps s u) {c' q'} : State.Keeps s (@State.vAmax u c' q') := by
  unfold State.vAmax
  try dsimp only
  repeat'
    first
    | with_reducible assumption | intro _ | simp only [State.Keeps.rest] | with_reducible apply State.sbAmax_keeps
    | with_reducible apply State.lanes_keeps | with_reducible apply State.exceptionAt_keeps | split

theorem State.vGet_keeps {s u} (h : State.Keeps s u) {c' w' row'} : State.Keeps s (@State.vGet u c' w' row') := by
  unfold State.vGet; dsimp only; repeat' first | with_reducible assumption | intro _ | with_reducible apply State.vSetV_keeps

theorem State.vPut_keeps {s u} (h : State.Keeps s u) {c' w' row'} : State.Keeps s (@State.vPut u c' w' row') := by
  unfold State.vPut; dsimp only; repeat' first | with_reducible assumption | intro _ | with_reducible apply State.vTile_keeps

theorem State.vTrn_keeps {s u} (h : State.Keeps s u) {c' w'} : State.Keeps s (@State.vTrn u c' w') := by
  unfold State.vTrn
  try dsimp only
  repeat'
    first
    | with_reducible assumption | intro _ | simp only [State.Keeps.rest] | with_reducible apply State.vTile_keeps | split

theorem State.vDrop_keeps {s u} (h : State.Keeps s u) {c' q'} : State.Keeps s (@State.vDrop u c' q') := by
  unfold State.vDrop
  try dsimp only
  repeat'
    first
    | with_reducible assumption | intro _ | simp only [State.Keeps.rest] | with_reducible apply State.vMask_keeps | split

theorem State.vRand_keeps {s u} (h : State.Keeps s u) {c' w'} : State.Keeps s (@State.vRand u c' w') := by
  unfold State.vRand; repeat' first | with_reducible assumption | intro _ | with_reducible apply State.vTile_keeps

theorem State.vecEffect_keeps {s u} (h : State.Keeps s u) {c' q'} : State.Keeps s (@State.vecEffect u c' q') := by
  unfold State.vecEffect
  try dsimp only
  repeat'
    first
    | with_reducible assumption | intro _ | simp only [State.Keeps.rest] | with_reducible apply State.vBinary_keeps
    | with_reducible apply State.vSelect_keeps | with_reducible apply State.vUnary_keeps
    | with_reducible apply State.vCompare_keeps | with_reducible apply State.vMaskOp_keeps
    | with_reducible apply State.vMask_keeps | with_reducible apply State.vTri_keeps | with_reducible apply State.vBox_keeps
    | with_reducible apply State.vReduce_keeps | with_reducible apply State.vAmax_keeps | with_reducible apply State.vGet_keeps
    | with_reducible apply State.vPut_keeps | with_reducible apply State.vTrn_keeps | with_reducible apply State.vDrop_keeps
    | with_reducible apply State.vRand_keeps | split

theorem State.unitEffect_keeps {s u} (h : State.Keeps s u) {c' u' q'} : State.Keeps s (@State.unitEffect u c' u' q') := by
  unfold State.unitEffect
  try dsimp only
  repeat'
    first
    | with_reducible assumption | intro _ | simp only [State.Keeps.rest] | with_reducible apply State.acfgRun_keeps
    | with_reducible apply State.ldsRun_keeps | with_reducible apply State.streamExec_keeps
    | with_reducible apply State.promoteRun_keeps | with_reducible apply State.drainExec_keeps
    | with_reducible apply State.qstoreExec_keeps | with_reducible apply State.vecEffect_keeps | split

theorem State.unitsRunN_keeps {s u} (h : State.Keeps s u) {c n} : State.Keeps s (State.unitsRunN c n u) := by
  induction n generalizing u with
  | zero => exact h
  | succ n ih =>
    unfold State.unitsRunN
    split
    · exact h
    · exact ih (State.unitEffect_keeps (State.setUnitQ_keeps h))

theorem State.unitsRun_keeps {s u} (h : State.Keeps s u) {c} : State.Keeps s (u.unitsRun c) := by
  unfold State.unitsRun
  exact State.stopIfDone_keeps (State.unitsRunN_keeps h)

theorem State.enqueue_keeps {s u} (h : State.Keeps s u) {c' u' q'} : State.Keeps s (@State.enqueue u c' u' q') := by
  unfold State.enqueue
  try dsimp only
  repeat'
    first
    | with_reducible assumption | intro _ | simp only [State.Keeps.rest] | with_reducible apply State.setUnitQ_keeps
    | with_reducible apply State.onCore_keeps | split

theorem State.retireUnit_keeps {s u} (h : State.Keeps s u) {c'} : State.Keeps s (@State.retireUnit u c') := by
  unfold State.retireUnit
  try dsimp only
  repeat'
    first
    | with_reducible assumption | intro _ | simp only [State.Keeps.rest] | with_reducible apply State.retire_keeps | split

theorem State.issue_keeps {s u} (h : State.Keeps s u) {c' u' w'} : State.Keeps s (@State.issue u c' u' w') := by
  unfold State.issue
  try dsimp only
  repeat'
    first
    | with_reducible assumption | intro _ | simp only [State.Keeps.rest] | with_reducible apply State.unitEffect_keeps
    | with_reducible apply State.retireUnit_keeps | with_reducible apply State.retire_keeps
    | with_reducible apply State.starve_keeps | with_reducible apply State.wait_keeps | with_reducible apply State.enqueue_keeps
    | split

theorem State.awaitExec_keeps {s u} (h : State.Keeps s u) {c' a' rd'} : State.Keeps s (@State.awaitExec u c' a' rd') := by
  unfold State.awaitExec
  try dsimp only
  repeat'
    first
    | with_reducible assumption | intro _ | simp only [State.Keeps.rest] | with_reducible apply State.starve_keeps
    | with_reducible apply State.retire_keeps | with_reducible apply State.wait_keeps | split

theorem State.headRelease_keeps {s u} (h : State.Keeps s u) {c' a' n'} : State.Keeps s (@State.headRelease u c' a' n') := by
  unfold State.headRelease
  try dsimp only
  repeat'
    first
    | with_reducible assumption | intro _ | simp only [State.Keeps.rest] | with_reducible apply State.tokenEnters_keeps
    | with_reducible apply State.swapSets_keeps | with_reducible apply State.count64_keeps
    | with_reducible apply State.unitsRun_keeps | with_reducible apply State.starve_keeps
    | with_reducible apply State.setArr_keeps | with_reducible apply State.streamRun_keeps | split

/-- A vector row. -/
theorem vRow_keeps {c k : Nat} {s t : State} (e : vRow c k s = .next t) : s.Keeps t :=
  State.Keeps.ofGuarded (kernelRow_keeps (State.Keeps.refl s) fun w => State.issue_keeps (u := s) (State.Keeps.refl s)) e

theorem State.vecPut_keeps {s u} (h : State.Keeps s u) {c' o' v'} : State.Keeps s (@State.vecPut u c' o' v') := by
  unfold State.vecPut; dsimp only; repeat' first | with_reducible assumption | intro _ | with_reducible apply State.onCore_keeps | with_reducible apply State.setMask_keeps | split

theorem State.regRead_keeps {s u} (h : State.Keeps s u) {a'} : State.Keeps s (@State.regRead u a').2 := by
  unfold State.regRead; repeat' first | with_reducible assumption | simp only [State.Keeps.rest] | split

theorem State.arrPut_keeps {s u} (h : State.Keeps s u) {w' a' o' v'} : State.Keeps s (@State.arrPut u w' a' o' v') := by
  unfold State.arrPut; repeat' first | with_reducible assumption | with_reducible apply State.regIgnored_keeps | with_reducible apply State.plainWrite_keeps | split

theorem State.corePut_keeps {s u} (h : State.Keeps s u) {ag' src' a' o' v'} : State.Keeps s (@State.corePut u ag' src' a' o' v').1 := by
  unfold State.corePut
  dsimp only
  repeat'
    first
    | with_reducible assumption | with_reducible apply State.runWrite_keeps | with_reducible apply State.stopWrite_keeps
    | with_reducible apply State.parkWrite_keeps | with_reducible apply State.plainWrite_keeps
    | with_reducible apply State.regIgnored_keeps | with_reducible apply State.refused_keeps | split

theorem State.lockPut_keeps {s u} (h : State.Keeps s u) {w' a' v'} : State.Keeps s (@State.lockPut u w' a' v') := by
  unfold State.lockPut; repeat' first | with_reducible assumption | with_reducible apply State.regIgnored_keeps | with_reducible apply State.plainWrite_keeps | split

theorem State.lnkPut_keeps {s u} (h : State.Keeps s u) {w' a' o' v'} : State.Keeps s (@State.lnkPut u w' a' o' v') := by
  unfold State.lnkPut
  dsimp only
  repeat'
    first
    | with_reducible assumption | with_reducible apply State.retrain_keeps | with_reducible apply State.setHold_keeps
    | with_reducible apply State.lockPut_keeps | with_reducible apply State.plainWrite_keeps | split

theorem State.slvPut_keeps {s u} (h : State.Keeps s u) {w' a' o' v'} : State.Keeps s (@State.slvPut u w' a' o' v') := by
  unfold State.slvPut
  repeat'
    first
    | with_reducible assumption | with_reducible apply State.slvSetup_keeps | with_reducible apply State.slvTail_keeps
    | with_reducible apply State.plainWrite_keeps | split

theorem State.gatePut_keeps {s u} (h : State.Keeps s u) {a' o' v'} : State.Keeps s (@State.gatePut u a' o' v') := by
  unfold State.gatePut
  repeat'
    first
    | with_reducible assumption | with_reducible apply State.lapClose_keeps | with_reducible apply State.gateRefresh_keeps
    | with_reducible apply State.plainWrite_keeps | with_reducible apply State.fwdClose_keeps | split

theorem State.cqPut_keeps {s u} (h : State.Keeps s u) {w' a' o' v'} : State.Keeps s (@State.cqPut u w' a' o' v') := by
  unfold State.cqPut
  repeat'
    first
    | with_reducible assumption | with_reducible apply State.cqSetup_keeps | with_reducible apply State.cqHead_keeps
    | with_reducible apply State.cqCtrl_keeps | with_reducible apply State.plainWrite_keeps | split

theorem State.bshPut_keeps {s u} (h : State.Keeps s u) {w' a' o' v'} : State.Keeps s (@State.bshPut u w' a' o' v') := by
  unfold State.bshPut
  dsimp only
  repeat'
    first
    | with_reducible assumption | with_reducible apply State.bshShadow_keeps | with_reducible apply State.bshGo_keeps
    | with_reducible apply State.bshStop_keeps | with_reducible apply State.plainWrite_keeps | split

theorem State.rlyPut_keeps {s u} (h : State.Keeps s u) {a' o' v'} : State.Keeps s (@State.rlyPut u a' o' v') := by
  unfold State.rlyPut
  repeat'
    first
    | with_reducible assumption | with_reducible apply State.rlyKick_keeps | with_reducible apply State.hrdRefresh_keeps
    | with_reducible apply State.plainWrite_keeps | split

theorem State.regPut_keeps {s u} (h : State.Keeps s u) {ag' src' a' v'} : State.Keeps s (@State.regPut u ag' src' a' v').1 := by
  unfold State.regPut
  dsimp only
  repeat'
    first
    | with_reducible assumption | with_reducible apply State.arrPut_keeps | with_reducible apply State.slvPut_keeps
    | with_reducible apply State.corePut_keeps | with_reducible apply State.vecPut_keeps | with_reducible apply State.gatePut_keeps
    | with_reducible apply State.lpPush_keeps | with_reducible apply State.plainWrite_keeps | with_reducible apply State.cqPut_keeps
    | with_reducible apply State.bshPut_keeps | with_reducible apply State.lnkPut_keeps | with_reducible apply State.rlyPut_keeps
    | with_reducible apply State.minvReset_keeps | with_reducible apply State.selRefresh_keeps
    | with_reducible apply State.pfMark_keeps | split

theorem State.regWrite_keeps {s u} (h : State.Keeps s u) {ag src a v} : State.Keeps s (u.regWrite ag src a v).1 := by
  unfold State.regWrite; split
  · exact State.regPut_keeps h
  · exact State.logFail_keeps h

theorem State.regGet_keeps {s u} (h : State.Keeps s u) {w src a} : State.Keeps s (u.regGet w src a).2 := by
  unfold State.regGet; split
  · exact State.regRead_keeps h
  · exact State.logFail_keeps h

theorem pieceRead_keeps {s u} (h : State.Keeps s u) {p'} : State.Keeps s (@pieceRead u p').2 := by
  unfold pieceRead
  try dsimp only
  repeat'
    first
    | with_reducible assumption | intro _ | simp only [State.Keeps.rest] | with_reducible apply State.regRead_keeps
    | with_reducible apply State.readSeen_keeps | split

theorem State.onHost_keeps {s u} (h : State.Keeps s u) {f'} : State.Keeps s (@State.onHost u f') := by
  unfold State.onHost; repeat' first | with_reducible assumption | simp only [State.Keeps.rest]

theorem State.hifFault_keeps {s u} (h : State.Keeps s u) {b' a'} : State.Keeps s (@State.hifFault u b' a') := by
  unfold State.hifFault
  dsimp only
  repeat'
    first
    | with_reducible assumption | intro _ | with_reducible apply State.onHost_keeps | with_reducible apply State.raiseBits_keeps
    | with_reducible apply State.setReg64_keeps | split

theorem State.complete_keeps {s u} (h : State.Keeps s u) {bs'} : State.Keeps s (@State.complete u bs') := by
  unfold State.complete; repeat' first | with_reducible assumption | intro _ | with_reducible apply State.onHost_keeps | with_reducible apply State.count_keeps | split

theorem State.hostBad_keeps {s u} (h : State.Keeps s u) {rd' a' st'} : State.Keeps s (@State.hostBad u rd' a' st') := by
  unfold State.hostBad; dsimp only; repeat' first | with_reducible assumption | with_reducible apply State.hifFault_keeps | with_reducible apply State.complete_keeps | split

theorem State.hostUnmapped_keeps {s u} (h : State.Keeps s u) {rd'} : State.Keeps s (@State.hostUnmapped u rd') := by
  unfold State.hostUnmapped
  dsimp only
  repeat'
    first
    | with_reducible assumption | with_reducible apply State.freeWord_keeps | with_reducible apply State.hostBad_keeps
    | with_reducible apply State.refused_keeps

theorem State.ignoreBar0_keeps {s u} (h : State.Keeps s u) {w' off' v'} : State.Keeps s (@State.ignoreBar0 u w' off' v') := by
  unfold State.ignoreBar0; repeat' first | with_reducible assumption | with_reducible apply State.raise_keeps

theorem State.flushVecs_keeps {s u} (h : State.Keeps s u) : State.Keeps s (@State.flushVecs u) := by
  unfold State.flushVecs; repeat' first | with_reducible assumption | intro _ | with_reducible apply State.signal_keeps | with_reducible apply State.Keeps.foldl

theorem State.mbxIgnored_keeps {s u} (h : State.Keeps s u) {m' o' bitNo' v'} : State.Keeps s (@State.mbxIgnored u m' o' bitNo' v') := by
  unfold State.mbxIgnored
  dsimp only
  repeat'
    first
    | with_reducible assumption | with_reducible apply State.raiseBits_keeps | with_reducible apply State.raise_keeps
    | with_reducible apply State.ignoreBar0_keeps | split

theorem State.doorbell_keeps {s u} (h : State.Keeps s u) {m' v'} : State.Keeps s (@State.doorbell u m' v') := by
  unfold State.doorbell; dsimp only; repeat' first | with_reducible assumption | simp only [State.Keeps.rest] | with_reducible apply State.mbxIgnored_keeps | split

theorem State.rspHead_keeps {s u} (h : State.Keeps s u) {m' v'} : State.Keeps s (@State.rspHead u m' v') := by
  unfold State.rspHead; dsimp only; repeat' first | with_reducible assumption | with_reducible apply State.mbxIgnored_keeps | with_reducible apply State.setReg_keeps | split

theorem State.evtHead_keeps {s u} (h : State.Keeps s u) {w' v'} : State.Keeps s (@State.evtHead u w' v') := by
  unfold State.evtHead
  dsimp only
  repeat'
    first
    | with_reducible assumption | with_reducible apply State.mbxIgnored_keeps | with_reducible apply State.drainQueue_keeps
    | with_reducible apply State.setReg_keeps | split

theorem State.trayHead_keeps {s u} (h : State.Keeps s u) {v'} : State.Keeps s (@State.trayHead u v') := by
  unfold State.trayHead
  dsimp only
  repeat'
    first
    | with_reducible assumption | simp only [State.Keeps.rest] | with_reducible apply State.raise_keeps
    | with_reducible apply State.raiseBits_keeps | with_reducible apply State.trayDrain_keeps | split

theorem State.mbxPut_keeps {s u} (h : State.Keeps s u) {m' o' v'} : State.Keeps s (@State.mbxPut u m' o' v') := by
  unfold State.mbxPut
  repeat'
    first
    | with_reducible assumption | with_reducible apply State.doorbell_keeps | with_reducible apply State.rspHead_keeps
    | with_reducible apply State.plainWrite_keeps | with_reducible apply State.evtHead_keeps | split

theorem State.mbxRead_keeps {s u} (h : State.Keeps s u) {m' o'} : State.Keeps s (@State.mbxRead u m' o').2 := by
  unfold State.mbxRead; repeat' first | with_reducible assumption | with_reducible apply State.regRead_keeps | split

theorem State.faultAck_keeps {s u} (h : State.Keeps s u) {v'} : State.Keeps s (@State.faultAck u v') := by
  unfold State.faultAck
  dsimp only
  repeat'
    first
    | with_reducible assumption | intro _ | with_reducible apply State.plainWrite_keeps | with_reducible apply State.onHost_keeps
    | split

theorem State.hifPut_keeps {s u} (h : State.Keeps s u) {o' v'} : State.Keeps s (@State.hifPut u o' v') := by
  unfold State.hifPut
  dsimp only
  repeat'
    first
    | with_reducible assumption | with_reducible apply State.plainWrite_keeps | with_reducible apply State.ignoreBar0_keeps
    | with_reducible apply State.faultAck_keeps | split

theorem State.msixPut_keeps {s u} (h : State.Keeps s u) {i' v'} : State.Keeps s (@State.msixPut u i' v') := by
  unfold State.msixPut; repeat' first | with_reducible assumption | intro _ | with_reducible apply State.flushVecs_keeps | with_reducible apply State.onHost_keeps

theorem readWords_keeps {s u} (h : State.Keeps s u) {f n o} (g : ∀ t o, State.Keeps s t → State.Keeps s (f t o).2) :
    State.Keeps s (readWords f n o u).2 := by
  induction n generalizing o u with
  | zero => exact h
  | succ n ih => exact ih (g u o h)

theorem writeWords_keeps {s u} (h : State.Keeps s u) {f n o bs} (g : ∀ t o v, State.Keeps s t → State.Keeps s (f t o v)) :
    State.Keeps s (writeWords f n o bs u) := by
  induction n generalizing o bs u with
  | zero => exact h
  | succ n ih => exact ih (g _ _ _ h)

theorem State.ringStore_keeps {s u} (h : State.Keeps s u) {o' bs'} : State.Keeps s (@State.ringStore u o' bs') := by
  unfold State.ringStore
  repeat'
    first
    | with_reducible assumption | simp only [State.Keeps.rest] | with_reducible apply State.Keeps.putMem
    | with_reducible apply State.Keeps.putHub

theorem State.bar0Write_keeps {s u} (h : State.Keeps s u) {o bs} : State.Keeps s (u.bar0Write o bs) := by
  unfold State.bar0Write; dsimp only
  split
  · split
    · split
      · exact State.regWrite_keeps h
      · exact State.hostBad_keeps (State.regWrite_keeps h)
    · exact State.hostBad_keeps (State.logFail_keeps h)
  all_goals
    repeat' (first | with_reducible assumption | intro _ | with_reducible apply State.hostUnmapped_keeps | with_reducible apply writeWords_keeps | with_reducible apply State.hifPut_keeps | with_reducible apply State.mbxPut_keeps | with_reducible apply State.msixPut_keeps | with_reducible apply State.bootPut_keeps | with_reducible apply State.ringStore_keeps | with_reducible apply State.ignoreBar0_keeps | split)

theorem State.bootRead_keeps {s u} (h : State.Keeps s u) {o'} : State.Keeps s (@State.bootRead u o').2 := by
  unfold State.bootRead; repeat' first | with_reducible assumption | with_reducible apply State.regRead_keeps | split

theorem State.bar0Read_keeps {s u} (h : State.Keeps s u) {o n} : State.Keeps s (u.bar0Read o n) := by
  unfold State.bar0Read; dsimp only
  split
  · split
    · exact State.complete_keeps (pieceRead_keeps h)
    · exact State.hostBad_keeps (State.logFail_keeps h)
  all_goals
    repeat' (first | with_reducible assumption | intro _ | with_reducible apply State.hostUnmapped_keeps | with_reducible apply State.complete_keeps | with_reducible apply readWords_keeps | with_reducible apply State.regRead_keeps | with_reducible apply State.mbxRead_keeps | with_reducible apply State.bootRead_keeps | split)

theorem State.unclaimed_keeps {s u} (h : State.Keeps s u) {w'} : State.Keeps s (@State.unclaimed u w') := by
  unfold State.unclaimed; repeat' first | with_reducible assumption | intro _ | with_reducible apply State.onHost_keeps | split

theorem State.dmaFail_keeps {s u} (h : State.Keeps s u) {a'} : State.Keeps s (@State.dmaFail u a') := by
  unfold State.dmaFail; repeat' first | with_reducible assumption | with_reducible apply State.raiseHub_keeps | with_reducible apply State.raiseBits_keeps

theorem State.trainPcie_keeps {s u} (h : State.Keeps s u) : State.Keeps s (@State.trainPcie u) := by
  unfold State.trainPcie; dsimp only; repeat' first | with_reducible assumption | with_reducible apply State.freeWord_keeps | with_reducible apply State.setRegN_keeps

theorem State.released_keeps {s u} (h : State.Keeps s u) : State.Keeps s u.released :=
  ⟨h.1, fun k => ⟨(h.2 k).1, (by decide : Memory.wf [] = true), (h.2 k).2.2⟩⟩

theorem State.payCheck_keeps {s u} (h : State.Keeps s u) {m' p' c' b' h'} : State.Keeps s (@State.payCheck u m' p' c' b' h').1 := by
  unfold State.payCheck; dsimp only; repeat' first | with_reducible assumption | with_reducible apply State.dmaFail_keeps | with_reducible apply State.setReg64_keeps | split

theorem State.accept_keeps {s u} (h : State.Keeps s u) {m' p' c' b' h'} : State.Keeps s (@State.accept u m' p' c' b' h').1 := by
  unfold State.accept; repeat' first | with_reducible assumption | with_reducible apply State.payCheck_keeps | split

theorem State.respond_keeps {s u} (h : State.Keeps s u) {m' p' b' st' body' h'} : State.Keeps s (@State.respond u m' p' b' st' body' h') := by
  unfold State.respond
  dsimp only
  repeat'
    first
    | with_reducible assumption | simp only [State.Keeps.rest] | with_reducible apply State.hostWrite_keeps
    | with_reducible apply State.dmaFail_keeps | with_reducible apply State.count_keeps | with_reducible apply State.setRegN_keeps
    | with_reducible apply State.ibi_keeps | with_reducible apply State.signal_keeps | with_reducible apply State.Keeps.putMem
    | with_reducible apply State.Keeps.putHub | with_reducible apply State.Keeps.putHost | split

theorem State.journalPut_keeps {s u} (h : State.Keeps s u) {r' result'} : State.Keeps s (@State.journalPut u r' result') := by
  unfold State.journalPut; dsimp only; repeat' first | with_reducible assumption | simp only [State.Keeps.rest]

theorem State.deferPut_keeps {s u} (h : State.Keeps s u) {r'} : State.Keeps s (@State.deferPut u r') := by
  unfold State.deferPut
  dsimp only
  repeat'
    first
    | with_reducible assumption | intro _ | simp only [State.Keeps.rest] | with_reducible apply State.onPwr_keeps
    | with_reducible apply State.deferRefresh_keeps | with_reducible apply State.forAll_keeps | split

theorem State.serve_keeps {s u} (h : State.Keeps s u) {c b r d} (g : Cmd.Keeps c) : State.Keeps s (u.serve c b r d) := by
  unfold State.serve; dsimp only
  split
  · exact State.respond_keeps (g h)
  · split
    · exact State.respond_keeps (State.deferPut_keeps (State.journalPut_keeps h))
    · exact State.respond_keeps (State.journalPut_keeps (g (State.journalPut_keeps h)))

theorem State.beginReq_keeps {s u} (h : State.Keeps s u) {m'} : State.Keeps s (@State.beginReq u m') := by
  unfold State.beginReq; dsimp only; repeat' first | with_reducible assumption | simp only [State.Keeps.rest] | with_reducible apply State.setReg_keeps

theorem State.mailbox_keeps {s u} (h : State.Keeps s u) {m' h' op' c'} (g : Cmd.Keeps c') : State.Keeps s (@State.mailbox u m' h' op' c') := by
  unfold State.mailbox
  dsimp only
  repeat'
    first
    | with_reducible assumption | with_reducible apply State.accept_keeps | with_reducible apply State.beginReq_keeps
    | with_reducible apply State.respond_keeps | with_reducible apply State.serve_keeps | split

theorem Res.okBody_keeps {s u} (h : State.Keeps s u) {body'} : State.Keeps s (@Res.okBody u body').s := by
  unfold Res.okBody; dsimp only; repeat' first | with_reducible assumption

theorem Res.refuse_keeps {s u} (h : State.Keeps s u) {st'} : State.Keeps s (@Res.refuse u st').s := by
  unfold Res.refuse; dsimp only; repeat' first | with_reducible assumption

theorem cmdHello_keeps : Cmd.Keeps cmdHello := by
  intro s u r d h
  dsimp only [cmdHello, Cmd.base, Cmd.answers]
  repeat'
    first
    | with_reducible assumption | intro _ | with_reducible apply Cmd.base_keeps | with_reducible apply Res.okBody_keeps

theorem cmdEcho_keeps : Cmd.Keeps cmdEcho := by
  intro s u r d h
  dsimp only [cmdEcho, Cmd.base, Cmd.answers]
  repeat'
    first
    | with_reducible assumption | intro _ | with_reducible apply Cmd.base_keeps | with_reducible apply Res.okBody_keeps

theorem cmdSlLoad_keeps : Cmd.Keeps cmdSlLoad := by
  intro s u r d h
  dsimp only [cmdSlLoad, Cmd.base, Cmd.answers]
  repeat'
    first
    | with_reducible assumption | intro _ | with_reducible apply Cmd.base_keeps | with_reducible apply State.onBoot_keeps

theorem cmdSlDigest_keeps : Cmd.Keeps cmdSlDigest := by
  intro s u r d h
  dsimp only [cmdSlDigest, Cmd.base, Cmd.answers]
  repeat'
    first
    | with_reducible assumption | intro _ | with_reducible apply Cmd.answers_keeps | with_reducible apply Cmd.base_keeps
    | with_reducible apply Res.okBody_keeps | with_reducible apply Res.refuse_keeps | split

theorem cmdSlRead_keeps : Cmd.Keeps cmdSlRead := by
  intro s u r d h
  dsimp only [cmdSlRead, Cmd.base, Cmd.answers]
  repeat'
    first
    | with_reducible assumption | intro _ | with_reducible apply Cmd.answers_keeps | with_reducible apply Cmd.base_keeps
    | with_reducible apply Res.okBody_keeps | with_reducible apply Res.refuse_keeps | split

theorem cmdHeatStatus_keeps : Cmd.Keeps cmdHeatStatus := by
  intro s u r d h
  dsimp only [cmdHeatStatus, Cmd.base, Cmd.answers]
  repeat'
    first
    | with_reducible assumption | intro _ | with_reducible apply Cmd.base_keeps | with_reducible apply Res.okBody_keeps

theorem cmdDrillList_keeps : Cmd.Keeps cmdDrillList := by
  intro s u r d h
  dsimp only [cmdDrillList, Cmd.base, Cmd.answers]
  repeat'
    first
    | with_reducible assumption | intro _ | with_reducible apply Cmd.answers_keeps | with_reducible apply Cmd.base_keeps
    | with_reducible apply Res.okBody_keeps

theorem cmdObjQuery_keeps : Cmd.Keeps cmdObjQuery := by
  intro s u r d h
  dsimp only [cmdObjQuery, Cmd.base, Cmd.answers]
  repeat'
    first
    | with_reducible assumption | intro _ | with_reducible apply Cmd.base_keeps | with_reducible apply Res.refuse_keeps
    | with_reducible apply Res.okBody_keeps | split

theorem cmdRegionRead_keeps : Cmd.Keeps cmdRegionRead := by
  intro s u r d h
  dsimp only [cmdRegionRead, Cmd.base, Cmd.answers]
  repeat'
    first
    | with_reducible assumption | intro _ | with_reducible apply Cmd.answers_keeps | with_reducible apply Cmd.base_keeps
    | with_reducible apply Res.okBody_keeps

theorem cmdPwrStatus_keeps : Cmd.Keeps cmdPwrStatus := by
  intro s u r d h
  dsimp only [cmdPwrStatus, Cmd.base, Cmd.answers]
  repeat'
    first
    | with_reducible assumption | intro _ | with_reducible apply Cmd.base_keeps | with_reducible apply Res.okBody_keeps

theorem State.vcoreNow_keeps {s u} (h : State.Keeps s u) : State.Keeps s (@State.vcoreNow u).2 := by
  unfold State.vcoreNow
  dsimp only
  repeat'
    first
    | with_reducible assumption | intro _ | with_reducible apply State.freeWord_keeps | with_reducible apply State.Keeps.foldl
    | with_reducible apply State.Keeps.foldl1 | with_reducible apply State.Keeps.foldl2 | with_reducible apply State.Keeps.foldlR
    | with_reducible apply State.Keeps.foldlR1 | split

theorem cmdTlmSnapshot_keeps : Cmd.Keeps cmdTlmSnapshot := by
  intro s u r d h
  dsimp only [cmdTlmSnapshot, Cmd.base, Cmd.answers]
  repeat'
    first
    | with_reducible assumption | intro _ | with_reducible apply Cmd.base_keeps | with_reducible apply State.vcoreNow_keeps
    | with_reducible apply Res.okBody_keeps

theorem cmdTlmHeat_keeps : Cmd.Keeps cmdTlmHeat := by
  intro s u r d h
  dsimp only [cmdTlmHeat, Cmd.base, Cmd.answers]
  repeat'
    first
    | with_reducible assumption | intro _ | with_reducible apply Cmd.answers_keeps | with_reducible apply Cmd.base_keeps
    | with_reducible apply Res.refuse_keeps | with_reducible apply Res.okBody_keeps | split

theorem cmdLedgerRead_keeps : Cmd.Keeps cmdLedgerRead := by
  intro s u r d h
  dsimp only [cmdLedgerRead, Cmd.base, Cmd.answers]
  repeat'
    first
    | with_reducible assumption | intro _ | with_reducible apply Cmd.answers_keeps | with_reducible apply Cmd.base_keeps
    | with_reducible apply Res.refuse_keeps | with_reducible apply Res.okBody_keeps | split

theorem cmdLedgerLaps_keeps : Cmd.Keeps cmdLedgerLaps := by
  intro s u r d h
  dsimp only [cmdLedgerLaps, Cmd.base, Cmd.answers]
  repeat'
    first
    | with_reducible assumption | intro _ | simp only [State.Keeps.rest] | with_reducible apply Cmd.base_keeps
    | with_reducible apply Res.refuse_keeps | with_reducible apply Res.okBody_keeps | with_reducible apply Cmd.run_keeps | split

theorem cmdSafeStatus_keeps : Cmd.Keeps cmdSafeStatus := by
  intro s u r d h
  dsimp only [cmdSafeStatus, Cmd.base, Cmd.answers]
  repeat'
    first
    | with_reducible assumption | intro _ | with_reducible apply Cmd.base_keeps | with_reducible apply Res.okBody_keeps

theorem cmdFaultLog_keeps : Cmd.Keeps cmdFaultLog := by
  intro s u r d h
  dsimp only [cmdFaultLog, Cmd.base, Cmd.answers]
  repeat'
    first
    | with_reducible assumption | intro _ | with_reducible apply Cmd.base_keeps | with_reducible apply Res.refuse_keeps
    | with_reducible apply Res.okBody_keeps | with_reducible apply Cmd.run_keeps | split

theorem cmdEvtFilter_keeps : Cmd.Keeps cmdEvtFilter := by
  intro s u r d h
  dsimp only [cmdEvtFilter, Cmd.base, Cmd.answers]
  repeat'
    first
    | with_reducible assumption | intro _ | simp only [State.Keeps.rest]

theorem cmdCoolantReport_keeps : Cmd.Keeps cmdCoolantReport := by
  intro s u r d h
  dsimp only [cmdCoolantReport, Cmd.base, Cmd.answers]
  repeat'
    first
    | with_reducible assumption | intro _ | with_reducible apply Cmd.base_keeps | with_reducible apply State.coolReport_keeps

theorem State.trayIdent_keeps {s u} (h : State.Keeps s u) {feed' tray'} : State.Keeps s (@State.trayIdent u feed' tray') := by
  unfold State.trayIdent
  dsimp only
  repeat'
    first
    | with_reducible assumption | intro _ | with_reducible apply State.raiseHub_keeps | with_reducible apply State.helloStart_keeps
    | with_reducible apply State.onTwin_keeps | split

theorem cmdTrayIdent_keeps : Cmd.Keeps cmdTrayIdent := by
  intro s u r d h
  dsimp only [cmdTrayIdent, Cmd.base, Cmd.answers]
  repeat'
    first
    | with_reducible assumption | intro _ | with_reducible apply Cmd.base_keeps | with_reducible apply State.trayIdent_keeps

theorem cmdTwinStatus_keeps : Cmd.Keeps cmdTwinStatus := by
  intro s u r d h
  dsimp only [cmdTwinStatus, Cmd.base, Cmd.answers]
  repeat'
    first
    | with_reducible assumption | intro _ | with_reducible apply Cmd.base_keeps | with_reducible apply Res.okBody_keeps

theorem cmdIdKey_keeps : Cmd.Keeps cmdIdKey := by
  intro s u r d h
  dsimp only [cmdIdKey, Cmd.base, Cmd.answers]
  repeat'
    first
    | with_reducible assumption | intro _ | with_reducible apply Cmd.base_keeps | with_reducible apply Res.okBody_keeps
    | with_reducible apply Res.refuse_keeps | split

theorem cmdAttest_keeps : Cmd.Keeps cmdAttest := by
  intro s u r d h
  dsimp only [cmdAttest, Cmd.base, Cmd.answers]
  repeat'
    first
    | with_reducible assumption | intro _ | with_reducible apply Cmd.answers_keeps | with_reducible apply Cmd.base_keeps
    | with_reducible apply Res.okBody_keeps | with_reducible apply Res.refuse_keeps | split

theorem cmdCoreMap_keeps : Cmd.Keeps cmdCoreMap := by
  intro s u r d h
  dsimp only [cmdCoreMap, Cmd.base, Cmd.answers]
  repeat'
    first
    | with_reducible assumption | intro _ | with_reducible apply Cmd.answers_keeps | with_reducible apply Cmd.base_keeps
    | with_reducible apply Res.okBody_keeps

theorem cmdSelftest_keeps : Cmd.Keeps cmdSelftest := by
  intro s u r d h
  dsimp only [cmdSelftest, Cmd.base, Cmd.answers]
  repeat'
    first
    | with_reducible assumption | intro _ | with_reducible apply Cmd.base_keeps | with_reducible apply State.onBoot_keeps

theorem cmdRetireRead_keeps : Cmd.Keeps cmdRetireRead := by
  intro s u r d h
  dsimp only [cmdRetireRead, Cmd.base, Cmd.answers]
  repeat'
    first
    | with_reducible assumption | intro _ | with_reducible apply Cmd.answers_keeps | with_reducible apply Cmd.base_keeps
    | with_reducible apply Res.okBody_keeps

theorem State.slPower_keeps {s u} (h : State.Keeps s u) {img' ts'} : State.Keeps s (@State.slPower u img' ts') := by
  unfold State.slPower
  dsimp only
  repeat'
    first
    | with_reducible assumption | intro _ | with_reducible apply State.setRegN_keeps | with_reducible apply State.putField_keeps
    | with_reducible apply State.onPwr_keeps

theorem State.slSafety_keeps {s u} (h : State.Keeps s u) {img' ts'} : State.Keeps s (@State.slSafety u img' ts') := by
  unfold State.slSafety; dsimp only; repeat' first | with_reducible assumption | intro _ | with_reducible apply State.setRegN_keeps | with_reducible apply State.onThm_keeps

theorem State.slTwin_keeps {s u} (h : State.Keeps s u) {img' ts'} : State.Keeps s (@State.slTwin u img' ts') := by
  unfold State.slTwin; repeat' first | with_reducible assumption | intro _ | with_reducible apply State.onTwin_keeps | split

theorem State.slApply_keeps {s u} (h : State.Keeps s u) {img' ts'} : State.Keeps s (@State.slApply u img' ts') := by
  unfold State.slApply
  dsimp only
  repeat'
    first
    | with_reducible assumption | intro _ | simp only [State.Keeps.rest] | with_reducible apply State.setRegN_keeps
    | with_reducible apply State.putField_keeps | with_reducible apply State.slTwin_keeps | with_reducible apply State.slSafety_keeps
    | with_reducible apply State.slPower_keeps | with_reducible apply State.forAll_keeps | with_reducible apply State.Keeps.foldl

theorem State.slCommit_keeps {s u} (h : State.Keeps s u) {digest'} : State.Keeps s (@State.slCommit u digest').s := by
  unfold State.slCommit
  repeat'
    first
    | with_reducible assumption | with_reducible apply Res.refuse_keeps | with_reducible apply State.poolRefresh_keeps
    | with_reducible apply State.autoState_keeps | with_reducible apply State.opUpdate_keeps | with_reducible apply State.setHif_keeps
    | with_reducible apply State.slApply_keeps | split

theorem cmdSlCommit_keeps : Cmd.Keeps cmdSlCommit := by
  intro s u r d h
  dsimp only [cmdSlCommit, Cmd.base, Cmd.answers]
  repeat'
    first
    | with_reducible assumption | intro _ | with_reducible apply Cmd.base_keeps | with_reducible apply State.slCommit_keeps

theorem State.drillInstall_keeps {s u} (h : State.Keeps s u) {p'} : State.Keeps s (@State.drillInstall u p').s := by
  unfold State.drillInstall; dsimp only; repeat' first | with_reducible assumption | simp only [State.Keeps.rest] | with_reducible apply Res.refuse_keeps | split

theorem cmdDrillInstall_keeps : Cmd.Keeps cmdDrillInstall := by
  intro s u r d h
  dsimp only [cmdDrillInstall, Cmd.base, Cmd.answers]
  repeat'
    first
    | with_reducible assumption | intro _ | with_reducible apply Cmd.base_keeps | with_reducible apply State.drillInstall_keeps

theorem State.drillClear_keeps {s u} (h : State.Keeps s u) {h'} : State.Keeps s (@State.drillClear u h').s := by
  unfold State.drillClear; repeat' first | with_reducible assumption | simp only [State.Keeps.rest] | with_reducible apply Res.refuse_keeps | split

theorem cmdDrillClear_keeps : Cmd.Keeps cmdDrillClear := by
  intro s u r d h
  dsimp only [cmdDrillClear, Cmd.base, Cmd.answers]
  repeat'
    first
    | with_reducible assumption | intro _ | with_reducible apply Cmd.base_keeps | with_reducible apply State.drillClear_keeps

theorem State.configCheck_keeps {s u} (h : State.Keeps s u) : State.Keeps s (@State.configCheck u) := by
  unfold State.configCheck
  dsimp only
  repeat'
    first
    | with_reducible assumption | intro _ | with_reducible apply State.count_keeps | with_reducible apply State.setReg64_keeps
    | with_reducible apply State.devCrimson_keeps | with_reducible apply State.raise_keeps | with_reducible apply State.latchSf_keeps
    | with_reducible apply State.onBoot_keeps | split

theorem State.withJob_keeps {s u} (h : State.Keeps s u) {w' d'} : State.Keeps s (@State.withJob u w' d') := by
  unfold State.withJob; repeat' first | with_reducible assumption | simp only [State.Keeps.rest]

theorem State.bookStart_keeps {s u} (h : State.Keeps s u) : State.Keeps s (@State.bookStart u) := by
  unfold State.bookStart; repeat' first | with_reducible assumption | intro _ | with_reducible apply State.arrive_keeps | with_reducible apply State.forAll_keeps

theorem State.jobClear_keeps {s u} (h : State.Keeps s u) : State.Keeps s (@State.jobClear u) := by
  unfold State.jobClear
  dsimp only
  repeat'
    first
    | with_reducible assumption | intro _ | simp only [State.Keeps.rest] | with_reducible apply State.onTwin_keeps
    | with_reducible apply State.hrdRefresh_keeps | with_reducible apply State.poolRefresh_keeps
    | with_reducible apply State.gateRefresh_keeps | with_reducible apply State.rlyRefresh_keeps
    | with_reducible apply State.forAll_keeps

theorem State.jobStart_keeps {s u} (h : State.Keeps s u) : State.Keeps s (@State.jobStart u) := by
  unfold State.jobStart
  try dsimp only
  repeat'
    first
    | with_reducible assumption | intro _ | simp only [State.Keeps.rest] | with_reducible apply State.gateRefresh_keeps
    | with_reducible apply State.ringShow_keeps | with_reducible apply State.paceReset_keeps
    | with_reducible apply State.helloStart_keeps | split

theorem State.jobLoad_keeps {s u} (h : State.Keeps s u) {w' d'} : State.Keeps s (@State.jobLoad u w' d') := by
  unfold State.jobLoad
  dsimp only
  repeat'
    first
    | with_reducible assumption | intro _ | simp only [State.Keeps.rest] | with_reducible apply State.jobClear_keeps
    | with_reducible apply State.withJob_keeps | with_reducible apply State.onTwin_keeps | with_reducible apply State.jobStart_keeps
    | with_reducible apply State.bookStart_keeps

theorem State.jobReplace_keeps {s u} (h : State.Keeps s u) {w' d'} : State.Keeps s (@State.jobReplace u w' d') := by
  unfold State.jobReplace
  dsimp only
  repeat'
    first
    | with_reducible assumption | intro _ | simp only [State.Keeps.rest] | with_reducible apply State.onTwin_keeps
    | with_reducible apply State.jobClear_keeps | with_reducible apply State.withJob_keeps | with_reducible apply State.jobStart_keeps

theorem cmdJobLoad_keeps : Cmd.Keeps cmdJobLoad := by
  intro s u r d h
  dsimp only [cmdJobLoad, Cmd.base, Cmd.answers]
  repeat'
    first
    | with_reducible assumption | intro _ | with_reducible apply Cmd.base_keeps | with_reducible apply State.jobLoad_keeps
    | with_reducible apply Cmd.run_keeps | split

theorem cmdJobReplace_keeps : Cmd.Keeps cmdJobReplace := by
  intro s u r d h
  dsimp only [cmdJobReplace, Cmd.base, Cmd.answers]
  repeat'
    first
    | with_reducible assumption | intro _ | with_reducible apply Cmd.base_keeps | with_reducible apply Res.refuse_keeps
    | with_reducible apply State.jobReplace_keeps | with_reducible apply Cmd.run_keeps | split

theorem State.jobUnload_keeps {s u} (h : State.Keeps s u) : State.Keeps s (@State.jobUnload u) := by
  unfold State.jobUnload
  try dsimp only
  repeat'
    first
    | with_reducible assumption | intro _ | simp only [State.Keeps.rest] | with_reducible apply State.jobClear_keeps
    | with_reducible apply State.ringShow_keeps | split

theorem cmdJobUnload_keeps : Cmd.Keeps cmdJobUnload := by
  intro s u r d h
  dsimp only [cmdJobUnload, Cmd.base, Cmd.answers]
  repeat'
    first
    | with_reducible assumption | intro _ | with_reducible apply Cmd.base_keeps | with_reducible apply Res.refuse_keeps
    | with_reducible apply State.jobUnload_keeps | with_reducible apply Cmd.run_keeps | split

theorem cmdHeatGo_keeps : Cmd.Keeps cmdHeatGo := by
  intro s u r d h
  dsimp only [cmdHeatGo, Cmd.base, Cmd.answers]
  repeat'
    first
    | with_reducible assumption | intro _ | with_reducible apply Cmd.base_keeps | with_reducible apply Res.refuse_keeps
    | with_reducible apply State.onHeat_keeps | with_reducible apply Cmd.run_keeps | split

theorem State.jobStop_keeps {s u} (h : State.Keeps s u) {now_'} : State.Keeps s (@State.jobStop u now_') := by
  unfold State.jobStop
  dsimp only
  repeat'
    first
    | with_reducible assumption | intro _ | with_reducible apply State.onHeat_keeps | with_reducible apply State.jobStopped_keeps
    | split

theorem cmdJobStop_keeps : Cmd.Keeps cmdJobStop := by
  intro s u r d h
  dsimp only [cmdJobStop, Cmd.base, Cmd.answers]
  repeat'
    first
    | with_reducible assumption | intro _ | with_reducible apply Cmd.base_keeps | with_reducible apply Res.refuse_keeps
    | with_reducible apply State.jobStop_keeps | with_reducible apply Cmd.run_keeps | split

theorem State.nearTake_keeps {s u} (h : State.Keeps s u) {u' n'} : State.Keeps s (@State.nearTake u u' n') := by
  unfold State.nearTake; dsimp only; repeat' first | with_reducible assumption | simp only [State.Keeps.rest] | with_reducible apply State.count_keeps

theorem State.objPut_keeps {s u} (h : State.Keeps s u) {k' f' w' a' n'} : State.Keeps s (@State.objPut u k' f' w' a' n').s := by
  unfold State.objPut; dsimp only; repeat' first | with_reducible assumption | simp only [State.Keeps.rest] | with_reducible apply Res.okBody_keeps

theorem State.objAlloc_keeps {s u} (h : State.Keeps s u) {r'} : State.Keeps s (@State.objAlloc u r').s := by
  unfold State.objAlloc
  dsimp only
  repeat'
    first
    | with_reducible assumption | with_reducible apply State.nearTake_keeps | with_reducible apply State.objPut_keeps
    | with_reducible apply State.poolRefresh_keeps | with_reducible apply Res.refuse_keeps | split

theorem cmdObjAlloc_keeps : Cmd.Keeps cmdObjAlloc := by
  intro s u r d h
  dsimp only [cmdObjAlloc, Cmd.base, Cmd.answers]
  repeat'
    first
    | with_reducible assumption | intro _ | with_reducible apply Cmd.base_keeps | with_reducible apply State.objAlloc_keeps

theorem State.objDel_keeps {s u} (h : State.Keeps s u) {k' o'} : State.Keeps s (@State.objDel u k' o') := by
  unfold State.objDel; dsimp only; repeat' first | with_reducible assumption | simp only [State.Keeps.rest] | with_reducible apply State.poolRefresh_keeps | split

theorem State.objFree_keeps {s u} (h : State.Keeps s u) {r'} : State.Keeps s (@State.objFree u r').s := by
  unfold State.objFree; repeat' first | with_reducible assumption | with_reducible apply Res.refuse_keeps | with_reducible apply State.objDel_keeps | split

theorem cmdObjFree_keeps : Cmd.Keeps cmdObjFree := by
  intro s u r d h
  dsimp only [cmdObjFree, Cmd.base, Cmd.answers]
  repeat'
    first
    | with_reducible assumption | intro _ | with_reducible apply Cmd.base_keeps | with_reducible apply State.objFree_keeps

theorem Res.later_keeps {s u} (h : State.Keeps s u) : State.Keeps s (@Res.later u).s := by
  unfold Res.later; dsimp only; repeat' first | with_reducible assumption | with_reducible apply State.pwrDone_keeps

theorem cmdPwrBudget_keeps : Cmd.Keeps cmdPwrBudget := by
  intro s u r d h
  dsimp only [cmdPwrBudget, Cmd.base, Cmd.answers]
  repeat'
    first
    | with_reducible assumption | intro _ | with_reducible apply Cmd.base_keeps | with_reducible apply Res.later_keeps
    | with_reducible apply State.onPwr_keeps

theorem cmdPwrFloor_keeps : Cmd.Keeps cmdPwrFloor := by
  intro s u r d h
  dsimp only [cmdPwrFloor, Cmd.base, Cmd.answers]
  repeat'
    first
    | with_reducible assumption | intro _ | with_reducible apply Cmd.base_keeps | with_reducible apply Res.later_keeps
    | with_reducible apply State.cmdFloor_keeps

theorem cmdPwrPark_keeps : Cmd.Keeps cmdPwrPark := by
  intro s u r d h
  dsimp only [cmdPwrPark, Cmd.base, Cmd.answers]
  repeat'
    first
    | with_reducible assumption | intro _ | with_reducible apply Cmd.base_keeps | with_reducible apply Res.later_keeps
    | with_reducible apply State.cmdPark_keeps

theorem cmdPwrResume_keeps : Cmd.Keeps cmdPwrResume := by
  intro s u r d h
  dsimp only [cmdPwrResume, Cmd.base, Cmd.answers]
  repeat'
    first
    | with_reducible assumption | intro _ | with_reducible apply Cmd.base_keeps | with_reducible apply Res.later_keeps
    | with_reducible apply State.cmdResume_keeps

theorem cmdPwrCeiling_keeps : Cmd.Keeps cmdPwrCeiling := by
  intro s u r d h
  dsimp only [cmdPwrCeiling, Cmd.base, Cmd.answers]
  repeat'
    first
    | with_reducible assumption | intro _ | with_reducible apply Cmd.base_keeps | with_reducible apply Res.later_keeps
    | with_reducible apply State.onPwr_keeps

theorem cmdBatonHost_keeps : Cmd.Keeps cmdBatonHost := by
  intro s u r d h
  dsimp only [cmdBatonHost, Cmd.base, Cmd.answers]
  repeat'
    first
    | with_reducible assumption | intro _ | with_reducible apply Cmd.base_keeps | with_reducible apply State.onTwin_keeps

theorem State.mapSet_keeps {s u} (h : State.Keeps s u) {table' n'} : State.Keeps s (@State.mapSet u table' n') := by
  unfold State.mapSet; dsimp only; repeat' first | with_reducible assumption | intro _ | simp only [State.Keeps.rest] | with_reducible apply State.onTwin_keeps

theorem State.twinMap_keeps {s u} (h : State.Keeps s u) {r'} : State.Keeps s (@State.twinMap u r').s := by
  unfold State.twinMap; dsimp only; repeat' first | with_reducible assumption | with_reducible apply State.mapSet_keeps | with_reducible apply Res.refuse_keeps | split

theorem cmdTwinMap_keeps : Cmd.Keeps cmdTwinMap := by
  intro s u r d h
  dsimp only [cmdTwinMap, Cmd.base, Cmd.answers]
  repeat'
    first
    | with_reducible assumption | intro _ | with_reducible apply Cmd.base_keeps | with_reducible apply State.twinMap_keeps

theorem State.restorePull_keeps {s u} (h : State.Keeps s u) {l' heat'} : State.Keeps s (@State.restorePull u l' heat') := by
  unfold State.restorePull
  dsimp only
  repeat'
    first
    | with_reducible assumption | intro _ | with_reducible apply State.onTwin_keeps | with_reducible apply State.restoreEnd_keeps
    | with_reducible apply State.pullNext_keeps | split

theorem State.sectionTake_keeps {s u} (h : State.Keeps s u) {i d} : State.Keeps s (u.sectionTake i d) :=
  State.Keeps.foldl1 (u := (u, 0)) h fun _ _ k => State.arrive_keeps k

theorem State.restoreFrom_keeps {s u} (h : State.Keeps s u) {secs l n} : State.Keeps s (State.restoreFrom secs l n u).1 := by
  induction l generalizing u with
  | nil => exact h
  | cons i l ih =>
    unfold State.restoreFrom
    split
    · exact h
    split
    · exact h
    · refine ih (State.restoreIdx_keeps ?_)
      split
      · exact State.arrive_keeps h
      · exact State.sectionTake_keeps h

theorem State.restoreHost_keeps {s u} (h : State.Keeps s u) {l n a d} : State.Keeps s (u.restoreHost l n a d).s := by
  unfold State.restoreHost
  split
  · exact State.dmaFail_keeps h
  split
  · exact h
  · exact State.restoreFrom_keeps h

theorem State.batonRestore_keeps {s u} (h : State.Keeps s u) {r' h'} : State.Keeps s (@State.batonRestore u r' h').s := by
  unfold State.batonRestore
  dsimp only
  repeat'
    first
    | with_reducible assumption | with_reducible apply Res.refuse_keeps | with_reducible apply State.restoreHost_keeps
    | with_reducible apply State.restorePull_keeps | split

theorem cmdBatonRestore_keeps : Cmd.Keeps cmdBatonRestore := by
  intro s u r d h
  dsimp only [cmdBatonRestore, Cmd.base, Cmd.answers]
  repeat'
    first
    | with_reducible assumption | intro _ | with_reducible apply Cmd.base_keeps | with_reducible apply State.batonRestore_keeps

/-- Every deferred command's action. -/
theorem cmdOf_keeps {op c} (e : cmdOf op = some c) : Cmd.Keeps c := by
  unfold cmdOf at e
  split at e
  · exact Option.some.inj e ▸ cmdSlLoad_keeps
  · exact Option.some.inj e ▸ cmdSlCommit_keeps
  · exact Option.some.inj e ▸ cmdJobLoad_keeps
  · exact Option.some.inj e ▸ cmdHeatGo_keeps
  · exact Option.some.inj e ▸ cmdJobStop_keeps
  · exact Option.some.inj e ▸ cmdJobUnload_keeps
  · exact Option.some.inj e ▸ cmdJobReplace_keeps
  · exact Option.some.inj e ▸ cmdDrillInstall_keeps
  · exact Option.some.inj e ▸ cmdDrillClear_keeps
  · exact Option.some.inj e ▸ cmdObjAlloc_keeps
  · exact Option.some.inj e ▸ cmdObjFree_keeps
  · exact Option.some.inj e ▸ cmdPwrBudget_keeps
  · exact Option.some.inj e ▸ cmdPwrFloor_keeps
  · exact Option.some.inj e ▸ cmdPwrPark_keeps
  · exact Option.some.inj e ▸ cmdPwrResume_keeps
  · exact Option.some.inj e ▸ cmdPwrCeiling_keeps
  · exact Option.some.inj e ▸ cmdEvtFilter_keeps
  · exact Option.some.inj e ▸ cmdCoolantReport_keeps
  · exact Option.some.inj e ▸ cmdTrayIdent_keeps
  · exact Option.some.inj e ▸ cmdBatonHost_keeps
  · exact Option.some.inj e ▸ cmdBatonRestore_keeps
  · exact Option.some.inj e ▸ cmdTwinMap_keeps
  · exact Option.some.inj e ▸ cmdSelftest_keeps
  · nomatch e

/-! From an operation to a command's outcome. -/

theorem State.deferBegin_keeps {s u} (h : State.Keeps s u) {d'} : State.Keeps s (@State.deferBegin u d') := by
  unfold State.deferBegin; dsimp only; repeat' first | with_reducible assumption | simp only [State.Keeps.rest]

theorem State.deferRun_keeps {s u} (h : State.Keeps s u) {d c m} (g : Cmd.Keeps c) : State.Keeps s (u.deferRun d c m) := by
  unfold State.deferRun
  split
  · exact State.cmdDone_keeps h
  · dsimp only
    split
    · exact g (State.deferBegin_keeps h)
    · exact State.cmdDone_keeps (g (State.deferBegin_keeps h))

theorem State.lockstep_keeps {s u} (h : State.Keeps s u) {h' pair'} : State.Keeps s (@State.lockstep u h' pair') := by
  unfold State.lockstep
  dsimp only
  repeat'
    first
    | with_reducible assumption | with_reducible apply State.raiseBits_keeps | with_reducible apply State.count_keeps
    | with_reducible apply State.raise_keeps

theorem State.takeover_keeps {s u} (h : State.Keeps s u) {a'} : State.Keeps s (@State.takeover u a') := by
  unfold State.takeover
  dsimp only
  repeat'
    first
    | with_reducible assumption | with_reducible apply State.putField_keeps | with_reducible apply State.latchSf_keeps
    | with_reducible apply State.setReg64_keeps | with_reducible apply State.raiseHub_keeps

theorem State.onI3c_keeps {s u} (h : State.Keeps s u) {f'} : State.Keeps s (@State.onI3c u f') := by
  unfold State.onI3c; repeat' first | with_reducible assumption | simp only [State.Keeps.rest]

theorem State.i3cIgnored_keeps {s u} (h : State.Keeps s u) {off' v'} : State.Keeps s (@State.i3cIgnored u off' v') := by
  unfold State.i3cIgnored; repeat' first | with_reducible assumption | with_reducible apply State.raise_keeps

theorem State.i3cPut_keeps {s u} (h : State.Keeps s u) {off' b'} : State.Keeps s (@State.i3cPut u off' b') := by
  unfold State.i3cPut
  dsimp only
  repeat'
    first
    | with_reducible assumption | simp only [State.Keeps.rest] | with_reducible apply State.i3cIgnored_keeps
    | with_reducible apply State.mbxPut_keeps | with_reducible apply State.trayHead_keeps | with_reducible apply State.Keeps.putMem
    | with_reducible apply State.Keeps.putHub | with_reducible apply State.Keeps.putHost | split

theorem State.i3cPage_keeps {s u} (h : State.Keeps s u) {o} : State.Keeps s (u.i3cPage o).2 := by
  have k : State.Keeps s (u.mbxRead 10 o).2 := State.mbxRead_keeps h
  unfold State.i3cPage
  generalize u.mbxRead 10 o = r at *
  exact k

theorem State.i3cGet_keeps {s u} (h : State.Keeps s u) {o} : State.Keeps s (u.i3cGet o).2 := by
  unfold State.i3cGet
  extract_lets word
  split
  · exact h
  split
  · exact State.i3cPage_keeps h
  split
  · exact h
  · split <;> exact h

theorem State.i3cWrite_keeps {s u} (h : State.Keeps s u) {off' data'} : State.Keeps s (@State.i3cWrite u off' data') := by
  unfold State.i3cWrite; repeat' first | with_reducible assumption | intro _ | with_reducible apply State.i3cPut_keeps | with_reducible apply State.forAll_keeps | split

theorem State.i3cRead_keeps {s u} (h : State.Keeps s u) {o n} : State.Keeps s (u.i3cRead o n) := by
  unfold State.i3cRead; dsimp only
  split
  · exact State.onI3c_keeps h
  split
  · exact State.onI3c_keeps h
  · apply State.onI3c_keeps
    apply State.Keeps.foldl2
    · exact h
    intro r a k
    show State.Keeps s (r.2.i3cGet (o + 4 * a)).2
    exact State.i3cGet_keeps k

theorem State.i3cGive_keeps {s u} (h : State.Keeps s u) {ok' addr'} : State.Keeps s (@State.i3cGive u ok' addr') := by
  unfold State.i3cGive; repeat' first | with_reducible assumption | intro _ | with_reducible apply State.ibiFlush_keeps | with_reducible apply State.onI3c_keeps | split

theorem Mover.access_keeps {s} {u : Run} (h : State.Keeps s u.s) {m' rd' ps'} : State.Keeps s (@Mover.access m' rd' ps' u).s := by
  unfold Mover.access; dsimp only; repeat' first | with_reducible assumption | with_reducible apply State.logFail_keeps | with_reducible apply Run.s_keeps | split

theorem freeBytes_keeps {s u} (h : State.Keeps s u) {n'} : State.Keeps s (@freeBytes u n').2 := by
  unfold freeBytes; dsimp only; repeat' first | with_reducible assumption | simp only [State.Keeps.rest]

theorem Mover.read_keeps {s} {u : Run} (h : State.Keeps s u.s) {m' x' a' n'} : State.Keeps s (@Mover.read m' x' a' n' u).1.s := by
  unfold Mover.read
  dsimp only
  repeat'
    first
    | with_reducible assumption | intro _ | with_reducible apply Mover.access_keeps | with_reducible apply freeBytes_keeps
    | with_reducible apply Run.s_keeps | with_reducible apply pieceRead_keeps | with_reducible apply State.Keeps.foldl
    | with_reducible apply State.Keeps.foldl1 | with_reducible apply State.Keeps.foldl2 | with_reducible apply State.Keeps.foldlR
    | with_reducible apply State.Keeps.foldlR1 | split

theorem Mover.put_keeps {s u} (h : State.Keeps s u) {m' a' bs'} : State.Keeps s (@Mover.put m' u a' bs').1 := by
  unfold Mover.put
  dsimp only
  repeat'
    first
    | with_reducible assumption | with_reducible apply State.regWrite_keeps | with_reducible apply State.lateHome_keeps
    | with_reducible apply State.arrive_keeps | split

theorem Mover.write_keeps {s} {u : Run} (h : State.Keeps s u.s) {m' x' a' bs' cnt'} : State.Keeps s (@Mover.write m' x' a' bs' cnt' u).s := by
  unfold Mover.write
  dsimp only
  repeat'
    first
    | with_reducible assumption | intro _ | with_reducible apply Mover.access_keeps | with_reducible apply Mover.put_keeps
    | with_reducible apply Run.s_keeps | with_reducible apply State.Keeps.foldl | with_reducible apply State.Keeps.foldl1
    | with_reducible apply State.Keeps.foldl2 | with_reducible apply State.Keeps.foldlR | with_reducible apply State.Keeps.foldlR1
    | split

theorem Mover.readElem_keeps {s} {u : Run} (h : State.Keeps s u.s) {m' x' row' w' j'} : State.Keeps s (@Mover.readElem m' x' row' w' j' u).1.s := by
  unfold Mover.readElem; dsimp only; repeat' first | with_reducible assumption | with_reducible apply Mover.read_keeps

theorem Mover.writeElem_keeps {s} {u : Run} (h : State.Keeps s u.s) {m' x' row' w' j' v'} : State.Keeps s (@Mover.writeElem m' x' row' w' j' v' u).s := by
  unfold Mover.writeElem; dsimp only; repeat' first | with_reducible assumption | with_reducible apply Run.s_keeps | with_reducible apply Mover.write_keeps

theorem Job2.countRow_keeps {s} {u : Run} (h : State.Keeps s u.s) {j' row' n' col'} : State.Keeps s (@Job2.countRow j' row' n' col' u).s := by
  unfold Job2.countRow; repeat' first | with_reducible assumption | with_reducible apply State.pfCounts_keeps | with_reducible apply Run.s_keeps | split

theorem Job2.srcBlock_keeps {s} {u : Run} (h : State.Keeps s u.s) {j' row' col'} : State.Keeps s (@Job2.srcBlock j' row' col' u).1.s := by
  unfold Job2.srcBlock; dsimp only; repeat' first | with_reducible assumption | with_reducible apply Mover.read_keeps | with_reducible apply Job2.countRow_keeps

theorem Job2.srcElem_keeps {s} {u : Run} (h : State.Keeps s u.s) {j' row' col'} : State.Keeps s (@Job2.srcElem j' row' col' u).1.s := by
  unfold Job2.srcElem
  dsimp only
  repeat'
    first
    | with_reducible assumption | with_reducible apply Job2.srcBlock_keeps | with_reducible apply Run.s_keeps
    | with_reducible apply Mover.readElem_keeps | with_reducible apply Job2.countRow_keeps | split

theorem Job2.putBlock_keeps {s} {u : Run} (h : State.Keeps s u.s) {j' row' k' scale' codes'} : State.Keeps s (@Job2.putBlock j' row' k' scale' codes' u).s := by
  unfold Job2.putBlock; dsimp only; repeat' first | with_reducible assumption | with_reducible apply Mover.write_keeps

theorem Job2.block_keeps {s} {u : Run} (h : State.Keeps s u.s) {j' row' k'} : State.Keeps s (@Job2.block j' row' k' u).s := by
  unfold Job2.block
  dsimp only
  repeat'
    first
    | with_reducible assumption | intro _ | with_reducible apply Job2.srcBlock_keeps | with_reducible apply Job2.putBlock_keeps
    | with_reducible apply Job2.srcElem_keeps | with_reducible apply Run.s_keeps | with_reducible apply State.Keeps.foldl
    | with_reducible apply State.Keeps.foldl1 | with_reducible apply State.Keeps.foldl2 | with_reducible apply State.Keeps.foldlR
    | with_reducible apply State.Keeps.foldlR1 | split

theorem Job2.wide_keeps {s} {u : Run} (h : State.Keeps s u.s) {j' row' c'} : State.Keeps s (@Job2.wide j' row' c' u).s := by
  unfold Job2.wide; dsimp only; repeat' first | with_reducible assumption | with_reducible apply Job2.srcElem_keeps | with_reducible apply Mover.writeElem_keeps | split

theorem Job2.raw_keeps {s} {u : Run} (h : State.Keeps s u.s) {j' srow' scol' drow' dcol'} : State.Keeps s (@Job2.raw j' srow' scol' drow' dcol' u).s := by
  unfold Job2.raw
  dsimp only
  repeat'
    first
    | with_reducible assumption | with_reducible apply Mover.readElem_keeps | with_reducible apply Job2.countRow_keeps
    | with_reducible apply Mover.writeElem_keeps | split

theorem Job2.load_keeps {s} {u : Run} (h : State.Keeps s u.s) {j' srow' drow' k' n'} : State.Keeps s (@Job2.load j' srow' drow' k' n' u).s := by
  unfold Job2.load
  dsimp only
  repeat'
    first
    | with_reducible assumption | intro _ | with_reducible apply Mover.readElem_keeps | with_reducible apply Job2.countRow_keeps
    | with_reducible apply Mover.writeElem_keeps | with_reducible apply State.Keeps.foldlR1 | with_reducible apply State.Keeps.foldlR
    | split

theorem Job2.rawRow_keeps {s} {u : Run} (h : State.Keeps s u.s) {j' srow' drow'} : State.Keeps s (@Job2.rawRow j' srow' drow' u).s := by
  unfold Job2.rawRow
  dsimp only
  repeat'
    first
    | with_reducible assumption | intro _ | with_reducible apply Job2.load_keeps | with_reducible apply State.Keeps.foldlR | split

theorem Job2.copy_keeps {s} {u : Run} (h : State.Keeps s u.s) {j'} : State.Keeps s (@Job2.copy j' u).s := by
  unfold Job2.copy
  dsimp only
  repeat'
    first
    | with_reducible assumption | intro _ | with_reducible apply Job2.block_keeps | with_reducible apply Job2.wide_keeps
    | with_reducible apply Job2.raw_keeps | with_reducible apply Job2.rawRow_keeps | with_reducible apply State.Keeps.foldl | with_reducible apply State.Keeps.foldl1
    | with_reducible apply State.Keeps.foldl2 | with_reducible apply State.Keeps.foldlR | with_reducible apply State.Keeps.foldlR1
    | split

theorem Job2.indexed_keeps {s} {u : Run} (h : State.Keeps s u.s) {j'} : State.Keeps s (@Job2.indexed j' u).s := by
  unfold Job2.indexed
  dsimp only
  repeat'
    first
    | with_reducible assumption | intro _ | with_reducible apply Mover.read_keeps | with_reducible apply Mover.writeElem_keeps
    | with_reducible apply Job2.raw_keeps | with_reducible apply Job2.rawRow_keeps | with_reducible apply State.Keeps.foldl | with_reducible apply State.Keeps.foldl1
    | with_reducible apply State.Keeps.foldl2 | with_reducible apply State.Keeps.foldlR | with_reducible apply State.Keeps.foldlR1
    | split

theorem Job2.immediate_keeps {s} {u : Run} (h : State.Keeps s u.s) {j'} : State.Keeps s (@Job2.immediate j' u).s := by
  unfold Job2.immediate; dsimp only; repeat' first | with_reducible assumption | with_reducible apply Mover.write_keeps

theorem State.moveDesc_keeps {s u} (h : State.Keeps s u) {j' l' fail'} : State.Keeps s (@State.moveDesc u j' l' fail').s := by
  unfold State.moveDesc
  dsimp only
  repeat'
    first
    | with_reducible assumption | with_reducible apply State.stashPlace_keeps | with_reducible apply Job2.immediate_keeps
    | with_reducible apply Job2.indexed_keeps | with_reducible apply Job2.copy_keeps | split

theorem State.placeAsk_keeps {s u} (h : State.Keeps s u) {x' d'} : State.Keeps s (@State.placeAsk u x' d') := by
  unfold State.placeAsk
  try dsimp only
  repeat'
    first
    | with_reducible assumption | intro _ | simp only [State.Keeps.rest] | with_reducible apply State.stashPlace_keeps | split

theorem State.shuStatus_keeps {s u} (h : State.Keeps s u) {x' d' st'} : State.Keeps s (@State.shuStatus u x' d' st') := by
  unfold State.shuStatus; repeat' first | with_reducible assumption | with_reducible apply State.ochre_keeps

theorem State.endDesc_keeps {s u} (h : State.Keeps s u) {x' a' st' retries' n'} : State.Keeps s (@State.endDesc u x' a' st' retries' n') := by
  unfold State.endDesc
  try dsimp only
  repeat'
    first
    | with_reducible assumption | intro _ | simp only [State.Keeps.rest] | with_reducible apply State.onSrc_keeps
    | with_reducible apply State.setReg64_keeps | with_reducible apply State.recDone_keeps
    | with_reducible apply State.srcRefresh_keeps | with_reducible apply State.shuStatus_keeps
    | with_reducible apply State.acceptNext_keeps | split

/-- A message row. -/
theorem msgRow_keeps {p k : Nat} {f : Msg → State → State} {s t : State} (g : ∀ m, s.Keeps (f m s)) (e : msgRow p k f s = .next t) :
    s.Keeps t := by
  refine State.Keeps.ofGuarded ?_ e
  split
  · exact State.Keeps.refl s
  · dsimp only
    split
    · exact g _
    · exact State.Keeps.refl s

theorem State.answer_keeps {s u} (h : State.Keeps s u) {p' m' t' st' old' data' len'} : State.Keeps s (@State.answer u p' m' t' st' old' data' len') := by
  unfold State.answer; repeat' first | with_reducible assumption | with_reducible apply State.sendNode_keeps

theorem State.refusedFrom_keeps {s u} (h : State.Keeps s u) {m' st'} : State.Keeps s (@State.refusedFrom u m' st') := by
  unfold State.refusedFrom
  try dsimp only
  repeat'
    first
    | with_reducible assumption | intro _ | simp only [State.Keeps.rest] | with_reducible apply State.raise_keeps | split

theorem State.msgPut_keeps {s u} (h : State.Keeps s u) {m' bs'} : State.Keeps s (@State.msgPut u m' bs').1 := by
  unfold State.msgPut
  try dsimp only
  repeat'
    first
    | with_reducible assumption | intro _ | simp only [State.Keeps.rest] | with_reducible apply State.regWrite_keeps
    | with_reducible apply State.arrive_keeps | with_reducible apply State.lateHome_keeps
    | with_reducible apply State.refusedFrom_keeps | with_reducible apply State.logFail_keeps | split

theorem State.msgGet_keeps {s u} (h : State.Keeps s u) {m} : State.Keeps s (u.msgGet m).1 := by
  unfold State.msgGet
  split
  · exact pieceRead_keeps h
  · exact State.logFail_keeps h

theorem State.msgWrite_keeps {s u} (h : State.Keeps s u) {p' m'} : State.Keeps s (@State.msgWrite u p' m') := by
  unfold State.msgWrite
  dsimp only
  repeat'
    first
    | with_reducible assumption | with_reducible apply State.msgPut_keeps | with_reducible apply State.answer_keeps
    | with_reducible apply State.raiseBits_keeps | with_reducible apply State.count_keeps | split

theorem State.msgRead_keeps {s u} (h : State.Keeps s u) {p' m'} : State.Keeps s (@State.msgRead u p' m') := by
  unfold State.msgRead; dsimp only; repeat' first | with_reducible assumption | with_reducible apply State.msgGet_keeps | with_reducible apply State.answer_keeps

theorem State.msgAdd_keeps {s u} (h : State.Keeps s u) {p' m'} : State.Keeps s (@State.msgAdd u p' m') := by
  unfold State.msgAdd
  dsimp only
  repeat'
    first
    | with_reducible assumption | with_reducible apply State.msgGet_keeps | with_reducible apply State.msgPut_keeps
    | with_reducible apply State.answer_keeps | split

theorem State.hurdleRx_keeps {s u} (h : State.Keeps s u) {m'} : State.Keeps s (@State.hurdleRx u m') := by
  unfold State.hurdleRx
  dsimp only
  repeat'
    first
    | with_reducible assumption | with_reducible apply State.splitCheck_keeps | with_reducible apply State.count_keeps
    | with_reducible apply State.voidRx_keeps | with_reducible apply State.hrdRound_keeps | split

theorem State.scalarTrap_keeps {s u} (h : State.Keeps s u) {c' e' a'} : State.Keeps s (@State.scalarTrap u c' e' a') := by
  unfold State.scalarTrap
  try dsimp only
  repeat'
    first
    | with_reducible assumption | intro _ | simp only [State.Keeps.rest] | with_reducible apply State.refused_keeps
    | with_reducible apply State.exception_keeps | split

theorem State.scalarLoad_keeps {s u} (h : State.Keeps s u) {c' next' f3' rd' a'} : State.Keeps s (@State.scalarLoad u c' next' f3' rd' a') := by
  unfold State.scalarLoad
  try dsimp only
  repeat'
    first
    | with_reducible assumption | intro _ | simp only [State.Keeps.rest] | with_reducible apply State.scalarTrap_keeps
    | with_reducible apply State.wait_keeps | with_reducible apply State.eccVoid_keeps
    | with_reducible apply State.exception_keeps | with_reducible apply pieceRead_keeps
    | with_reducible apply State.retireAt_keeps | split

theorem State.scalarStore_keeps {s u} (h : State.Keeps s u) {c' next' f3' a' v'} : State.Keeps s (@State.scalarStore u c' next' f3' a' v') := by
  unfold State.scalarStore
  try dsimp only
  repeat'
    first
    | with_reducible assumption | intro _ | simp only [State.Keeps.rest] | with_reducible apply State.scalarTrap_keeps
    | with_reducible apply State.wait_keeps | with_reducible apply State.retireAt_keeps
    | with_reducible apply State.regWrite_keeps | with_reducible apply State.exception_keeps
    | with_reducible apply State.arrive_keeps | with_reducible apply State.lateHome_keeps | split

theorem State.scalarCsr_keeps {s u} (h : State.Keeps s u) {c n f rd r1 k} : State.Keeps s (u.scalarCsr c n f rd r1 k) := by
  unfold State.scalarCsr
  split
  · exact State.exception_keeps h
  split
  · exact State.exception_keeps h
  · rename_i e
    refine State.retireAt_keeps ?_
    unfold State.csr at e
    split at e <;> first | (cases e; exact h) | nomatch e

theorem State.scalarExec_keeps {s u} (h : State.Keeps s u) {c' len' i'} : State.Keeps s (@State.scalarExec u c' len' i') := by
  unfold State.scalarExec
  dsimp only
  repeat'
    first
    | with_reducible assumption | with_reducible apply State.retireAt_keeps | with_reducible apply State.scalarLoad_keeps
    | with_reducible apply State.scalarStore_keeps | with_reducible apply State.exception_keeps
    | with_reducible apply State.scalarCsr_keeps | split

theorem State.scalarStep_keeps {s u} (h : State.Keeps s u) {c'} : State.Keeps s (@State.scalarStep u c') := by
  unfold State.scalarStep; repeat' first | with_reducible assumption | with_reducible apply State.exception_keeps | with_reducible apply State.scalarExec_keeps | split

end Sys2Proof.Machine
end

