-- ==== Sys2Proof/Laws/Links.lean ====
section
/-!
SUPPORT. Laws of flits: a flit that the device makes passes the check of R284, and its fields read back.
-/
namespace Sys2Proof.Machine

@[simp] theorem mkFlit_length (k vc seq ack : Nat) (nak : Bool) (p : List Byte) : (mkFlit k vc seq ack nak p).length = 256 := by
  simp [mkFlit, flitHeader]

/-- The bytes of a flit that was built from 256 bytes. -/
theorem flitBytes_ofNat (b : List Byte) (h : b.length = 256) (sh : Bool) (x y : Nat) :
    flitBytes { bits := BitVec.ofNat 2048 (leNat b), short := sh, corr := x, uncorr := y } = b := by
  have key : ∀ (n : Nat) (x : Nat), (List.range n).map (fun i => BitVec.ofNat 8 (x >>> (8 * i))) = leBytes n x := by
    intro n
    induction n with
    | zero => intro x; rfl
    | succ n ih =>
      intro x
      rw [List.range_succ_eq_map, List.map_cons, List.map_map, leBytes, ← ih (x / 256)]
      congr 1
      apply List.map_congr_left
      intro i _
      show BitVec.ofNat 8 (x >>> (8 * (i + 1))) = BitVec.ofNat 8 ((x / 256) >>> (8 * i))
      rw [Nat.mul_add, Nat.add_comm, Nat.shiftRight_add]
      rw [show x >>> (8 * 1) = x / 256 from Nat.shiftRight_eq_div_pow x 8]
  have hlt : leNat b < 2 ^ 2048 := by
    have := leNat_lt b
    rw [h] at this
    exact Nat.lt_of_lt_of_eq this (Nat.pow_mul 2 8 256).symm
  have e : flitBytes { bits := BitVec.ofNat 2048 (leNat b), short := sh, corr := x, uncorr := y } = leBytes 256 (leNat b) := by
    rw [← key 256 (leNat b)]
    unfold flitBytes
    apply List.map_congr_left
    intro i _
    rw [BitVec.extractLsb', BitVec.toNat_ofNat, Nat.mod_eq_of_lt hlt]
  rw [e, ← h, leBytes_leNat]

/-- The header word of a flit that the device makes. -/
theorem mkFlit_header (k vc seq ack : Nat) (nak : Bool) (p : List Byte) :
    fld (mkFlit k vc seq ack nak p) 0 4 = (k + vc * 8 + seq * 32 + ack * 2 ^ 17 + b2n nak * 2 ^ 29) % 2 ^ 32 := by
  rw [fld, mkFlit]
  rw [sub_append_left _ _ 0 4 (by simp [flitHeader]), sub_append_left _ _ 0 4 (by simp [flitHeader]), flitHeader]
  have := sub_append_right [] (leBytes 4 (k + vc * 8 + seq * 32 + ack * 2 ^ 17 + b2n nak * 2 ^ 29))
  simp only [List.nil_append, List.length_nil, leBytes_length] at this
  rw [this, leNat_leBytes, show (256 : Nat) ^ 4 = 2 ^ 32 from rfl]

/-- R283: the CRC field of a flit that the device makes. -/
theorem fld_mkFlit_crc (k vc seq ack : Nat) (nak : Bool) (p : List Byte) :
    fld (mkFlit k vc seq ack nak p) 248 8 = flitCrc ((mkFlit k vc seq ack nak p).take 248) := by
  have ht : (mkFlit k vc seq ack nak p).take 248 = flitHeader k vc seq ack nak ++ fit 244 p := by
    rw [mkFlit]
    exact List.take_left' (by simp [flitHeader])
  rw [ht, fld, mkFlit]
  have := sub_append_right (flitHeader k vc seq ack nak ++ fit 244 p)
    (leBytes 8 (flitCrc (flitHeader k vc seq ack nak ++ fit 244 p)))
  rw [show (flitHeader k vc seq ack nak ++ fit 244 p).length = 248 by simp [flitHeader], leBytes_length] at this
  rw [this, leNat_leBytes]
  exact Nat.mod_eq_of_lt (crc64Init_lt _ _ _ (by decide) (by decide))

/-- R284: a flit that the device makes of a defined kind, with DATA fields only in a DATA flit, is good. -/
theorem checkFlit_mkFlit (k vc seq ack : Nat) (nak : Bool) (p : List Byte) (hk : k < 4) (ha : ack < 4096)
    (hs : seq < 4096) (hv : vc < 4) (hd : k = 1 ∨ (vc = 0 ∧ seq = 0)) : checkFlit (mkFlit k vc seq ack nak p) = .good := by
  have hw := mkFlit_header k vc seq ack nak p
  have hn : b2n nak ≤ 1 := by cases nak <;> simp [b2n]
  have hs' : (k + vc * 8 + seq * 32 + ack * 2 ^ 17 + b2n nak * 2 ^ 29) % 2 ^ 32
      = k + vc * 8 + seq * 32 + ack * 2 ^ 17 + b2n nak * 2 ^ 29 := Nat.mod_eq_of_lt (by omega)
  unfold checkFlit
  dsimp only
  rw [if_pos (fld_mkFlit_crc ..), hw, hs', if_neg]
  simp only [bits, Nat.shiftRight_eq_div_pow]
  rcases hd with rfl | ⟨rfl, rfl⟩ <;> omega

/-- R319: on a port without VLAN tag, an untagged header with the port's addresses and EtherType, a flit and a right
CRC-32 make a frame that carries that flit. -/
theorem frameFlits_one (s : State) (p : Nat) (hd f : List Byte) (hf : f.length = 256) (hl : hd.length = 14)
    (hv : bit (s.regN (lnkAt p + 0x24)) 15 = false)
    (h0 : sub hd 0 6 = (leBytes 4 (s.regN (lnkAt p + 0x28)) ++ leBytes 2 (s.regN (lnkAt p + 0x28 + 4))).reverse)
    (h1 : sub hd 6 6 = (leBytes 4 (s.regN (lnkAt p + 0x30)) ++ leBytes 2 (s.regN (lnkAt p + 0x30 + 4))).reverse)
    (ht : beNat (sub hd 12 2) = s.regN (lnkAt p + 0x20) % 65536) (hn : beNat (sub hd 12 2) ≠ 0x8100) :
    s.frameFlits p (hd ++ f ++ leBytes 4 (crc32 (hd ++ f))) = some [f] := by
  have hlen : (hd ++ f ++ leBytes 4 (crc32 (hd ++ f))).length = 274 := by simp [hf, hl]
  have hd' : ∀ o n, o + n ≤ 14 → sub (hd ++ f ++ leBytes 4 (crc32 (hd ++ f))) o n = sub hd o n := by
    intro o n h
    rw [List.append_assoc, sub_append_left _ _ _ _ (by omega)]
  have hcrc : ∀ b : List Byte, crc32 b < 2 ^ 32 := crc32_lt
  have h4 : fld (hd ++ f ++ leBytes 4 (crc32 (hd ++ f))) 270 4 = crc32 (hd ++ f) := by
    have := sub_append_right (hd ++ f) (leBytes 4 (crc32 (hd ++ f)))
    rw [show (hd ++ f).length = 270 by simp [hf, hl], leBytes_length] at this
    rw [fld, this, leNat_leBytes]
    exact Nat.mod_eq_of_lt (hcrc _)
  have hfs : sub (hd ++ f ++ leBytes 4 (crc32 (hd ++ f))) 14 256 = f := by
    rw [sub_append_left _ _ _ _ (by simp [hf, hl])]
    have := sub_append_right hd f
    rwa [hl, hf] at this
  have htk : (hd ++ f ++ leBytes 4 (crc32 (hd ++ f))).take 270 = hd ++ f := List.take_left' (by simp [hf, hl])
  have e0 := hd' 0 6 (by decide)
  have e1 := hd' 6 6 (by decide)
  have e2 := hd' 12 2 (by decide)
  clear hd' hcrc
  generalize hd ++ f ++ leBytes 4 (crc32 (hd ++ f)) = b at *
  unfold State.frameFlits
  simp only [hv, hlen, Bool.false_eq_true, if_false, Nat.reduceSub, Nat.reduceAdd, Nat.reduceMul, Nat.reduceDiv, e0, e1, e2, h0,
    h1, h4, htk, ht]
  rw [ht] at hn
  simp [hn, hfs, List.range_succ]

end Sys2Proof.Machine
end

