-- ==== Sys2Proof/Laws/State.lean ====
section
/-!
SUPPORT. What each update of the state leaves: one lemma per field and update.
-/
namespace Sys2Proof.Machine

section
variable (s : State) (a : Nat) (w : Word)
@[simp] theorem State.setReg_pending : (s.setReg a w).pending = s.pending := rfl
@[simp] theorem State.setReg_now : (s.setReg a w).now = s.now := rfl
@[simp] theorem State.setReg_mem : (s.setReg a w).mem = s.mem := rfl
@[simp] theorem State.setReg_soft : (s.setReg a w).soft = s.soft := rfl
@[simp] theorem State.setReg_badEcc : (s.setReg a w).badEcc = s.badEcc := rfl
@[simp] theorem State.setReg_hubMem : (s.setReg a w).hubMem = s.hubMem := rfl
@[simp] theorem State.setReg_hostMem : (s.setReg a w).hostMem = s.hostMem := rfl
@[simp] theorem State.setReg_regs : (s.setReg a w).regs = Tab.set s.regs a w := rfl
@[simp] theorem State.setReg_latch : (s.setReg a w).latch = s.latch := rfl
@[simp] theorem State.setReg_free : (s.setReg a w).free = s.free := rfl
@[simp] theorem State.setReg_cores : (s.setReg a w).cores = s.cores := rfl
@[simp] theorem State.setReg_pods : (s.setReg a w).pods = s.pods := rfl
@[simp] theorem State.setReg_dieHurdles : (s.setReg a w).dieHurdles = s.dieHurdles := rfl
@[simp] theorem State.setReg_evt : (s.setReg a w).evt = s.evt := rfl
@[simp] theorem State.setReg_heat : (s.setReg a w).heat = s.heat := rfl
@[simp] theorem State.setReg_job : (s.setReg a w).job = s.job := rfl
@[simp] theorem State.setReg_gates : (s.setReg a w).gates = s.gates := rfl
@[simp] theorem State.setReg_hub : (s.setReg a w).hub = s.hub := rfl
@[simp] theorem State.setReg_host : (s.setReg a w).host = s.host := rfl
@[simp] theorem State.setReg_coreMap : (s.setReg a w).coreMap = s.coreMap := rfl
@[simp] theorem State.setReg_worlds : (s.setReg a w).worlds = s.worlds := rfl
@[simp] theorem State.setReg_regions : (s.setReg a w).regions = s.regions := rfl
@[simp] theorem State.setReg_retired : (s.setReg a w).retired = s.retired := rfl
@[simp] theorem State.setReg_pinRate : (s.setReg a w).pinRate = s.pinRate := rfl
@[simp] theorem State.setReg_pool : (s.setReg a w).pool = s.pool := rfl
@[simp] theorem State.setReg_stash : (s.setReg a w).stash = s.stash := rfl
@[simp] theorem State.setReg_sweep : (s.setReg a w).sweep = s.sweep := rfl
@[simp] theorem State.setReg_drills : (s.setReg a w).drills = s.drills := rfl
@[simp] theorem State.setReg_shu : (s.setReg a w).shu = s.shu := rfl
@[simp] theorem State.setReg_cqs : (s.setReg a w).cqs = s.cqs := rfl
@[simp] theorem State.setReg_ticket : (s.setReg a w).ticket = s.ticket := rfl
@[simp] theorem State.setReg_committed : (s.setReg a w).committed = s.committed := rfl
@[simp] theorem State.setReg_ports : (s.setReg a w).ports = s.ports := rfl
@[simp] theorem State.setReg_wire : (s.setReg a w).wire = s.wire := rfl
@[simp] theorem State.setReg_time : (s.setReg a w).time = s.time := rfl
@[simp] theorem State.setReg_relay : (s.setReg a w).relay = s.relay := rfl
@[simp] theorem State.setReg_digest : (s.setReg a w).digest = s.digest := rfl
@[simp] theorem State.setReg_twin : (s.setReg a w).twin = s.twin := rfl
@[simp] theorem State.setReg_pwr : (s.setReg a w).pwr = s.pwr := rfl
@[simp] theorem State.setReg_rails : (s.setReg a w).rails = s.rails := rfl
@[simp] theorem State.setReg_thm : (s.setReg a w).thm = s.thm := rfl
@[simp] theorem State.setReg_pins : (s.setReg a w).pins = s.pins := rfl
@[simp] theorem State.setReg_i3c : (s.setReg a w).i3c = s.i3c := rfl
@[simp] theorem State.setReg_scrub : (s.setReg a w).scrub = s.scrub := rfl
@[simp] theorem State.setReg_boot : (s.setReg a w).boot = s.boot := rfl
end

section
variable (s : State) (a n : Nat)
@[simp] theorem State.setRegN_pending : (s.setRegN a n).pending = s.pending := rfl
@[simp] theorem State.setRegN_now : (s.setRegN a n).now = s.now := rfl
@[simp] theorem State.setRegN_mem : (s.setRegN a n).mem = s.mem := rfl
@[simp] theorem State.setRegN_soft : (s.setRegN a n).soft = s.soft := rfl
@[simp] theorem State.setRegN_badEcc : (s.setRegN a n).badEcc = s.badEcc := rfl
@[simp] theorem State.setRegN_hubMem : (s.setRegN a n).hubMem = s.hubMem := rfl
@[simp] theorem State.setRegN_hostMem : (s.setRegN a n).hostMem = s.hostMem := rfl
@[simp] theorem State.setRegN_regs : (s.setRegN a n).regs = Tab.set s.regs a (BitVec.ofNat 32 n) := rfl
@[simp] theorem State.setRegN_latch : (s.setRegN a n).latch = s.latch := rfl
@[simp] theorem State.setRegN_free : (s.setRegN a n).free = s.free := rfl
@[simp] theorem State.setRegN_cores : (s.setRegN a n).cores = s.cores := rfl
@[simp] theorem State.setRegN_pods : (s.setRegN a n).pods = s.pods := rfl
@[simp] theorem State.setRegN_dieHurdles : (s.setRegN a n).dieHurdles = s.dieHurdles := rfl
@[simp] theorem State.setRegN_evt : (s.setRegN a n).evt = s.evt := rfl
@[simp] theorem State.setRegN_heat : (s.setRegN a n).heat = s.heat := rfl
@[simp] theorem State.setRegN_job : (s.setRegN a n).job = s.job := rfl
@[simp] theorem State.setRegN_gates : (s.setRegN a n).gates = s.gates := rfl
@[simp] theorem State.setRegN_hub : (s.setRegN a n).hub = s.hub := rfl
@[simp] theorem State.setRegN_host : (s.setRegN a n).host = s.host := rfl
@[simp] theorem State.setRegN_coreMap : (s.setRegN a n).coreMap = s.coreMap := rfl
@[simp] theorem State.setRegN_worlds : (s.setRegN a n).worlds = s.worlds := rfl
@[simp] theorem State.setRegN_regions : (s.setRegN a n).regions = s.regions := rfl
@[simp] theorem State.setRegN_retired : (s.setRegN a n).retired = s.retired := rfl
@[simp] theorem State.setRegN_pinRate : (s.setRegN a n).pinRate = s.pinRate := rfl
@[simp] theorem State.setRegN_pool : (s.setRegN a n).pool = s.pool := rfl
@[simp] theorem State.setRegN_stash : (s.setRegN a n).stash = s.stash := rfl
@[simp] theorem State.setRegN_sweep : (s.setRegN a n).sweep = s.sweep := rfl
@[simp] theorem State.setRegN_drills : (s.setRegN a n).drills = s.drills := rfl
@[simp] theorem State.setRegN_shu : (s.setRegN a n).shu = s.shu := rfl
@[simp] theorem State.setRegN_cqs : (s.setRegN a n).cqs = s.cqs := rfl
@[simp] theorem State.setRegN_ticket : (s.setRegN a n).ticket = s.ticket := rfl
@[simp] theorem State.setRegN_committed : (s.setRegN a n).committed = s.committed := rfl
@[simp] theorem State.setRegN_ports : (s.setRegN a n).ports = s.ports := rfl
@[simp] theorem State.setRegN_wire : (s.setRegN a n).wire = s.wire := rfl
@[simp] theorem State.setRegN_time : (s.setRegN a n).time = s.time := rfl
@[simp] theorem State.setRegN_relay : (s.setRegN a n).relay = s.relay := rfl
@[simp] theorem State.setRegN_digest : (s.setRegN a n).digest = s.digest := rfl
@[simp] theorem State.setRegN_twin : (s.setRegN a n).twin = s.twin := rfl
@[simp] theorem State.setRegN_pwr : (s.setRegN a n).pwr = s.pwr := rfl
@[simp] theorem State.setRegN_rails : (s.setRegN a n).rails = s.rails := rfl
@[simp] theorem State.setRegN_thm : (s.setRegN a n).thm = s.thm := rfl
@[simp] theorem State.setRegN_pins : (s.setRegN a n).pins = s.pins := rfl
@[simp] theorem State.setRegN_i3c : (s.setRegN a n).i3c = s.i3c := rfl
@[simp] theorem State.setRegN_scrub : (s.setRegN a n).scrub = s.scrub := rfl
@[simp] theorem State.setRegN_boot : (s.setRegN a n).boot = s.boot := rfl
end

section
variable (s : State) (a n : Nat)
@[simp] theorem State.count_pending : (s.count a n).pending = s.pending := rfl
@[simp] theorem State.count_now : (s.count a n).now = s.now := rfl
@[simp] theorem State.count_mem : (s.count a n).mem = s.mem := rfl
@[simp] theorem State.count_soft : (s.count a n).soft = s.soft := rfl
@[simp] theorem State.count_badEcc : (s.count a n).badEcc = s.badEcc := rfl
@[simp] theorem State.count_hubMem : (s.count a n).hubMem = s.hubMem := rfl
@[simp] theorem State.count_hostMem : (s.count a n).hostMem = s.hostMem := rfl
@[simp] theorem State.count_regs : (s.count a n).regs = Tab.set s.regs a (s.reg a + BitVec.ofNat 32 n) := rfl
@[simp] theorem State.count_latch : (s.count a n).latch = s.latch := rfl
@[simp] theorem State.count_free : (s.count a n).free = s.free := rfl
@[simp] theorem State.count_cores : (s.count a n).cores = s.cores := rfl
@[simp] theorem State.count_pods : (s.count a n).pods = s.pods := rfl
@[simp] theorem State.count_dieHurdles : (s.count a n).dieHurdles = s.dieHurdles := rfl
@[simp] theorem State.count_evt : (s.count a n).evt = s.evt := rfl
@[simp] theorem State.count_heat : (s.count a n).heat = s.heat := rfl
@[simp] theorem State.count_job : (s.count a n).job = s.job := rfl
@[simp] theorem State.count_gates : (s.count a n).gates = s.gates := rfl
@[simp] theorem State.count_hub : (s.count a n).hub = s.hub := rfl
@[simp] theorem State.count_host : (s.count a n).host = s.host := rfl
@[simp] theorem State.count_coreMap : (s.count a n).coreMap = s.coreMap := rfl
@[simp] theorem State.count_worlds : (s.count a n).worlds = s.worlds := rfl
@[simp] theorem State.count_regions : (s.count a n).regions = s.regions := rfl
@[simp] theorem State.count_retired : (s.count a n).retired = s.retired := rfl
@[simp] theorem State.count_pinRate : (s.count a n).pinRate = s.pinRate := rfl
@[simp] theorem State.count_pool : (s.count a n).pool = s.pool := rfl
@[simp] theorem State.count_stash : (s.count a n).stash = s.stash := rfl
@[simp] theorem State.count_sweep : (s.count a n).sweep = s.sweep := rfl
@[simp] theorem State.count_drills : (s.count a n).drills = s.drills := rfl
@[simp] theorem State.count_shu : (s.count a n).shu = s.shu := rfl
@[simp] theorem State.count_cqs : (s.count a n).cqs = s.cqs := rfl
@[simp] theorem State.count_ticket : (s.count a n).ticket = s.ticket := rfl
@[simp] theorem State.count_committed : (s.count a n).committed = s.committed := rfl
@[simp] theorem State.count_ports : (s.count a n).ports = s.ports := rfl
@[simp] theorem State.count_wire : (s.count a n).wire = s.wire := rfl
@[simp] theorem State.count_time : (s.count a n).time = s.time := rfl
@[simp] theorem State.count_relay : (s.count a n).relay = s.relay := rfl
@[simp] theorem State.count_digest : (s.count a n).digest = s.digest := rfl
@[simp] theorem State.count_twin : (s.count a n).twin = s.twin := rfl
@[simp] theorem State.count_pwr : (s.count a n).pwr = s.pwr := rfl
@[simp] theorem State.count_rails : (s.count a n).rails = s.rails := rfl
@[simp] theorem State.count_thm : (s.count a n).thm = s.thm := rfl
@[simp] theorem State.count_pins : (s.count a n).pins = s.pins := rfl
@[simp] theorem State.count_i3c : (s.count a n).i3c = s.i3c := rfl
@[simp] theorem State.count_scrub : (s.count a n).scrub = s.scrub := rfl
@[simp] theorem State.count_boot : (s.count a n).boot = s.boot := rfl
end

section
variable (s : State) (a n : Nat)
@[simp] theorem State.setReg64_pending : (s.setReg64 a n).pending = s.pending := rfl
@[simp] theorem State.setReg64_now : (s.setReg64 a n).now = s.now := rfl
@[simp] theorem State.setReg64_mem : (s.setReg64 a n).mem = s.mem := rfl
@[simp] theorem State.setReg64_soft : (s.setReg64 a n).soft = s.soft := rfl
@[simp] theorem State.setReg64_badEcc : (s.setReg64 a n).badEcc = s.badEcc := rfl
@[simp] theorem State.setReg64_hubMem : (s.setReg64 a n).hubMem = s.hubMem := rfl
@[simp] theorem State.setReg64_hostMem : (s.setReg64 a n).hostMem = s.hostMem := rfl
@[simp] theorem State.setReg64_latch : (s.setReg64 a n).latch = s.latch := rfl
@[simp] theorem State.setReg64_free : (s.setReg64 a n).free = s.free := rfl
@[simp] theorem State.setReg64_cores : (s.setReg64 a n).cores = s.cores := rfl
@[simp] theorem State.setReg64_pods : (s.setReg64 a n).pods = s.pods := rfl
@[simp] theorem State.setReg64_dieHurdles : (s.setReg64 a n).dieHurdles = s.dieHurdles := rfl
@[simp] theorem State.setReg64_evt : (s.setReg64 a n).evt = s.evt := rfl
@[simp] theorem State.setReg64_heat : (s.setReg64 a n).heat = s.heat := rfl
@[simp] theorem State.setReg64_job : (s.setReg64 a n).job = s.job := rfl
@[simp] theorem State.setReg64_gates : (s.setReg64 a n).gates = s.gates := rfl
@[simp] theorem State.setReg64_hub : (s.setReg64 a n).hub = s.hub := rfl
@[simp] theorem State.setReg64_host : (s.setReg64 a n).host = s.host := rfl
@[simp] theorem State.setReg64_coreMap : (s.setReg64 a n).coreMap = s.coreMap := rfl
@[simp] theorem State.setReg64_worlds : (s.setReg64 a n).worlds = s.worlds := rfl
@[simp] theorem State.setReg64_regions : (s.setReg64 a n).regions = s.regions := rfl
@[simp] theorem State.setReg64_retired : (s.setReg64 a n).retired = s.retired := rfl
@[simp] theorem State.setReg64_pinRate : (s.setReg64 a n).pinRate = s.pinRate := rfl
@[simp] theorem State.setReg64_pool : (s.setReg64 a n).pool = s.pool := rfl
@[simp] theorem State.setReg64_stash : (s.setReg64 a n).stash = s.stash := rfl
@[simp] theorem State.setReg64_sweep : (s.setReg64 a n).sweep = s.sweep := rfl
@[simp] theorem State.setReg64_drills : (s.setReg64 a n).drills = s.drills := rfl
@[simp] theorem State.setReg64_shu : (s.setReg64 a n).shu = s.shu := rfl
@[simp] theorem State.setReg64_cqs : (s.setReg64 a n).cqs = s.cqs := rfl
@[simp] theorem State.setReg64_ticket : (s.setReg64 a n).ticket = s.ticket := rfl
@[simp] theorem State.setReg64_committed : (s.setReg64 a n).committed = s.committed := rfl
@[simp] theorem State.setReg64_ports : (s.setReg64 a n).ports = s.ports := rfl
@[simp] theorem State.setReg64_wire : (s.setReg64 a n).wire = s.wire := rfl
@[simp] theorem State.setReg64_time : (s.setReg64 a n).time = s.time := rfl
@[simp] theorem State.setReg64_relay : (s.setReg64 a n).relay = s.relay := rfl
@[simp] theorem State.setReg64_digest : (s.setReg64 a n).digest = s.digest := rfl
@[simp] theorem State.setReg64_twin : (s.setReg64 a n).twin = s.twin := rfl
@[simp] theorem State.setReg64_pwr : (s.setReg64 a n).pwr = s.pwr := rfl
@[simp] theorem State.setReg64_rails : (s.setReg64 a n).rails = s.rails := rfl
@[simp] theorem State.setReg64_thm : (s.setReg64 a n).thm = s.thm := rfl
@[simp] theorem State.setReg64_pins : (s.setReg64 a n).pins = s.pins := rfl
@[simp] theorem State.setReg64_i3c : (s.setReg64 a n).i3c = s.i3c := rfl
@[simp] theorem State.setReg64_scrub : (s.setReg64 a n).scrub = s.scrub := rfl
@[simp] theorem State.setReg64_boot : (s.setReg64 a n).boot = s.boot := rfl
end

section
variable (s : State) (a n : Nat)
@[simp] theorem State.count64_pending : (s.count64 a n).pending = s.pending := rfl
@[simp] theorem State.count64_now : (s.count64 a n).now = s.now := rfl
@[simp] theorem State.count64_mem : (s.count64 a n).mem = s.mem := rfl
@[simp] theorem State.count64_soft : (s.count64 a n).soft = s.soft := rfl
@[simp] theorem State.count64_badEcc : (s.count64 a n).badEcc = s.badEcc := rfl
@[simp] theorem State.count64_hubMem : (s.count64 a n).hubMem = s.hubMem := rfl
@[simp] theorem State.count64_hostMem : (s.count64 a n).hostMem = s.hostMem := rfl
@[simp] theorem State.count64_latch : (s.count64 a n).latch = s.latch := rfl
@[simp] theorem State.count64_free : (s.count64 a n).free = s.free := rfl
@[simp] theorem State.count64_cores : (s.count64 a n).cores = s.cores := rfl
@[simp] theorem State.count64_pods : (s.count64 a n).pods = s.pods := rfl
@[simp] theorem State.count64_dieHurdles : (s.count64 a n).dieHurdles = s.dieHurdles := rfl
@[simp] theorem State.count64_evt : (s.count64 a n).evt = s.evt := rfl
@[simp] theorem State.count64_heat : (s.count64 a n).heat = s.heat := rfl
@[simp] theorem State.count64_job : (s.count64 a n).job = s.job := rfl
@[simp] theorem State.count64_gates : (s.count64 a n).gates = s.gates := rfl
@[simp] theorem State.count64_hub : (s.count64 a n).hub = s.hub := rfl
@[simp] theorem State.count64_host : (s.count64 a n).host = s.host := rfl
@[simp] theorem State.count64_coreMap : (s.count64 a n).coreMap = s.coreMap := rfl
@[simp] theorem State.count64_worlds : (s.count64 a n).worlds = s.worlds := rfl
@[simp] theorem State.count64_regions : (s.count64 a n).regions = s.regions := rfl
@[simp] theorem State.count64_retired : (s.count64 a n).retired = s.retired := rfl
@[simp] theorem State.count64_pinRate : (s.count64 a n).pinRate = s.pinRate := rfl
@[simp] theorem State.count64_pool : (s.count64 a n).pool = s.pool := rfl
@[simp] theorem State.count64_stash : (s.count64 a n).stash = s.stash := rfl
@[simp] theorem State.count64_sweep : (s.count64 a n).sweep = s.sweep := rfl
@[simp] theorem State.count64_drills : (s.count64 a n).drills = s.drills := rfl
@[simp] theorem State.count64_shu : (s.count64 a n).shu = s.shu := rfl
@[simp] theorem State.count64_cqs : (s.count64 a n).cqs = s.cqs := rfl
@[simp] theorem State.count64_ticket : (s.count64 a n).ticket = s.ticket := rfl
@[simp] theorem State.count64_committed : (s.count64 a n).committed = s.committed := rfl
@[simp] theorem State.count64_ports : (s.count64 a n).ports = s.ports := rfl
@[simp] theorem State.count64_wire : (s.count64 a n).wire = s.wire := rfl
@[simp] theorem State.count64_time : (s.count64 a n).time = s.time := rfl
@[simp] theorem State.count64_relay : (s.count64 a n).relay = s.relay := rfl
@[simp] theorem State.count64_digest : (s.count64 a n).digest = s.digest := rfl
@[simp] theorem State.count64_twin : (s.count64 a n).twin = s.twin := rfl
@[simp] theorem State.count64_pwr : (s.count64 a n).pwr = s.pwr := rfl
@[simp] theorem State.count64_rails : (s.count64 a n).rails = s.rails := rfl
@[simp] theorem State.count64_thm : (s.count64 a n).thm = s.thm := rfl
@[simp] theorem State.count64_pins : (s.count64 a n).pins = s.pins := rfl
@[simp] theorem State.count64_i3c : (s.count64 a n).i3c = s.i3c := rfl
@[simp] theorem State.count64_scrub : (s.count64 a n).scrub = s.scrub := rfl
@[simp] theorem State.count64_boot : (s.count64 a n).boot = s.boot := rfl
end

section
variable (s : State) (a m : Nat)
@[simp] theorem State.raiseBits_pending : (s.raiseBits a m).pending = s.pending := rfl
@[simp] theorem State.raiseBits_now : (s.raiseBits a m).now = s.now := rfl
@[simp] theorem State.raiseBits_mem : (s.raiseBits a m).mem = s.mem := rfl
@[simp] theorem State.raiseBits_soft : (s.raiseBits a m).soft = s.soft := rfl
@[simp] theorem State.raiseBits_badEcc : (s.raiseBits a m).badEcc = s.badEcc := rfl
@[simp] theorem State.raiseBits_hubMem : (s.raiseBits a m).hubMem = s.hubMem := rfl
@[simp] theorem State.raiseBits_hostMem : (s.raiseBits a m).hostMem = s.hostMem := rfl
@[simp] theorem State.raiseBits_regs : (s.raiseBits a m).regs = Tab.set s.regs a (s.reg a ||| BitVec.ofNat 32 m) := rfl
@[simp] theorem State.raiseBits_latch : (s.raiseBits a m).latch = s.latch := rfl
@[simp] theorem State.raiseBits_free : (s.raiseBits a m).free = s.free := rfl
@[simp] theorem State.raiseBits_cores : (s.raiseBits a m).cores = s.cores := rfl
@[simp] theorem State.raiseBits_pods : (s.raiseBits a m).pods = s.pods := rfl
@[simp] theorem State.raiseBits_dieHurdles : (s.raiseBits a m).dieHurdles = s.dieHurdles := rfl
@[simp] theorem State.raiseBits_evt : (s.raiseBits a m).evt = s.evt := rfl
@[simp] theorem State.raiseBits_heat : (s.raiseBits a m).heat = s.heat := rfl
@[simp] theorem State.raiseBits_job : (s.raiseBits a m).job = s.job := rfl
@[simp] theorem State.raiseBits_gates : (s.raiseBits a m).gates = s.gates := rfl
@[simp] theorem State.raiseBits_hub : (s.raiseBits a m).hub = s.hub := rfl
@[simp] theorem State.raiseBits_host : (s.raiseBits a m).host = s.host := rfl
@[simp] theorem State.raiseBits_coreMap : (s.raiseBits a m).coreMap = s.coreMap := rfl
@[simp] theorem State.raiseBits_worlds : (s.raiseBits a m).worlds = s.worlds := rfl
@[simp] theorem State.raiseBits_regions : (s.raiseBits a m).regions = s.regions := rfl
@[simp] theorem State.raiseBits_retired : (s.raiseBits a m).retired = s.retired := rfl
@[simp] theorem State.raiseBits_pinRate : (s.raiseBits a m).pinRate = s.pinRate := rfl
@[simp] theorem State.raiseBits_pool : (s.raiseBits a m).pool = s.pool := rfl
@[simp] theorem State.raiseBits_stash : (s.raiseBits a m).stash = s.stash := rfl
@[simp] theorem State.raiseBits_sweep : (s.raiseBits a m).sweep = s.sweep := rfl
@[simp] theorem State.raiseBits_drills : (s.raiseBits a m).drills = s.drills := rfl
@[simp] theorem State.raiseBits_shu : (s.raiseBits a m).shu = s.shu := rfl
@[simp] theorem State.raiseBits_cqs : (s.raiseBits a m).cqs = s.cqs := rfl
@[simp] theorem State.raiseBits_ticket : (s.raiseBits a m).ticket = s.ticket := rfl
@[simp] theorem State.raiseBits_committed : (s.raiseBits a m).committed = s.committed := rfl
@[simp] theorem State.raiseBits_ports : (s.raiseBits a m).ports = s.ports := rfl
@[simp] theorem State.raiseBits_wire : (s.raiseBits a m).wire = s.wire := rfl
@[simp] theorem State.raiseBits_time : (s.raiseBits a m).time = s.time := rfl
@[simp] theorem State.raiseBits_relay : (s.raiseBits a m).relay = s.relay := rfl
@[simp] theorem State.raiseBits_digest : (s.raiseBits a m).digest = s.digest := rfl
@[simp] theorem State.raiseBits_twin : (s.raiseBits a m).twin = s.twin := rfl
@[simp] theorem State.raiseBits_pwr : (s.raiseBits a m).pwr = s.pwr := rfl
@[simp] theorem State.raiseBits_rails : (s.raiseBits a m).rails = s.rails := rfl
@[simp] theorem State.raiseBits_thm : (s.raiseBits a m).thm = s.thm := rfl
@[simp] theorem State.raiseBits_pins : (s.raiseBits a m).pins = s.pins := rfl
@[simp] theorem State.raiseBits_i3c : (s.raiseBits a m).i3c = s.i3c := rfl
@[simp] theorem State.raiseBits_scrub : (s.raiseBits a m).scrub = s.scrub := rfl
@[simp] theorem State.raiseBits_boot : (s.raiseBits a m).boot = s.boot := rfl
end

section
variable (s : State) (a m : Nat)
@[simp] theorem State.dropBits_pending : (s.dropBits a m).pending = s.pending := rfl
@[simp] theorem State.dropBits_now : (s.dropBits a m).now = s.now := rfl
@[simp] theorem State.dropBits_mem : (s.dropBits a m).mem = s.mem := rfl
@[simp] theorem State.dropBits_soft : (s.dropBits a m).soft = s.soft := rfl
@[simp] theorem State.dropBits_badEcc : (s.dropBits a m).badEcc = s.badEcc := rfl
@[simp] theorem State.dropBits_hubMem : (s.dropBits a m).hubMem = s.hubMem := rfl
@[simp] theorem State.dropBits_hostMem : (s.dropBits a m).hostMem = s.hostMem := rfl
@[simp] theorem State.dropBits_regs : (s.dropBits a m).regs = Tab.set s.regs a (s.reg a &&& ~~~ BitVec.ofNat 32 m) := rfl
@[simp] theorem State.dropBits_latch : (s.dropBits a m).latch = s.latch := rfl
@[simp] theorem State.dropBits_free : (s.dropBits a m).free = s.free := rfl
@[simp] theorem State.dropBits_cores : (s.dropBits a m).cores = s.cores := rfl
@[simp] theorem State.dropBits_pods : (s.dropBits a m).pods = s.pods := rfl
@[simp] theorem State.dropBits_dieHurdles : (s.dropBits a m).dieHurdles = s.dieHurdles := rfl
@[simp] theorem State.dropBits_evt : (s.dropBits a m).evt = s.evt := rfl
@[simp] theorem State.dropBits_heat : (s.dropBits a m).heat = s.heat := rfl
@[simp] theorem State.dropBits_job : (s.dropBits a m).job = s.job := rfl
@[simp] theorem State.dropBits_gates : (s.dropBits a m).gates = s.gates := rfl
@[simp] theorem State.dropBits_hub : (s.dropBits a m).hub = s.hub := rfl
@[simp] theorem State.dropBits_host : (s.dropBits a m).host = s.host := rfl
@[simp] theorem State.dropBits_coreMap : (s.dropBits a m).coreMap = s.coreMap := rfl
@[simp] theorem State.dropBits_worlds : (s.dropBits a m).worlds = s.worlds := rfl
@[simp] theorem State.dropBits_regions : (s.dropBits a m).regions = s.regions := rfl
@[simp] theorem State.dropBits_retired : (s.dropBits a m).retired = s.retired := rfl
@[simp] theorem State.dropBits_pinRate : (s.dropBits a m).pinRate = s.pinRate := rfl
@[simp] theorem State.dropBits_pool : (s.dropBits a m).pool = s.pool := rfl
@[simp] theorem State.dropBits_stash : (s.dropBits a m).stash = s.stash := rfl
@[simp] theorem State.dropBits_sweep : (s.dropBits a m).sweep = s.sweep := rfl
@[simp] theorem State.dropBits_drills : (s.dropBits a m).drills = s.drills := rfl
@[simp] theorem State.dropBits_shu : (s.dropBits a m).shu = s.shu := rfl
@[simp] theorem State.dropBits_cqs : (s.dropBits a m).cqs = s.cqs := rfl
@[simp] theorem State.dropBits_ticket : (s.dropBits a m).ticket = s.ticket := rfl
@[simp] theorem State.dropBits_committed : (s.dropBits a m).committed = s.committed := rfl
@[simp] theorem State.dropBits_ports : (s.dropBits a m).ports = s.ports := rfl
@[simp] theorem State.dropBits_wire : (s.dropBits a m).wire = s.wire := rfl
@[simp] theorem State.dropBits_time : (s.dropBits a m).time = s.time := rfl
@[simp] theorem State.dropBits_relay : (s.dropBits a m).relay = s.relay := rfl
@[simp] theorem State.dropBits_digest : (s.dropBits a m).digest = s.digest := rfl
@[simp] theorem State.dropBits_twin : (s.dropBits a m).twin = s.twin := rfl
@[simp] theorem State.dropBits_pwr : (s.dropBits a m).pwr = s.pwr := rfl
@[simp] theorem State.dropBits_rails : (s.dropBits a m).rails = s.rails := rfl
@[simp] theorem State.dropBits_thm : (s.dropBits a m).thm = s.thm := rfl
@[simp] theorem State.dropBits_pins : (s.dropBits a m).pins = s.pins := rfl
@[simp] theorem State.dropBits_i3c : (s.dropBits a m).i3c = s.i3c := rfl
@[simp] theorem State.dropBits_scrub : (s.dropBits a m).scrub = s.scrub := rfl
@[simp] theorem State.dropBits_boot : (s.dropBits a m).boot = s.boot := rfl
end

section
variable (s : State) (a hi lo v : Nat)
@[simp] theorem State.putField_pending : (s.putField a hi lo v).pending = s.pending := rfl
@[simp] theorem State.putField_now : (s.putField a hi lo v).now = s.now := rfl
@[simp] theorem State.putField_mem : (s.putField a hi lo v).mem = s.mem := rfl
@[simp] theorem State.putField_soft : (s.putField a hi lo v).soft = s.soft := rfl
@[simp] theorem State.putField_badEcc : (s.putField a hi lo v).badEcc = s.badEcc := rfl
@[simp] theorem State.putField_hubMem : (s.putField a hi lo v).hubMem = s.hubMem := rfl
@[simp] theorem State.putField_hostMem : (s.putField a hi lo v).hostMem = s.hostMem := rfl
@[simp] theorem State.putField_latch : (s.putField a hi lo v).latch = s.latch := rfl
@[simp] theorem State.putField_free : (s.putField a hi lo v).free = s.free := rfl
@[simp] theorem State.putField_cores : (s.putField a hi lo v).cores = s.cores := rfl
@[simp] theorem State.putField_pods : (s.putField a hi lo v).pods = s.pods := rfl
@[simp] theorem State.putField_dieHurdles : (s.putField a hi lo v).dieHurdles = s.dieHurdles := rfl
@[simp] theorem State.putField_evt : (s.putField a hi lo v).evt = s.evt := rfl
@[simp] theorem State.putField_heat : (s.putField a hi lo v).heat = s.heat := rfl
@[simp] theorem State.putField_job : (s.putField a hi lo v).job = s.job := rfl
@[simp] theorem State.putField_gates : (s.putField a hi lo v).gates = s.gates := rfl
@[simp] theorem State.putField_hub : (s.putField a hi lo v).hub = s.hub := rfl
@[simp] theorem State.putField_host : (s.putField a hi lo v).host = s.host := rfl
@[simp] theorem State.putField_coreMap : (s.putField a hi lo v).coreMap = s.coreMap := rfl
@[simp] theorem State.putField_worlds : (s.putField a hi lo v).worlds = s.worlds := rfl
@[simp] theorem State.putField_regions : (s.putField a hi lo v).regions = s.regions := rfl
@[simp] theorem State.putField_retired : (s.putField a hi lo v).retired = s.retired := rfl
@[simp] theorem State.putField_pinRate : (s.putField a hi lo v).pinRate = s.pinRate := rfl
@[simp] theorem State.putField_pool : (s.putField a hi lo v).pool = s.pool := rfl
@[simp] theorem State.putField_stash : (s.putField a hi lo v).stash = s.stash := rfl
@[simp] theorem State.putField_sweep : (s.putField a hi lo v).sweep = s.sweep := rfl
@[simp] theorem State.putField_drills : (s.putField a hi lo v).drills = s.drills := rfl
@[simp] theorem State.putField_shu : (s.putField a hi lo v).shu = s.shu := rfl
@[simp] theorem State.putField_cqs : (s.putField a hi lo v).cqs = s.cqs := rfl
@[simp] theorem State.putField_ticket : (s.putField a hi lo v).ticket = s.ticket := rfl
@[simp] theorem State.putField_committed : (s.putField a hi lo v).committed = s.committed := rfl
@[simp] theorem State.putField_ports : (s.putField a hi lo v).ports = s.ports := rfl
@[simp] theorem State.putField_wire : (s.putField a hi lo v).wire = s.wire := rfl
@[simp] theorem State.putField_time : (s.putField a hi lo v).time = s.time := rfl
@[simp] theorem State.putField_relay : (s.putField a hi lo v).relay = s.relay := rfl
@[simp] theorem State.putField_digest : (s.putField a hi lo v).digest = s.digest := rfl
@[simp] theorem State.putField_twin : (s.putField a hi lo v).twin = s.twin := rfl
@[simp] theorem State.putField_pwr : (s.putField a hi lo v).pwr = s.pwr := rfl
@[simp] theorem State.putField_rails : (s.putField a hi lo v).rails = s.rails := rfl
@[simp] theorem State.putField_thm : (s.putField a hi lo v).thm = s.thm := rfl
@[simp] theorem State.putField_pins : (s.putField a hi lo v).pins = s.pins := rfl
@[simp] theorem State.putField_i3c : (s.putField a hi lo v).i3c = s.i3c := rfl
@[simp] theorem State.putField_scrub : (s.putField a hi lo v).scrub = s.scrub := rfl
@[simp] theorem State.putField_boot : (s.putField a hi lo v).boot = s.boot := rfl
end

section
variable (s : State) (c : Nat) (k : Core)
@[simp] theorem State.setCore_pending : (s.setCore c k).pending = s.pending := rfl
@[simp] theorem State.setCore_now : (s.setCore c k).now = s.now := rfl
@[simp] theorem State.setCore_mem : (s.setCore c k).mem = s.mem := rfl
@[simp] theorem State.setCore_soft : (s.setCore c k).soft = s.soft := rfl
@[simp] theorem State.setCore_badEcc : (s.setCore c k).badEcc = s.badEcc := rfl
@[simp] theorem State.setCore_hubMem : (s.setCore c k).hubMem = s.hubMem := rfl
@[simp] theorem State.setCore_hostMem : (s.setCore c k).hostMem = s.hostMem := rfl
@[simp] theorem State.setCore_regs : (s.setCore c k).regs = s.regs := rfl
@[simp] theorem State.setCore_latch : (s.setCore c k).latch = s.latch := rfl
@[simp] theorem State.setCore_free : (s.setCore c k).free = s.free := rfl
@[simp] theorem State.setCore_cores : (s.setCore c k).cores = Tab.set s.cores c k := rfl
@[simp] theorem State.setCore_pods : (s.setCore c k).pods = s.pods := rfl
@[simp] theorem State.setCore_dieHurdles : (s.setCore c k).dieHurdles = s.dieHurdles := rfl
@[simp] theorem State.setCore_evt : (s.setCore c k).evt = s.evt := rfl
@[simp] theorem State.setCore_heat : (s.setCore c k).heat = s.heat := rfl
@[simp] theorem State.setCore_job : (s.setCore c k).job = s.job := rfl
@[simp] theorem State.setCore_gates : (s.setCore c k).gates = s.gates := rfl
@[simp] theorem State.setCore_hub : (s.setCore c k).hub = s.hub := rfl
@[simp] theorem State.setCore_host : (s.setCore c k).host = s.host := rfl
@[simp] theorem State.setCore_coreMap : (s.setCore c k).coreMap = s.coreMap := rfl
@[simp] theorem State.setCore_worlds : (s.setCore c k).worlds = s.worlds := rfl
@[simp] theorem State.setCore_regions : (s.setCore c k).regions = s.regions := rfl
@[simp] theorem State.setCore_retired : (s.setCore c k).retired = s.retired := rfl
@[simp] theorem State.setCore_pinRate : (s.setCore c k).pinRate = s.pinRate := rfl
@[simp] theorem State.setCore_pool : (s.setCore c k).pool = s.pool := rfl
@[simp] theorem State.setCore_stash : (s.setCore c k).stash = s.stash := rfl
@[simp] theorem State.setCore_sweep : (s.setCore c k).sweep = s.sweep := rfl
@[simp] theorem State.setCore_drills : (s.setCore c k).drills = s.drills := rfl
@[simp] theorem State.setCore_shu : (s.setCore c k).shu = s.shu := rfl
@[simp] theorem State.setCore_cqs : (s.setCore c k).cqs = s.cqs := rfl
@[simp] theorem State.setCore_ticket : (s.setCore c k).ticket = s.ticket := rfl
@[simp] theorem State.setCore_committed : (s.setCore c k).committed = s.committed := rfl
@[simp] theorem State.setCore_ports : (s.setCore c k).ports = s.ports := rfl
@[simp] theorem State.setCore_wire : (s.setCore c k).wire = s.wire := rfl
@[simp] theorem State.setCore_time : (s.setCore c k).time = s.time := rfl
@[simp] theorem State.setCore_relay : (s.setCore c k).relay = s.relay := rfl
@[simp] theorem State.setCore_digest : (s.setCore c k).digest = s.digest := rfl
@[simp] theorem State.setCore_twin : (s.setCore c k).twin = s.twin := rfl
@[simp] theorem State.setCore_pwr : (s.setCore c k).pwr = s.pwr := rfl
@[simp] theorem State.setCore_rails : (s.setCore c k).rails = s.rails := rfl
@[simp] theorem State.setCore_thm : (s.setCore c k).thm = s.thm := rfl
@[simp] theorem State.setCore_pins : (s.setCore c k).pins = s.pins := rfl
@[simp] theorem State.setCore_i3c : (s.setCore c k).i3c = s.i3c := rfl
@[simp] theorem State.setCore_scrub : (s.setCore c k).scrub = s.scrub := rfl
@[simp] theorem State.setCore_boot : (s.setCore c k).boot = s.boot := rfl
end

section
variable (s : State) (c : Nat) (f : Core → Core)
@[simp] theorem State.onCore_pending : (s.onCore c f).pending = s.pending := rfl
@[simp] theorem State.onCore_now : (s.onCore c f).now = s.now := rfl
@[simp] theorem State.onCore_mem : (s.onCore c f).mem = s.mem := rfl
@[simp] theorem State.onCore_soft : (s.onCore c f).soft = s.soft := rfl
@[simp] theorem State.onCore_badEcc : (s.onCore c f).badEcc = s.badEcc := rfl
@[simp] theorem State.onCore_hubMem : (s.onCore c f).hubMem = s.hubMem := rfl
@[simp] theorem State.onCore_hostMem : (s.onCore c f).hostMem = s.hostMem := rfl
@[simp] theorem State.onCore_regs : (s.onCore c f).regs = s.regs := rfl
@[simp] theorem State.onCore_latch : (s.onCore c f).latch = s.latch := rfl
@[simp] theorem State.onCore_free : (s.onCore c f).free = s.free := rfl
@[simp] theorem State.onCore_cores : (s.onCore c f).cores = Tab.set s.cores c (f (s.core c)) := rfl
@[simp] theorem State.onCore_pods : (s.onCore c f).pods = s.pods := rfl
@[simp] theorem State.onCore_dieHurdles : (s.onCore c f).dieHurdles = s.dieHurdles := rfl
@[simp] theorem State.onCore_evt : (s.onCore c f).evt = s.evt := rfl
@[simp] theorem State.onCore_heat : (s.onCore c f).heat = s.heat := rfl
@[simp] theorem State.onCore_job : (s.onCore c f).job = s.job := rfl
@[simp] theorem State.onCore_gates : (s.onCore c f).gates = s.gates := rfl
@[simp] theorem State.onCore_hub : (s.onCore c f).hub = s.hub := rfl
@[simp] theorem State.onCore_host : (s.onCore c f).host = s.host := rfl
@[simp] theorem State.onCore_coreMap : (s.onCore c f).coreMap = s.coreMap := rfl
@[simp] theorem State.onCore_worlds : (s.onCore c f).worlds = s.worlds := rfl
@[simp] theorem State.onCore_regions : (s.onCore c f).regions = s.regions := rfl
@[simp] theorem State.onCore_retired : (s.onCore c f).retired = s.retired := rfl
@[simp] theorem State.onCore_pinRate : (s.onCore c f).pinRate = s.pinRate := rfl
@[simp] theorem State.onCore_pool : (s.onCore c f).pool = s.pool := rfl
@[simp] theorem State.onCore_stash : (s.onCore c f).stash = s.stash := rfl
@[simp] theorem State.onCore_sweep : (s.onCore c f).sweep = s.sweep := rfl
@[simp] theorem State.onCore_drills : (s.onCore c f).drills = s.drills := rfl
@[simp] theorem State.onCore_shu : (s.onCore c f).shu = s.shu := rfl
@[simp] theorem State.onCore_cqs : (s.onCore c f).cqs = s.cqs := rfl
@[simp] theorem State.onCore_ticket : (s.onCore c f).ticket = s.ticket := rfl
@[simp] theorem State.onCore_committed : (s.onCore c f).committed = s.committed := rfl
@[simp] theorem State.onCore_ports : (s.onCore c f).ports = s.ports := rfl
@[simp] theorem State.onCore_wire : (s.onCore c f).wire = s.wire := rfl
@[simp] theorem State.onCore_time : (s.onCore c f).time = s.time := rfl
@[simp] theorem State.onCore_relay : (s.onCore c f).relay = s.relay := rfl
@[simp] theorem State.onCore_digest : (s.onCore c f).digest = s.digest := rfl
@[simp] theorem State.onCore_twin : (s.onCore c f).twin = s.twin := rfl
@[simp] theorem State.onCore_pwr : (s.onCore c f).pwr = s.pwr := rfl
@[simp] theorem State.onCore_rails : (s.onCore c f).rails = s.rails := rfl
@[simp] theorem State.onCore_thm : (s.onCore c f).thm = s.thm := rfl
@[simp] theorem State.onCore_pins : (s.onCore c f).pins = s.pins := rfl
@[simp] theorem State.onCore_i3c : (s.onCore c f).i3c = s.i3c := rfl
@[simp] theorem State.onCore_scrub : (s.onCore c f).scrub = s.scrub := rfl
@[simp] theorem State.onCore_boot : (s.onCore c f).boot = s.boot := rfl
end

section
variable (s : State) (p : Nat) (f : Pod → Pod)
@[simp] theorem State.onPod_pending : (s.onPod p f).pending = s.pending := rfl
@[simp] theorem State.onPod_now : (s.onPod p f).now = s.now := rfl
@[simp] theorem State.onPod_mem : (s.onPod p f).mem = s.mem := rfl
@[simp] theorem State.onPod_soft : (s.onPod p f).soft = s.soft := rfl
@[simp] theorem State.onPod_badEcc : (s.onPod p f).badEcc = s.badEcc := rfl
@[simp] theorem State.onPod_hubMem : (s.onPod p f).hubMem = s.hubMem := rfl
@[simp] theorem State.onPod_hostMem : (s.onPod p f).hostMem = s.hostMem := rfl
@[simp] theorem State.onPod_regs : (s.onPod p f).regs = s.regs := rfl
@[simp] theorem State.onPod_latch : (s.onPod p f).latch = s.latch := rfl
@[simp] theorem State.onPod_free : (s.onPod p f).free = s.free := rfl
@[simp] theorem State.onPod_cores : (s.onPod p f).cores = s.cores := rfl
@[simp] theorem State.onPod_pods : (s.onPod p f).pods = Tab.set s.pods p (f (s.pod p)) := rfl
@[simp] theorem State.onPod_dieHurdles : (s.onPod p f).dieHurdles = s.dieHurdles := rfl
@[simp] theorem State.onPod_evt : (s.onPod p f).evt = s.evt := rfl
@[simp] theorem State.onPod_heat : (s.onPod p f).heat = s.heat := rfl
@[simp] theorem State.onPod_job : (s.onPod p f).job = s.job := rfl
@[simp] theorem State.onPod_gates : (s.onPod p f).gates = s.gates := rfl
@[simp] theorem State.onPod_hub : (s.onPod p f).hub = s.hub := rfl
@[simp] theorem State.onPod_host : (s.onPod p f).host = s.host := rfl
@[simp] theorem State.onPod_coreMap : (s.onPod p f).coreMap = s.coreMap := rfl
@[simp] theorem State.onPod_worlds : (s.onPod p f).worlds = s.worlds := rfl
@[simp] theorem State.onPod_regions : (s.onPod p f).regions = s.regions := rfl
@[simp] theorem State.onPod_retired : (s.onPod p f).retired = s.retired := rfl
@[simp] theorem State.onPod_pinRate : (s.onPod p f).pinRate = s.pinRate := rfl
@[simp] theorem State.onPod_pool : (s.onPod p f).pool = s.pool := rfl
@[simp] theorem State.onPod_stash : (s.onPod p f).stash = s.stash := rfl
@[simp] theorem State.onPod_sweep : (s.onPod p f).sweep = s.sweep := rfl
@[simp] theorem State.onPod_drills : (s.onPod p f).drills = s.drills := rfl
@[simp] theorem State.onPod_shu : (s.onPod p f).shu = s.shu := rfl
@[simp] theorem State.onPod_cqs : (s.onPod p f).cqs = s.cqs := rfl
@[simp] theorem State.onPod_ticket : (s.onPod p f).ticket = s.ticket := rfl
@[simp] theorem State.onPod_committed : (s.onPod p f).committed = s.committed := rfl
@[simp] theorem State.onPod_ports : (s.onPod p f).ports = s.ports := rfl
@[simp] theorem State.onPod_wire : (s.onPod p f).wire = s.wire := rfl
@[simp] theorem State.onPod_time : (s.onPod p f).time = s.time := rfl
@[simp] theorem State.onPod_relay : (s.onPod p f).relay = s.relay := rfl
@[simp] theorem State.onPod_digest : (s.onPod p f).digest = s.digest := rfl
@[simp] theorem State.onPod_twin : (s.onPod p f).twin = s.twin := rfl
@[simp] theorem State.onPod_pwr : (s.onPod p f).pwr = s.pwr := rfl
@[simp] theorem State.onPod_rails : (s.onPod p f).rails = s.rails := rfl
@[simp] theorem State.onPod_thm : (s.onPod p f).thm = s.thm := rfl
@[simp] theorem State.onPod_pins : (s.onPod p f).pins = s.pins := rfl
@[simp] theorem State.onPod_i3c : (s.onPod p f).i3c = s.i3c := rfl
@[simp] theorem State.onPod_scrub : (s.onPod p f).scrub = s.scrub := rfl
@[simp] theorem State.onPod_boot : (s.onPod p f).boot = s.boot := rfl
end

section
variable (s : State) (f : Heat → Heat)
@[simp] theorem State.onHeat_pending : (s.onHeat f).pending = s.pending := rfl
@[simp] theorem State.onHeat_now : (s.onHeat f).now = s.now := rfl
@[simp] theorem State.onHeat_mem : (s.onHeat f).mem = s.mem := rfl
@[simp] theorem State.onHeat_soft : (s.onHeat f).soft = s.soft := rfl
@[simp] theorem State.onHeat_badEcc : (s.onHeat f).badEcc = s.badEcc := rfl
@[simp] theorem State.onHeat_hubMem : (s.onHeat f).hubMem = s.hubMem := rfl
@[simp] theorem State.onHeat_hostMem : (s.onHeat f).hostMem = s.hostMem := rfl
@[simp] theorem State.onHeat_regs : (s.onHeat f).regs = s.regs := rfl
@[simp] theorem State.onHeat_latch : (s.onHeat f).latch = s.latch := rfl
@[simp] theorem State.onHeat_free : (s.onHeat f).free = s.free := rfl
@[simp] theorem State.onHeat_cores : (s.onHeat f).cores = s.cores := rfl
@[simp] theorem State.onHeat_pods : (s.onHeat f).pods = s.pods := rfl
@[simp] theorem State.onHeat_dieHurdles : (s.onHeat f).dieHurdles = s.dieHurdles := rfl
@[simp] theorem State.onHeat_evt : (s.onHeat f).evt = s.evt := rfl
@[simp] theorem State.onHeat_heat : (s.onHeat f).heat = f s.heat := rfl
@[simp] theorem State.onHeat_job : (s.onHeat f).job = s.job := rfl
@[simp] theorem State.onHeat_gates : (s.onHeat f).gates = s.gates := rfl
@[simp] theorem State.onHeat_hub : (s.onHeat f).hub = s.hub := rfl
@[simp] theorem State.onHeat_host : (s.onHeat f).host = s.host := rfl
@[simp] theorem State.onHeat_coreMap : (s.onHeat f).coreMap = s.coreMap := rfl
@[simp] theorem State.onHeat_worlds : (s.onHeat f).worlds = s.worlds := rfl
@[simp] theorem State.onHeat_regions : (s.onHeat f).regions = s.regions := rfl
@[simp] theorem State.onHeat_retired : (s.onHeat f).retired = s.retired := rfl
@[simp] theorem State.onHeat_pinRate : (s.onHeat f).pinRate = s.pinRate := rfl
@[simp] theorem State.onHeat_pool : (s.onHeat f).pool = s.pool := rfl
@[simp] theorem State.onHeat_stash : (s.onHeat f).stash = s.stash := rfl
@[simp] theorem State.onHeat_sweep : (s.onHeat f).sweep = s.sweep := rfl
@[simp] theorem State.onHeat_drills : (s.onHeat f).drills = s.drills := rfl
@[simp] theorem State.onHeat_shu : (s.onHeat f).shu = s.shu := rfl
@[simp] theorem State.onHeat_cqs : (s.onHeat f).cqs = s.cqs := rfl
@[simp] theorem State.onHeat_ticket : (s.onHeat f).ticket = s.ticket := rfl
@[simp] theorem State.onHeat_committed : (s.onHeat f).committed = s.committed := rfl
@[simp] theorem State.onHeat_ports : (s.onHeat f).ports = s.ports := rfl
@[simp] theorem State.onHeat_wire : (s.onHeat f).wire = s.wire := rfl
@[simp] theorem State.onHeat_time : (s.onHeat f).time = s.time := rfl
@[simp] theorem State.onHeat_relay : (s.onHeat f).relay = s.relay := rfl
@[simp] theorem State.onHeat_digest : (s.onHeat f).digest = s.digest := rfl
@[simp] theorem State.onHeat_twin : (s.onHeat f).twin = s.twin := rfl
@[simp] theorem State.onHeat_pwr : (s.onHeat f).pwr = s.pwr := rfl
@[simp] theorem State.onHeat_rails : (s.onHeat f).rails = s.rails := rfl
@[simp] theorem State.onHeat_thm : (s.onHeat f).thm = s.thm := rfl
@[simp] theorem State.onHeat_pins : (s.onHeat f).pins = s.pins := rfl
@[simp] theorem State.onHeat_i3c : (s.onHeat f).i3c = s.i3c := rfl
@[simp] theorem State.onHeat_scrub : (s.onHeat f).scrub = s.scrub := rfl
@[simp] theorem State.onHeat_boot : (s.onHeat f).boot = s.boot := rfl
end

section
variable (s : State) (f : Twin → Twin)
@[simp] theorem State.onTwin_pending : (s.onTwin f).pending = s.pending := rfl
@[simp] theorem State.onTwin_now : (s.onTwin f).now = s.now := rfl
@[simp] theorem State.onTwin_mem : (s.onTwin f).mem = s.mem := rfl
@[simp] theorem State.onTwin_soft : (s.onTwin f).soft = s.soft := rfl
@[simp] theorem State.onTwin_badEcc : (s.onTwin f).badEcc = s.badEcc := rfl
@[simp] theorem State.onTwin_hubMem : (s.onTwin f).hubMem = s.hubMem := rfl
@[simp] theorem State.onTwin_hostMem : (s.onTwin f).hostMem = s.hostMem := rfl
@[simp] theorem State.onTwin_regs : (s.onTwin f).regs = s.regs := rfl
@[simp] theorem State.onTwin_latch : (s.onTwin f).latch = s.latch := rfl
@[simp] theorem State.onTwin_free : (s.onTwin f).free = s.free := rfl
@[simp] theorem State.onTwin_cores : (s.onTwin f).cores = s.cores := rfl
@[simp] theorem State.onTwin_pods : (s.onTwin f).pods = s.pods := rfl
@[simp] theorem State.onTwin_dieHurdles : (s.onTwin f).dieHurdles = s.dieHurdles := rfl
@[simp] theorem State.onTwin_evt : (s.onTwin f).evt = s.evt := rfl
@[simp] theorem State.onTwin_heat : (s.onTwin f).heat = s.heat := rfl
@[simp] theorem State.onTwin_job : (s.onTwin f).job = s.job := rfl
@[simp] theorem State.onTwin_gates : (s.onTwin f).gates = s.gates := rfl
@[simp] theorem State.onTwin_hub : (s.onTwin f).hub = s.hub := rfl
@[simp] theorem State.onTwin_host : (s.onTwin f).host = s.host := rfl
@[simp] theorem State.onTwin_coreMap : (s.onTwin f).coreMap = s.coreMap := rfl
@[simp] theorem State.onTwin_worlds : (s.onTwin f).worlds = s.worlds := rfl
@[simp] theorem State.onTwin_regions : (s.onTwin f).regions = s.regions := rfl
@[simp] theorem State.onTwin_retired : (s.onTwin f).retired = s.retired := rfl
@[simp] theorem State.onTwin_pinRate : (s.onTwin f).pinRate = s.pinRate := rfl
@[simp] theorem State.onTwin_pool : (s.onTwin f).pool = s.pool := rfl
@[simp] theorem State.onTwin_stash : (s.onTwin f).stash = s.stash := rfl
@[simp] theorem State.onTwin_sweep : (s.onTwin f).sweep = s.sweep := rfl
@[simp] theorem State.onTwin_drills : (s.onTwin f).drills = s.drills := rfl
@[simp] theorem State.onTwin_shu : (s.onTwin f).shu = s.shu := rfl
@[simp] theorem State.onTwin_cqs : (s.onTwin f).cqs = s.cqs := rfl
@[simp] theorem State.onTwin_ticket : (s.onTwin f).ticket = s.ticket := rfl
@[simp] theorem State.onTwin_committed : (s.onTwin f).committed = s.committed := rfl
@[simp] theorem State.onTwin_ports : (s.onTwin f).ports = s.ports := rfl
@[simp] theorem State.onTwin_wire : (s.onTwin f).wire = s.wire := rfl
@[simp] theorem State.onTwin_time : (s.onTwin f).time = s.time := rfl
@[simp] theorem State.onTwin_relay : (s.onTwin f).relay = s.relay := rfl
@[simp] theorem State.onTwin_digest : (s.onTwin f).digest = s.digest := rfl
@[simp] theorem State.onTwin_twin : (s.onTwin f).twin = f s.twin := rfl
@[simp] theorem State.onTwin_pwr : (s.onTwin f).pwr = s.pwr := rfl
@[simp] theorem State.onTwin_rails : (s.onTwin f).rails = s.rails := rfl
@[simp] theorem State.onTwin_thm : (s.onTwin f).thm = s.thm := rfl
@[simp] theorem State.onTwin_pins : (s.onTwin f).pins = s.pins := rfl
@[simp] theorem State.onTwin_i3c : (s.onTwin f).i3c = s.i3c := rfl
@[simp] theorem State.onTwin_scrub : (s.onTwin f).scrub = s.scrub := rfl
@[simp] theorem State.onTwin_boot : (s.onTwin f).boot = s.boot := rfl
end

section
variable (s : State) (f : HostIf → HostIf)
@[simp] theorem State.onHost_pending : (s.onHost f).pending = s.pending := rfl
@[simp] theorem State.onHost_now : (s.onHost f).now = s.now := rfl
@[simp] theorem State.onHost_mem : (s.onHost f).mem = s.mem := rfl
@[simp] theorem State.onHost_soft : (s.onHost f).soft = s.soft := rfl
@[simp] theorem State.onHost_badEcc : (s.onHost f).badEcc = s.badEcc := rfl
@[simp] theorem State.onHost_hubMem : (s.onHost f).hubMem = s.hubMem := rfl
@[simp] theorem State.onHost_hostMem : (s.onHost f).hostMem = s.hostMem := rfl
@[simp] theorem State.onHost_regs : (s.onHost f).regs = s.regs := rfl
@[simp] theorem State.onHost_latch : (s.onHost f).latch = s.latch := rfl
@[simp] theorem State.onHost_free : (s.onHost f).free = s.free := rfl
@[simp] theorem State.onHost_cores : (s.onHost f).cores = s.cores := rfl
@[simp] theorem State.onHost_pods : (s.onHost f).pods = s.pods := rfl
@[simp] theorem State.onHost_dieHurdles : (s.onHost f).dieHurdles = s.dieHurdles := rfl
@[simp] theorem State.onHost_evt : (s.onHost f).evt = s.evt := rfl
@[simp] theorem State.onHost_heat : (s.onHost f).heat = s.heat := rfl
@[simp] theorem State.onHost_job : (s.onHost f).job = s.job := rfl
@[simp] theorem State.onHost_gates : (s.onHost f).gates = s.gates := rfl
@[simp] theorem State.onHost_hub : (s.onHost f).hub = s.hub := rfl
@[simp] theorem State.onHost_host : (s.onHost f).host = f s.host := rfl
@[simp] theorem State.onHost_coreMap : (s.onHost f).coreMap = s.coreMap := rfl
@[simp] theorem State.onHost_worlds : (s.onHost f).worlds = s.worlds := rfl
@[simp] theorem State.onHost_regions : (s.onHost f).regions = s.regions := rfl
@[simp] theorem State.onHost_retired : (s.onHost f).retired = s.retired := rfl
@[simp] theorem State.onHost_pinRate : (s.onHost f).pinRate = s.pinRate := rfl
@[simp] theorem State.onHost_pool : (s.onHost f).pool = s.pool := rfl
@[simp] theorem State.onHost_stash : (s.onHost f).stash = s.stash := rfl
@[simp] theorem State.onHost_sweep : (s.onHost f).sweep = s.sweep := rfl
@[simp] theorem State.onHost_drills : (s.onHost f).drills = s.drills := rfl
@[simp] theorem State.onHost_shu : (s.onHost f).shu = s.shu := rfl
@[simp] theorem State.onHost_cqs : (s.onHost f).cqs = s.cqs := rfl
@[simp] theorem State.onHost_ticket : (s.onHost f).ticket = s.ticket := rfl
@[simp] theorem State.onHost_committed : (s.onHost f).committed = s.committed := rfl
@[simp] theorem State.onHost_ports : (s.onHost f).ports = s.ports := rfl
@[simp] theorem State.onHost_wire : (s.onHost f).wire = s.wire := rfl
@[simp] theorem State.onHost_time : (s.onHost f).time = s.time := rfl
@[simp] theorem State.onHost_relay : (s.onHost f).relay = s.relay := rfl
@[simp] theorem State.onHost_digest : (s.onHost f).digest = s.digest := rfl
@[simp] theorem State.onHost_twin : (s.onHost f).twin = s.twin := rfl
@[simp] theorem State.onHost_pwr : (s.onHost f).pwr = s.pwr := rfl
@[simp] theorem State.onHost_rails : (s.onHost f).rails = s.rails := rfl
@[simp] theorem State.onHost_thm : (s.onHost f).thm = s.thm := rfl
@[simp] theorem State.onHost_pins : (s.onHost f).pins = s.pins := rfl
@[simp] theorem State.onHost_i3c : (s.onHost f).i3c = s.i3c := rfl
@[simp] theorem State.onHost_scrub : (s.onHost f).scrub = s.scrub := rfl
@[simp] theorem State.onHost_boot : (s.onHost f).boot = s.boot := rfl
end

section
variable (s : State) (f : Boot → Boot)
@[simp] theorem State.onBoot_pending : (s.onBoot f).pending = s.pending := rfl
@[simp] theorem State.onBoot_now : (s.onBoot f).now = s.now := rfl
@[simp] theorem State.onBoot_mem : (s.onBoot f).mem = s.mem := rfl
@[simp] theorem State.onBoot_soft : (s.onBoot f).soft = s.soft := rfl
@[simp] theorem State.onBoot_badEcc : (s.onBoot f).badEcc = s.badEcc := rfl
@[simp] theorem State.onBoot_hubMem : (s.onBoot f).hubMem = s.hubMem := rfl
@[simp] theorem State.onBoot_hostMem : (s.onBoot f).hostMem = s.hostMem := rfl
@[simp] theorem State.onBoot_regs : (s.onBoot f).regs = s.regs := rfl
@[simp] theorem State.onBoot_latch : (s.onBoot f).latch = s.latch := rfl
@[simp] theorem State.onBoot_free : (s.onBoot f).free = s.free := rfl
@[simp] theorem State.onBoot_cores : (s.onBoot f).cores = s.cores := rfl
@[simp] theorem State.onBoot_pods : (s.onBoot f).pods = s.pods := rfl
@[simp] theorem State.onBoot_dieHurdles : (s.onBoot f).dieHurdles = s.dieHurdles := rfl
@[simp] theorem State.onBoot_evt : (s.onBoot f).evt = s.evt := rfl
@[simp] theorem State.onBoot_heat : (s.onBoot f).heat = s.heat := rfl
@[simp] theorem State.onBoot_job : (s.onBoot f).job = s.job := rfl
@[simp] theorem State.onBoot_gates : (s.onBoot f).gates = s.gates := rfl
@[simp] theorem State.onBoot_hub : (s.onBoot f).hub = s.hub := rfl
@[simp] theorem State.onBoot_host : (s.onBoot f).host = s.host := rfl
@[simp] theorem State.onBoot_coreMap : (s.onBoot f).coreMap = s.coreMap := rfl
@[simp] theorem State.onBoot_worlds : (s.onBoot f).worlds = s.worlds := rfl
@[simp] theorem State.onBoot_regions : (s.onBoot f).regions = s.regions := rfl
@[simp] theorem State.onBoot_retired : (s.onBoot f).retired = s.retired := rfl
@[simp] theorem State.onBoot_pinRate : (s.onBoot f).pinRate = s.pinRate := rfl
@[simp] theorem State.onBoot_pool : (s.onBoot f).pool = s.pool := rfl
@[simp] theorem State.onBoot_stash : (s.onBoot f).stash = s.stash := rfl
@[simp] theorem State.onBoot_sweep : (s.onBoot f).sweep = s.sweep := rfl
@[simp] theorem State.onBoot_drills : (s.onBoot f).drills = s.drills := rfl
@[simp] theorem State.onBoot_shu : (s.onBoot f).shu = s.shu := rfl
@[simp] theorem State.onBoot_cqs : (s.onBoot f).cqs = s.cqs := rfl
@[simp] theorem State.onBoot_ticket : (s.onBoot f).ticket = s.ticket := rfl
@[simp] theorem State.onBoot_committed : (s.onBoot f).committed = s.committed := rfl
@[simp] theorem State.onBoot_ports : (s.onBoot f).ports = s.ports := rfl
@[simp] theorem State.onBoot_wire : (s.onBoot f).wire = s.wire := rfl
@[simp] theorem State.onBoot_time : (s.onBoot f).time = s.time := rfl
@[simp] theorem State.onBoot_relay : (s.onBoot f).relay = s.relay := rfl
@[simp] theorem State.onBoot_digest : (s.onBoot f).digest = s.digest := rfl
@[simp] theorem State.onBoot_twin : (s.onBoot f).twin = s.twin := rfl
@[simp] theorem State.onBoot_pwr : (s.onBoot f).pwr = s.pwr := rfl
@[simp] theorem State.onBoot_rails : (s.onBoot f).rails = s.rails := rfl
@[simp] theorem State.onBoot_thm : (s.onBoot f).thm = s.thm := rfl
@[simp] theorem State.onBoot_pins : (s.onBoot f).pins = s.pins := rfl
@[simp] theorem State.onBoot_i3c : (s.onBoot f).i3c = s.i3c := rfl
@[simp] theorem State.onBoot_scrub : (s.onBoot f).scrub = s.scrub := rfl
@[simp] theorem State.onBoot_boot : (s.onBoot f).boot = f s.boot := rfl
end

section
variable (s : State) (f : Pwr → Pwr)
@[simp] theorem State.onPwr_pending : (s.onPwr f).pending = s.pending := rfl
@[simp] theorem State.onPwr_now : (s.onPwr f).now = s.now := rfl
@[simp] theorem State.onPwr_mem : (s.onPwr f).mem = s.mem := rfl
@[simp] theorem State.onPwr_soft : (s.onPwr f).soft = s.soft := rfl
@[simp] theorem State.onPwr_badEcc : (s.onPwr f).badEcc = s.badEcc := rfl
@[simp] theorem State.onPwr_hubMem : (s.onPwr f).hubMem = s.hubMem := rfl
@[simp] theorem State.onPwr_hostMem : (s.onPwr f).hostMem = s.hostMem := rfl
@[simp] theorem State.onPwr_regs : (s.onPwr f).regs = s.regs := rfl
@[simp] theorem State.onPwr_latch : (s.onPwr f).latch = s.latch := rfl
@[simp] theorem State.onPwr_free : (s.onPwr f).free = s.free := rfl
@[simp] theorem State.onPwr_cores : (s.onPwr f).cores = s.cores := rfl
@[simp] theorem State.onPwr_pods : (s.onPwr f).pods = s.pods := rfl
@[simp] theorem State.onPwr_dieHurdles : (s.onPwr f).dieHurdles = s.dieHurdles := rfl
@[simp] theorem State.onPwr_evt : (s.onPwr f).evt = s.evt := rfl
@[simp] theorem State.onPwr_heat : (s.onPwr f).heat = s.heat := rfl
@[simp] theorem State.onPwr_job : (s.onPwr f).job = s.job := rfl
@[simp] theorem State.onPwr_gates : (s.onPwr f).gates = s.gates := rfl
@[simp] theorem State.onPwr_hub : (s.onPwr f).hub = s.hub := rfl
@[simp] theorem State.onPwr_host : (s.onPwr f).host = s.host := rfl
@[simp] theorem State.onPwr_coreMap : (s.onPwr f).coreMap = s.coreMap := rfl
@[simp] theorem State.onPwr_worlds : (s.onPwr f).worlds = s.worlds := rfl
@[simp] theorem State.onPwr_regions : (s.onPwr f).regions = s.regions := rfl
@[simp] theorem State.onPwr_retired : (s.onPwr f).retired = s.retired := rfl
@[simp] theorem State.onPwr_pinRate : (s.onPwr f).pinRate = s.pinRate := rfl
@[simp] theorem State.onPwr_pool : (s.onPwr f).pool = s.pool := rfl
@[simp] theorem State.onPwr_stash : (s.onPwr f).stash = s.stash := rfl
@[simp] theorem State.onPwr_sweep : (s.onPwr f).sweep = s.sweep := rfl
@[simp] theorem State.onPwr_drills : (s.onPwr f).drills = s.drills := rfl
@[simp] theorem State.onPwr_shu : (s.onPwr f).shu = s.shu := rfl
@[simp] theorem State.onPwr_cqs : (s.onPwr f).cqs = s.cqs := rfl
@[simp] theorem State.onPwr_ticket : (s.onPwr f).ticket = s.ticket := rfl
@[simp] theorem State.onPwr_committed : (s.onPwr f).committed = s.committed := rfl
@[simp] theorem State.onPwr_ports : (s.onPwr f).ports = s.ports := rfl
@[simp] theorem State.onPwr_wire : (s.onPwr f).wire = s.wire := rfl
@[simp] theorem State.onPwr_time : (s.onPwr f).time = s.time := rfl
@[simp] theorem State.onPwr_relay : (s.onPwr f).relay = s.relay := rfl
@[simp] theorem State.onPwr_digest : (s.onPwr f).digest = s.digest := rfl
@[simp] theorem State.onPwr_twin : (s.onPwr f).twin = s.twin := rfl
@[simp] theorem State.onPwr_pwr : (s.onPwr f).pwr = f s.pwr := rfl
@[simp] theorem State.onPwr_rails : (s.onPwr f).rails = s.rails := rfl
@[simp] theorem State.onPwr_thm : (s.onPwr f).thm = s.thm := rfl
@[simp] theorem State.onPwr_pins : (s.onPwr f).pins = s.pins := rfl
@[simp] theorem State.onPwr_i3c : (s.onPwr f).i3c = s.i3c := rfl
@[simp] theorem State.onPwr_scrub : (s.onPwr f).scrub = s.scrub := rfl
@[simp] theorem State.onPwr_boot : (s.onPwr f).boot = s.boot := rfl
end

section
variable (s : State) (f : Rails → Rails)
@[simp] theorem State.onRails_pending : (s.onRails f).pending = s.pending := rfl
@[simp] theorem State.onRails_now : (s.onRails f).now = s.now := rfl
@[simp] theorem State.onRails_mem : (s.onRails f).mem = s.mem := rfl
@[simp] theorem State.onRails_soft : (s.onRails f).soft = s.soft := rfl
@[simp] theorem State.onRails_badEcc : (s.onRails f).badEcc = s.badEcc := rfl
@[simp] theorem State.onRails_hubMem : (s.onRails f).hubMem = s.hubMem := rfl
@[simp] theorem State.onRails_hostMem : (s.onRails f).hostMem = s.hostMem := rfl
@[simp] theorem State.onRails_regs : (s.onRails f).regs = s.regs := rfl
@[simp] theorem State.onRails_latch : (s.onRails f).latch = s.latch := rfl
@[simp] theorem State.onRails_free : (s.onRails f).free = s.free := rfl
@[simp] theorem State.onRails_cores : (s.onRails f).cores = s.cores := rfl
@[simp] theorem State.onRails_pods : (s.onRails f).pods = s.pods := rfl
@[simp] theorem State.onRails_dieHurdles : (s.onRails f).dieHurdles = s.dieHurdles := rfl
@[simp] theorem State.onRails_evt : (s.onRails f).evt = s.evt := rfl
@[simp] theorem State.onRails_heat : (s.onRails f).heat = s.heat := rfl
@[simp] theorem State.onRails_job : (s.onRails f).job = s.job := rfl
@[simp] theorem State.onRails_gates : (s.onRails f).gates = s.gates := rfl
@[simp] theorem State.onRails_hub : (s.onRails f).hub = s.hub := rfl
@[simp] theorem State.onRails_host : (s.onRails f).host = s.host := rfl
@[simp] theorem State.onRails_coreMap : (s.onRails f).coreMap = s.coreMap := rfl
@[simp] theorem State.onRails_worlds : (s.onRails f).worlds = s.worlds := rfl
@[simp] theorem State.onRails_regions : (s.onRails f).regions = s.regions := rfl
@[simp] theorem State.onRails_retired : (s.onRails f).retired = s.retired := rfl
@[simp] theorem State.onRails_pinRate : (s.onRails f).pinRate = s.pinRate := rfl
@[simp] theorem State.onRails_pool : (s.onRails f).pool = s.pool := rfl
@[simp] theorem State.onRails_stash : (s.onRails f).stash = s.stash := rfl
@[simp] theorem State.onRails_sweep : (s.onRails f).sweep = s.sweep := rfl
@[simp] theorem State.onRails_drills : (s.onRails f).drills = s.drills := rfl
@[simp] theorem State.onRails_shu : (s.onRails f).shu = s.shu := rfl
@[simp] theorem State.onRails_cqs : (s.onRails f).cqs = s.cqs := rfl
@[simp] theorem State.onRails_ticket : (s.onRails f).ticket = s.ticket := rfl
@[simp] theorem State.onRails_committed : (s.onRails f).committed = s.committed := rfl
@[simp] theorem State.onRails_ports : (s.onRails f).ports = s.ports := rfl
@[simp] theorem State.onRails_wire : (s.onRails f).wire = s.wire := rfl
@[simp] theorem State.onRails_time : (s.onRails f).time = s.time := rfl
@[simp] theorem State.onRails_relay : (s.onRails f).relay = s.relay := rfl
@[simp] theorem State.onRails_digest : (s.onRails f).digest = s.digest := rfl
@[simp] theorem State.onRails_twin : (s.onRails f).twin = s.twin := rfl
@[simp] theorem State.onRails_pwr : (s.onRails f).pwr = s.pwr := rfl
@[simp] theorem State.onRails_rails : (s.onRails f).rails = f s.rails := rfl
@[simp] theorem State.onRails_thm : (s.onRails f).thm = s.thm := rfl
@[simp] theorem State.onRails_pins : (s.onRails f).pins = s.pins := rfl
@[simp] theorem State.onRails_i3c : (s.onRails f).i3c = s.i3c := rfl
@[simp] theorem State.onRails_scrub : (s.onRails f).scrub = s.scrub := rfl
@[simp] theorem State.onRails_boot : (s.onRails f).boot = s.boot := rfl
end

section
variable (s : State) (f : Thm → Thm)
@[simp] theorem State.onThm_pending : (s.onThm f).pending = s.pending := rfl
@[simp] theorem State.onThm_now : (s.onThm f).now = s.now := rfl
@[simp] theorem State.onThm_mem : (s.onThm f).mem = s.mem := rfl
@[simp] theorem State.onThm_soft : (s.onThm f).soft = s.soft := rfl
@[simp] theorem State.onThm_badEcc : (s.onThm f).badEcc = s.badEcc := rfl
@[simp] theorem State.onThm_hubMem : (s.onThm f).hubMem = s.hubMem := rfl
@[simp] theorem State.onThm_hostMem : (s.onThm f).hostMem = s.hostMem := rfl
@[simp] theorem State.onThm_regs : (s.onThm f).regs = s.regs := rfl
@[simp] theorem State.onThm_latch : (s.onThm f).latch = s.latch := rfl
@[simp] theorem State.onThm_free : (s.onThm f).free = s.free := rfl
@[simp] theorem State.onThm_cores : (s.onThm f).cores = s.cores := rfl
@[simp] theorem State.onThm_pods : (s.onThm f).pods = s.pods := rfl
@[simp] theorem State.onThm_dieHurdles : (s.onThm f).dieHurdles = s.dieHurdles := rfl
@[simp] theorem State.onThm_evt : (s.onThm f).evt = s.evt := rfl
@[simp] theorem State.onThm_heat : (s.onThm f).heat = s.heat := rfl
@[simp] theorem State.onThm_job : (s.onThm f).job = s.job := rfl
@[simp] theorem State.onThm_gates : (s.onThm f).gates = s.gates := rfl
@[simp] theorem State.onThm_hub : (s.onThm f).hub = s.hub := rfl
@[simp] theorem State.onThm_host : (s.onThm f).host = s.host := rfl
@[simp] theorem State.onThm_coreMap : (s.onThm f).coreMap = s.coreMap := rfl
@[simp] theorem State.onThm_worlds : (s.onThm f).worlds = s.worlds := rfl
@[simp] theorem State.onThm_regions : (s.onThm f).regions = s.regions := rfl
@[simp] theorem State.onThm_retired : (s.onThm f).retired = s.retired := rfl
@[simp] theorem State.onThm_pinRate : (s.onThm f).pinRate = s.pinRate := rfl
@[simp] theorem State.onThm_pool : (s.onThm f).pool = s.pool := rfl
@[simp] theorem State.onThm_stash : (s.onThm f).stash = s.stash := rfl
@[simp] theorem State.onThm_sweep : (s.onThm f).sweep = s.sweep := rfl
@[simp] theorem State.onThm_drills : (s.onThm f).drills = s.drills := rfl
@[simp] theorem State.onThm_shu : (s.onThm f).shu = s.shu := rfl
@[simp] theorem State.onThm_cqs : (s.onThm f).cqs = s.cqs := rfl
@[simp] theorem State.onThm_ticket : (s.onThm f).ticket = s.ticket := rfl
@[simp] theorem State.onThm_committed : (s.onThm f).committed = s.committed := rfl
@[simp] theorem State.onThm_ports : (s.onThm f).ports = s.ports := rfl
@[simp] theorem State.onThm_wire : (s.onThm f).wire = s.wire := rfl
@[simp] theorem State.onThm_time : (s.onThm f).time = s.time := rfl
@[simp] theorem State.onThm_relay : (s.onThm f).relay = s.relay := rfl
@[simp] theorem State.onThm_digest : (s.onThm f).digest = s.digest := rfl
@[simp] theorem State.onThm_twin : (s.onThm f).twin = s.twin := rfl
@[simp] theorem State.onThm_pwr : (s.onThm f).pwr = s.pwr := rfl
@[simp] theorem State.onThm_rails : (s.onThm f).rails = s.rails := rfl
@[simp] theorem State.onThm_thm : (s.onThm f).thm = f s.thm := rfl
@[simp] theorem State.onThm_pins : (s.onThm f).pins = s.pins := rfl
@[simp] theorem State.onThm_i3c : (s.onThm f).i3c = s.i3c := rfl
@[simp] theorem State.onThm_scrub : (s.onThm f).scrub = s.scrub := rfl
@[simp] theorem State.onThm_boot : (s.onThm f).boot = s.boot := rfl
end

section
variable (s : State) (f : I3c → I3c)
@[simp] theorem State.onI3c_pending : (s.onI3c f).pending = s.pending := rfl
@[simp] theorem State.onI3c_now : (s.onI3c f).now = s.now := rfl
@[simp] theorem State.onI3c_mem : (s.onI3c f).mem = s.mem := rfl
@[simp] theorem State.onI3c_soft : (s.onI3c f).soft = s.soft := rfl
@[simp] theorem State.onI3c_badEcc : (s.onI3c f).badEcc = s.badEcc := rfl
@[simp] theorem State.onI3c_hubMem : (s.onI3c f).hubMem = s.hubMem := rfl
@[simp] theorem State.onI3c_hostMem : (s.onI3c f).hostMem = s.hostMem := rfl
@[simp] theorem State.onI3c_regs : (s.onI3c f).regs = s.regs := rfl
@[simp] theorem State.onI3c_latch : (s.onI3c f).latch = s.latch := rfl
@[simp] theorem State.onI3c_free : (s.onI3c f).free = s.free := rfl
@[simp] theorem State.onI3c_cores : (s.onI3c f).cores = s.cores := rfl
@[simp] theorem State.onI3c_pods : (s.onI3c f).pods = s.pods := rfl
@[simp] theorem State.onI3c_dieHurdles : (s.onI3c f).dieHurdles = s.dieHurdles := rfl
@[simp] theorem State.onI3c_evt : (s.onI3c f).evt = s.evt := rfl
@[simp] theorem State.onI3c_heat : (s.onI3c f).heat = s.heat := rfl
@[simp] theorem State.onI3c_job : (s.onI3c f).job = s.job := rfl
@[simp] theorem State.onI3c_gates : (s.onI3c f).gates = s.gates := rfl
@[simp] theorem State.onI3c_hub : (s.onI3c f).hub = s.hub := rfl
@[simp] theorem State.onI3c_host : (s.onI3c f).host = s.host := rfl
@[simp] theorem State.onI3c_coreMap : (s.onI3c f).coreMap = s.coreMap := rfl
@[simp] theorem State.onI3c_worlds : (s.onI3c f).worlds = s.worlds := rfl
@[simp] theorem State.onI3c_regions : (s.onI3c f).regions = s.regions := rfl
@[simp] theorem State.onI3c_retired : (s.onI3c f).retired = s.retired := rfl
@[simp] theorem State.onI3c_pinRate : (s.onI3c f).pinRate = s.pinRate := rfl
@[simp] theorem State.onI3c_pool : (s.onI3c f).pool = s.pool := rfl
@[simp] theorem State.onI3c_stash : (s.onI3c f).stash = s.stash := rfl
@[simp] theorem State.onI3c_sweep : (s.onI3c f).sweep = s.sweep := rfl
@[simp] theorem State.onI3c_drills : (s.onI3c f).drills = s.drills := rfl
@[simp] theorem State.onI3c_shu : (s.onI3c f).shu = s.shu := rfl
@[simp] theorem State.onI3c_cqs : (s.onI3c f).cqs = s.cqs := rfl
@[simp] theorem State.onI3c_ticket : (s.onI3c f).ticket = s.ticket := rfl
@[simp] theorem State.onI3c_committed : (s.onI3c f).committed = s.committed := rfl
@[simp] theorem State.onI3c_ports : (s.onI3c f).ports = s.ports := rfl
@[simp] theorem State.onI3c_wire : (s.onI3c f).wire = s.wire := rfl
@[simp] theorem State.onI3c_time : (s.onI3c f).time = s.time := rfl
@[simp] theorem State.onI3c_relay : (s.onI3c f).relay = s.relay := rfl
@[simp] theorem State.onI3c_digest : (s.onI3c f).digest = s.digest := rfl
@[simp] theorem State.onI3c_twin : (s.onI3c f).twin = s.twin := rfl
@[simp] theorem State.onI3c_pwr : (s.onI3c f).pwr = s.pwr := rfl
@[simp] theorem State.onI3c_rails : (s.onI3c f).rails = s.rails := rfl
@[simp] theorem State.onI3c_thm : (s.onI3c f).thm = s.thm := rfl
@[simp] theorem State.onI3c_pins : (s.onI3c f).pins = s.pins := rfl
@[simp] theorem State.onI3c_i3c : (s.onI3c f).i3c = f s.i3c := rfl
@[simp] theorem State.onI3c_scrub : (s.onI3c f).scrub = s.scrub := rfl
@[simp] theorem State.onI3c_boot : (s.onI3c f).boot = s.boot := rfl
end

section
variable (s : State) (p : Nat) (f : Port → Port)
@[simp] theorem State.onPort_pending : (s.onPort p f).pending = s.pending := rfl
@[simp] theorem State.onPort_now : (s.onPort p f).now = s.now := rfl
@[simp] theorem State.onPort_mem : (s.onPort p f).mem = s.mem := rfl
@[simp] theorem State.onPort_soft : (s.onPort p f).soft = s.soft := rfl
@[simp] theorem State.onPort_badEcc : (s.onPort p f).badEcc = s.badEcc := rfl
@[simp] theorem State.onPort_hubMem : (s.onPort p f).hubMem = s.hubMem := rfl
@[simp] theorem State.onPort_hostMem : (s.onPort p f).hostMem = s.hostMem := rfl
@[simp] theorem State.onPort_regs : (s.onPort p f).regs = s.regs := rfl
@[simp] theorem State.onPort_latch : (s.onPort p f).latch = s.latch := rfl
@[simp] theorem State.onPort_free : (s.onPort p f).free = s.free := rfl
@[simp] theorem State.onPort_cores : (s.onPort p f).cores = s.cores := rfl
@[simp] theorem State.onPort_pods : (s.onPort p f).pods = s.pods := rfl
@[simp] theorem State.onPort_dieHurdles : (s.onPort p f).dieHurdles = s.dieHurdles := rfl
@[simp] theorem State.onPort_evt : (s.onPort p f).evt = s.evt := rfl
@[simp] theorem State.onPort_heat : (s.onPort p f).heat = s.heat := rfl
@[simp] theorem State.onPort_job : (s.onPort p f).job = s.job := rfl
@[simp] theorem State.onPort_gates : (s.onPort p f).gates = s.gates := rfl
@[simp] theorem State.onPort_hub : (s.onPort p f).hub = s.hub := rfl
@[simp] theorem State.onPort_host : (s.onPort p f).host = s.host := rfl
@[simp] theorem State.onPort_coreMap : (s.onPort p f).coreMap = s.coreMap := rfl
@[simp] theorem State.onPort_worlds : (s.onPort p f).worlds = s.worlds := rfl
@[simp] theorem State.onPort_regions : (s.onPort p f).regions = s.regions := rfl
@[simp] theorem State.onPort_retired : (s.onPort p f).retired = s.retired := rfl
@[simp] theorem State.onPort_pinRate : (s.onPort p f).pinRate = s.pinRate := rfl
@[simp] theorem State.onPort_pool : (s.onPort p f).pool = s.pool := rfl
@[simp] theorem State.onPort_stash : (s.onPort p f).stash = s.stash := rfl
@[simp] theorem State.onPort_sweep : (s.onPort p f).sweep = s.sweep := rfl
@[simp] theorem State.onPort_drills : (s.onPort p f).drills = s.drills := rfl
@[simp] theorem State.onPort_shu : (s.onPort p f).shu = s.shu := rfl
@[simp] theorem State.onPort_cqs : (s.onPort p f).cqs = s.cqs := rfl
@[simp] theorem State.onPort_ticket : (s.onPort p f).ticket = s.ticket := rfl
@[simp] theorem State.onPort_committed : (s.onPort p f).committed = s.committed := rfl
@[simp] theorem State.onPort_ports : (s.onPort p f).ports = Tab.set s.ports p (f (s.port p)) := rfl
@[simp] theorem State.onPort_wire : (s.onPort p f).wire = s.wire := rfl
@[simp] theorem State.onPort_time : (s.onPort p f).time = s.time := rfl
@[simp] theorem State.onPort_relay : (s.onPort p f).relay = s.relay := rfl
@[simp] theorem State.onPort_digest : (s.onPort p f).digest = s.digest := rfl
@[simp] theorem State.onPort_twin : (s.onPort p f).twin = s.twin := rfl
@[simp] theorem State.onPort_pwr : (s.onPort p f).pwr = s.pwr := rfl
@[simp] theorem State.onPort_rails : (s.onPort p f).rails = s.rails := rfl
@[simp] theorem State.onPort_thm : (s.onPort p f).thm = s.thm := rfl
@[simp] theorem State.onPort_pins : (s.onPort p f).pins = s.pins := rfl
@[simp] theorem State.onPort_i3c : (s.onPort p f).i3c = s.i3c := rfl
@[simp] theorem State.onPort_scrub : (s.onPort p f).scrub = s.scrub := rfl
@[simp] theorem State.onPort_boot : (s.onPort p f).boot = s.boot := rfl
end

section
variable (s : State) (x : ShuSrc) (f : ShSrc → ShSrc)
@[simp] theorem State.onSrc_pending : (s.onSrc x f).pending = s.pending := rfl
@[simp] theorem State.onSrc_now : (s.onSrc x f).now = s.now := rfl
@[simp] theorem State.onSrc_mem : (s.onSrc x f).mem = s.mem := rfl
@[simp] theorem State.onSrc_soft : (s.onSrc x f).soft = s.soft := rfl
@[simp] theorem State.onSrc_badEcc : (s.onSrc x f).badEcc = s.badEcc := rfl
@[simp] theorem State.onSrc_hubMem : (s.onSrc x f).hubMem = s.hubMem := rfl
@[simp] theorem State.onSrc_hostMem : (s.onSrc x f).hostMem = s.hostMem := rfl
@[simp] theorem State.onSrc_regs : (s.onSrc x f).regs = s.regs := rfl
@[simp] theorem State.onSrc_latch : (s.onSrc x f).latch = s.latch := rfl
@[simp] theorem State.onSrc_free : (s.onSrc x f).free = s.free := rfl
@[simp] theorem State.onSrc_cores : (s.onSrc x f).cores = s.cores := rfl
@[simp] theorem State.onSrc_pods : (s.onSrc x f).pods = s.pods := rfl
@[simp] theorem State.onSrc_dieHurdles : (s.onSrc x f).dieHurdles = s.dieHurdles := rfl
@[simp] theorem State.onSrc_evt : (s.onSrc x f).evt = s.evt := rfl
@[simp] theorem State.onSrc_heat : (s.onSrc x f).heat = s.heat := rfl
@[simp] theorem State.onSrc_job : (s.onSrc x f).job = s.job := rfl
@[simp] theorem State.onSrc_gates : (s.onSrc x f).gates = s.gates := rfl
@[simp] theorem State.onSrc_hub : (s.onSrc x f).hub = s.hub := rfl
@[simp] theorem State.onSrc_host : (s.onSrc x f).host = s.host := rfl
@[simp] theorem State.onSrc_coreMap : (s.onSrc x f).coreMap = s.coreMap := rfl
@[simp] theorem State.onSrc_worlds : (s.onSrc x f).worlds = s.worlds := rfl
@[simp] theorem State.onSrc_regions : (s.onSrc x f).regions = s.regions := rfl
@[simp] theorem State.onSrc_retired : (s.onSrc x f).retired = s.retired := rfl
@[simp] theorem State.onSrc_pinRate : (s.onSrc x f).pinRate = s.pinRate := rfl
@[simp] theorem State.onSrc_pool : (s.onSrc x f).pool = s.pool := rfl
@[simp] theorem State.onSrc_stash : (s.onSrc x f).stash = s.stash := rfl
@[simp] theorem State.onSrc_sweep : (s.onSrc x f).sweep = s.sweep := rfl
@[simp] theorem State.onSrc_drills : (s.onSrc x f).drills = s.drills := rfl
@[simp] theorem State.onSrc_cqs : (s.onSrc x f).cqs = s.cqs := rfl
@[simp] theorem State.onSrc_ticket : (s.onSrc x f).ticket = s.ticket := rfl
@[simp] theorem State.onSrc_committed : (s.onSrc x f).committed = s.committed := rfl
@[simp] theorem State.onSrc_ports : (s.onSrc x f).ports = s.ports := rfl
@[simp] theorem State.onSrc_wire : (s.onSrc x f).wire = s.wire := rfl
@[simp] theorem State.onSrc_time : (s.onSrc x f).time = s.time := rfl
@[simp] theorem State.onSrc_relay : (s.onSrc x f).relay = s.relay := rfl
@[simp] theorem State.onSrc_digest : (s.onSrc x f).digest = s.digest := rfl
@[simp] theorem State.onSrc_twin : (s.onSrc x f).twin = s.twin := rfl
@[simp] theorem State.onSrc_pwr : (s.onSrc x f).pwr = s.pwr := rfl
@[simp] theorem State.onSrc_rails : (s.onSrc x f).rails = s.rails := rfl
@[simp] theorem State.onSrc_thm : (s.onSrc x f).thm = s.thm := rfl
@[simp] theorem State.onSrc_pins : (s.onSrc x f).pins = s.pins := rfl
@[simp] theorem State.onSrc_i3c : (s.onSrc x f).i3c = s.i3c := rfl
@[simp] theorem State.onSrc_scrub : (s.onSrc x f).scrub = s.scrub := rfl
@[simp] theorem State.onSrc_boot : (s.onSrc x f).boot = s.boot := rfl
end

section
variable (s : State) (q : CqId) (l : List RecSlot)
@[simp] theorem State.setRecs_pending : (s.setRecs q l).pending = s.pending := rfl
@[simp] theorem State.setRecs_now : (s.setRecs q l).now = s.now := rfl
@[simp] theorem State.setRecs_mem : (s.setRecs q l).mem = s.mem := rfl
@[simp] theorem State.setRecs_soft : (s.setRecs q l).soft = s.soft := rfl
@[simp] theorem State.setRecs_badEcc : (s.setRecs q l).badEcc = s.badEcc := rfl
@[simp] theorem State.setRecs_hubMem : (s.setRecs q l).hubMem = s.hubMem := rfl
@[simp] theorem State.setRecs_hostMem : (s.setRecs q l).hostMem = s.hostMem := rfl
@[simp] theorem State.setRecs_regs : (s.setRecs q l).regs = s.regs := rfl
@[simp] theorem State.setRecs_latch : (s.setRecs q l).latch = s.latch := rfl
@[simp] theorem State.setRecs_free : (s.setRecs q l).free = s.free := rfl
@[simp] theorem State.setRecs_cores : (s.setRecs q l).cores = s.cores := rfl
@[simp] theorem State.setRecs_pods : (s.setRecs q l).pods = s.pods := rfl
@[simp] theorem State.setRecs_dieHurdles : (s.setRecs q l).dieHurdles = s.dieHurdles := rfl
@[simp] theorem State.setRecs_evt : (s.setRecs q l).evt = s.evt := rfl
@[simp] theorem State.setRecs_heat : (s.setRecs q l).heat = s.heat := rfl
@[simp] theorem State.setRecs_job : (s.setRecs q l).job = s.job := rfl
@[simp] theorem State.setRecs_gates : (s.setRecs q l).gates = s.gates := rfl
@[simp] theorem State.setRecs_hub : (s.setRecs q l).hub = s.hub := rfl
@[simp] theorem State.setRecs_host : (s.setRecs q l).host = s.host := rfl
@[simp] theorem State.setRecs_coreMap : (s.setRecs q l).coreMap = s.coreMap := rfl
@[simp] theorem State.setRecs_worlds : (s.setRecs q l).worlds = s.worlds := rfl
@[simp] theorem State.setRecs_regions : (s.setRecs q l).regions = s.regions := rfl
@[simp] theorem State.setRecs_retired : (s.setRecs q l).retired = s.retired := rfl
@[simp] theorem State.setRecs_pinRate : (s.setRecs q l).pinRate = s.pinRate := rfl
@[simp] theorem State.setRecs_pool : (s.setRecs q l).pool = s.pool := rfl
@[simp] theorem State.setRecs_stash : (s.setRecs q l).stash = s.stash := rfl
@[simp] theorem State.setRecs_sweep : (s.setRecs q l).sweep = s.sweep := rfl
@[simp] theorem State.setRecs_drills : (s.setRecs q l).drills = s.drills := rfl
@[simp] theorem State.setRecs_shu : (s.setRecs q l).shu = s.shu := rfl
@[simp] theorem State.setRecs_ticket : (s.setRecs q l).ticket = s.ticket := rfl
@[simp] theorem State.setRecs_committed : (s.setRecs q l).committed = s.committed := rfl
@[simp] theorem State.setRecs_ports : (s.setRecs q l).ports = s.ports := rfl
@[simp] theorem State.setRecs_wire : (s.setRecs q l).wire = s.wire := rfl
@[simp] theorem State.setRecs_time : (s.setRecs q l).time = s.time := rfl
@[simp] theorem State.setRecs_relay : (s.setRecs q l).relay = s.relay := rfl
@[simp] theorem State.setRecs_digest : (s.setRecs q l).digest = s.digest := rfl
@[simp] theorem State.setRecs_twin : (s.setRecs q l).twin = s.twin := rfl
@[simp] theorem State.setRecs_pwr : (s.setRecs q l).pwr = s.pwr := rfl
@[simp] theorem State.setRecs_rails : (s.setRecs q l).rails = s.rails := rfl
@[simp] theorem State.setRecs_thm : (s.setRecs q l).thm = s.thm := rfl
@[simp] theorem State.setRecs_pins : (s.setRecs q l).pins = s.pins := rfl
@[simp] theorem State.setRecs_i3c : (s.setRecs q l).i3c = s.i3c := rfl
@[simp] theorem State.setRecs_scrub : (s.setRecs q l).scrub = s.scrub := rfl
@[simp] theorem State.setRecs_boot : (s.setRecs q l).boot = s.boot := rfl
end

section
variable (s : State) (u : Nat) (f : SwpUnit → SwpUnit)
@[simp] theorem State.onUnit_pending : (s.onUnit u f).pending = s.pending := rfl
@[simp] theorem State.onUnit_now : (s.onUnit u f).now = s.now := rfl
@[simp] theorem State.onUnit_mem : (s.onUnit u f).mem = s.mem := rfl
@[simp] theorem State.onUnit_soft : (s.onUnit u f).soft = s.soft := rfl
@[simp] theorem State.onUnit_badEcc : (s.onUnit u f).badEcc = s.badEcc := rfl
@[simp] theorem State.onUnit_hubMem : (s.onUnit u f).hubMem = s.hubMem := rfl
@[simp] theorem State.onUnit_hostMem : (s.onUnit u f).hostMem = s.hostMem := rfl
@[simp] theorem State.onUnit_regs : (s.onUnit u f).regs = s.regs := rfl
@[simp] theorem State.onUnit_latch : (s.onUnit u f).latch = s.latch := rfl
@[simp] theorem State.onUnit_free : (s.onUnit u f).free = s.free := rfl
@[simp] theorem State.onUnit_cores : (s.onUnit u f).cores = s.cores := rfl
@[simp] theorem State.onUnit_pods : (s.onUnit u f).pods = s.pods := rfl
@[simp] theorem State.onUnit_dieHurdles : (s.onUnit u f).dieHurdles = s.dieHurdles := rfl
@[simp] theorem State.onUnit_evt : (s.onUnit u f).evt = s.evt := rfl
@[simp] theorem State.onUnit_heat : (s.onUnit u f).heat = s.heat := rfl
@[simp] theorem State.onUnit_job : (s.onUnit u f).job = s.job := rfl
@[simp] theorem State.onUnit_gates : (s.onUnit u f).gates = s.gates := rfl
@[simp] theorem State.onUnit_hub : (s.onUnit u f).hub = s.hub := rfl
@[simp] theorem State.onUnit_host : (s.onUnit u f).host = s.host := rfl
@[simp] theorem State.onUnit_coreMap : (s.onUnit u f).coreMap = s.coreMap := rfl
@[simp] theorem State.onUnit_worlds : (s.onUnit u f).worlds = s.worlds := rfl
@[simp] theorem State.onUnit_regions : (s.onUnit u f).regions = s.regions := rfl
@[simp] theorem State.onUnit_retired : (s.onUnit u f).retired = s.retired := rfl
@[simp] theorem State.onUnit_pinRate : (s.onUnit u f).pinRate = s.pinRate := rfl
@[simp] theorem State.onUnit_pool : (s.onUnit u f).pool = s.pool := rfl
@[simp] theorem State.onUnit_stash : (s.onUnit u f).stash = s.stash := rfl
@[simp] theorem State.onUnit_drills : (s.onUnit u f).drills = s.drills := rfl
@[simp] theorem State.onUnit_shu : (s.onUnit u f).shu = s.shu := rfl
@[simp] theorem State.onUnit_cqs : (s.onUnit u f).cqs = s.cqs := rfl
@[simp] theorem State.onUnit_ticket : (s.onUnit u f).ticket = s.ticket := rfl
@[simp] theorem State.onUnit_committed : (s.onUnit u f).committed = s.committed := rfl
@[simp] theorem State.onUnit_ports : (s.onUnit u f).ports = s.ports := rfl
@[simp] theorem State.onUnit_wire : (s.onUnit u f).wire = s.wire := rfl
@[simp] theorem State.onUnit_time : (s.onUnit u f).time = s.time := rfl
@[simp] theorem State.onUnit_relay : (s.onUnit u f).relay = s.relay := rfl
@[simp] theorem State.onUnit_digest : (s.onUnit u f).digest = s.digest := rfl
@[simp] theorem State.onUnit_twin : (s.onUnit u f).twin = s.twin := rfl
@[simp] theorem State.onUnit_pwr : (s.onUnit u f).pwr = s.pwr := rfl
@[simp] theorem State.onUnit_rails : (s.onUnit u f).rails = s.rails := rfl
@[simp] theorem State.onUnit_thm : (s.onUnit u f).thm = s.thm := rfl
@[simp] theorem State.onUnit_pins : (s.onUnit u f).pins = s.pins := rfl
@[simp] theorem State.onUnit_i3c : (s.onUnit u f).i3c = s.i3c := rfl
@[simp] theorem State.onUnit_scrub : (s.onUnit u f).scrub = s.scrub := rfl
@[simp] theorem State.onUnit_boot : (s.onUnit u f).boot = s.boot := rfl
end

end Sys2Proof.Machine
end

