-- ==== Sys2Proof/Laws/Ops.lean ====
section
/-!
SUPPORT. What the shared operations do: registers, cores and pods read after a write; a guarded command's outcome; what an
event changes.
-/
namespace Sys2Proof.Machine

/-- A guarded command completes exactly when its operands name units that exist. -/
@[simp] theorem guarded_next_iff (b : Bool) (s t : State) : guarded b s = .next t ↔ b = true ∧ t = s := by
  cases b <;> simp [guarded, eq_comm]

@[simp] theorem guarded_fault_iff (b : Bool) (s : State) (f : Fault) : guarded b s = .fault f ↔ b = false ∧ f = .noSuchUnit := by
  cases b <;> simp [guarded, eq_comm]

@[simp] theorem guarded_refused (b : Bool) (s : State) (r : Refusal) : guarded b s ≠ .refused r := by
  cases b <;> simp [guarded]

/-! Registers. -/

@[simp] theorem State.reg_setReg_same (s : State) (a : Nat) (w : Word) : (s.setReg a w).reg a = w := Tab.get_set_same ..

theorem State.reg_setReg_ne (s : State) {a b : Nat} (w : Word) (h : a ≠ b) : (s.setReg a w).reg b = s.reg b := Tab.get_set_ne _ _ _ h

theorem State.reg_congr {s t : State} (h : t.regs = s.regs) (a : Nat) : t.reg a = s.reg a := by
  unfold State.reg; rw [h]

@[simp] theorem State.regN_setRegN_same (s : State) (a n : Nat) : (s.setRegN a n).regN a = n % 2 ^ 32 := by
  simp [State.regN, State.setRegN]

theorem State.reg_setRegN_ne (s : State) {a b : Nat} (n : Nat) (h : a ≠ b) : (s.setRegN a n).reg b = s.reg b := State.reg_setReg_ne _ _ h

theorem State.regN_setRegN_ne (s : State) {a b : Nat} (n : Nat) (h : a ≠ b) : (s.setRegN a n).regN b = s.regN b := by
  unfold State.regN; rw [State.reg_setRegN_ne s n h]

@[simp] theorem State.reg_count_same (s : State) (a n : Nat) : (s.count a n).reg a = s.reg a + BitVec.ofNat 32 n := State.reg_setReg_same ..

theorem State.reg_count_ne (s : State) {a b : Nat} (n : Nat) (h : a ≠ b) : (s.count a n).reg b = s.reg b := State.reg_setReg_ne _ _ h

@[simp] theorem State.reg64_setReg64_same (s : State) (a n : Nat) (h : n < 2 ^ 64) : (s.setReg64 a n).reg64 a = n := by
  unfold State.reg64 State.setReg64
  rw [State.regN_setRegN_ne _ _ (by omega), State.regN_setRegN_same, State.regN_setRegN_same, Nat.shiftRight_eq_div_pow]
  omega

theorem State.reg_setReg64_ne (s : State) {a b : Nat} (n : Nat) (h : a ≠ b) (k : a + 4 ≠ b) : (s.setReg64 a n).reg b = s.reg b := by
  unfold State.setReg64
  rw [State.reg_setRegN_ne _ _ k, State.reg_setRegN_ne _ _ h]

/-- R108: a 64-bit counter counts, wrapping. -/
@[simp] theorem State.reg64_count64_same (s : State) (a n : Nat) : (s.count64 a n).reg64 a = (s.reg64 a + n) % 2 ^ 64 :=
  State.reg64_setReg64_same _ _ _ (Nat.mod_lt _ (by decide))

/-! Cores and pods. -/

@[simp] theorem State.core_setCore_same (s : State) (c : Nat) (k : Core) : (s.setCore c k).core c = k := Tab.get_set_same ..

theorem State.core_setCore_ne (s : State) {c j : Nat} (k : Core) (h : c ≠ j) : (s.setCore c k).core j = s.core j := Tab.get_set_ne _ _ _ h

@[simp] theorem State.core_onCore_same (s : State) (c : Nat) (f : Core → Core) : (s.onCore c f).core c = f (s.core c) := State.core_setCore_same ..

theorem State.core_onCore_ne (s : State) {c j : Nat} (f : Core → Core) (h : c ≠ j) : (s.onCore c f).core j = s.core j :=
  State.core_setCore_ne _ _ h

@[simp] theorem State.core_setReg (s : State) (a : Nat) (w : Word) (c : Nat) : (s.setReg a w).core c = s.core c := rfl

@[simp] theorem State.reg_setCore (s : State) (c : Nat) (k : Core) (a : Nat) : (s.setCore c k).reg a = s.reg a := rfl

@[simp] theorem State.reg_onCore (s : State) (c : Nat) (f : Core → Core) (a : Nat) : (s.onCore c f).reg a = s.reg a := rfl

@[simp] theorem State.pod_onPod_same (s : State) (p : Nat) (f : Pod → Pod) : (s.onPod p f).pod p = f (s.pod p) := Tab.get_set_same ..

theorem State.pod_onPod_ne (s : State) {p q : Nat} (f : Pod → Pod) (h : p ≠ q) : (s.onPod p f).pod q = s.pod q := Tab.get_set_ne _ _ _ h

/-! Device memory. -/

@[simp] theorem State.bytes_store (s : State) (a : Nat) (bs : List Byte) : (s.store a bs).bytes a bs.length = bs := Memory.readN_writeN ..

theorem State.bytes_store_out (s : State) {a x n : Nat} {bs : List Byte} (h : x + n ≤ a ∨ a + bs.length ≤ x) :
    (s.store a bs).bytes x n = s.bytes x n := Memory.readN_writeN_out _ _ _ _ _ h

theorem State.read_store_out (s : State) {a x : Nat} {bs : List Byte} (h : x < a ∨ a + bs.length ≤ x) :
    (s.store a bs).mem.read x = s.mem.read x := Memory.read_writeN_out _ _ _ _ h

/-! Events. -/

/-- `t` is `s` but for the event rings and counts, the messages to the host, and registers below the device's own. -/
def State.Evented (s t : State) : Prop :=
  t = { s with evt := t.evt, hubMem := t.hubMem, host := t.host, regs := t.regs } ∧ ∀ a, 0x10B000 ≤ a → t.reg a = s.reg a

theorem State.Evented.refl (s : State) : s.Evented s := ⟨rfl, fun _ _ => rfl⟩

theorem State.Evented.trans {s t u : State} (h : s.Evented t) (g : t.Evented u) : s.Evented u :=
  ⟨by rw [g.1, h.1], fun a k => (g.2 a k).trans (h.2 a k)⟩

theorem State.Evented.mem {s t : State} (h : s.Evented t) : t.mem = s.mem := by rw [h.1]
theorem State.Evented.cores {s t : State} (h : s.Evented t) : t.cores = s.cores := by rw [h.1]
theorem State.Evented.heat {s t : State} (h : s.Evented t) : t.heat = s.heat := by rw [h.1]
theorem State.Evented.now {s t : State} (h : s.Evented t) : t.now = s.now := by rw [h.1]
theorem State.Evented.pending {s t : State} (h : s.Evented t) : t.pending = s.pending := by rw [h.1]
theorem State.Evented.pwr {s t : State} (h : s.Evented t) : t.pwr = s.pwr := by rw [h.1]
theorem State.Evented.job {s t : State} (h : s.Evented t) : t.job = s.job := by rw [h.1]

theorem State.evented_host (s : State) (h : HostIf) : s.Evented { s with host := h } := ⟨rfl, fun _ _ => rfl⟩

theorem State.evented_evt (s : State) (e : Evt) : s.Evented { s with evt := e } := ⟨rfl, fun _ _ => rfl⟩

theorem State.evented_setReg (s : State) (a : Nat) (w : Word) (h : a < 0x10B000) : s.Evented (s.setReg a w) :=
  ⟨rfl, fun b k => State.reg_setReg_ne _ _ (by omega)⟩

theorem State.evented_signal (s : State) (v : Nat) : s.Evented (s.signal v) := by
  unfold State.signal State.sendVec
  split
  · exact State.evented_host ..
  split
  · exact State.evented_host ..
  split <;> exact State.evented_host ..

theorem ringPage_lt (w : World) : ringPage w + 0x48 < 0x10B000 := by cases w <;> decide

theorem State.evented_ringDrop (s : State) (w : World) : s.Evented (s.ringDrop w) := by
  unfold State.ringDrop
  have h : s.Evented (s.count (ringPage w + 0x48) 1) := State.evented_setReg _ _ _ (ringPage_lt w)
  cases w
  · exact h.trans (State.evented_evt ..)
  · exact h.trans (State.evented_evt ..)

theorem State.evented_ringWrite (s : State) (w : World) (e : Event) : s.Evented (s.ringWrite w e) := by
  unfold State.ringWrite
  refine State.Evented.trans ?_ (State.evented_signal ..)
  refine State.Evented.trans ?_ (State.evented_setReg _ _ _ (Nat.lt_of_le_of_lt (by omega) (ringPage_lt w)))
  exact ⟨rfl, fun _ _ => rfl⟩

theorem State.evented_ringPut (s : State) (w : World) (e : Event) : s.Evented (s.ringPut w e) := by
  unfold State.ringPut
  extract_lets mask
  repeat' split
  all_goals first
    | exact State.Evented.refl s
    | exact State.evented_ringWrite ..
    | exact State.evented_ringDrop ..
    | exact State.evented_evt ..

theorem State.evented_logEvent (s : State) (i b : Bool) (e : Event) : s.Evented (s.logEvent i b e) := State.evented_evt ..

/-- An event changes the rings, the counts, the log, the host's messages, and nothing else. -/
theorem State.evented_raise (s : State) (w : World) (code shade source : Nat) (detail : List Byte) :
    s.Evented (s.raise w code shade source detail) := by
  unfold State.raise
  extract_lets e
  split
  · exact (((State.evented_logEvent ..).trans (State.evented_ringPut ..)).trans (State.evented_ringPut ..)).trans (State.evented_signal ..)
  · exact (State.evented_logEvent ..).trans (State.evented_ringPut ..)

theorem State.evented_refused (s : State) (w : World) (src a st : Nat) : s.Evented (s.refused w src a st) := State.evented_raise ..

theorem State.evented_regIgnored (s : State) (w : World) (a : Nat) (v : Word) : s.Evented (s.regIgnored w a v) := State.evented_raise ..

/-! The counts of SAFE_STATUS. -/

@[simp] theorem State.signal_evt (s : State) (v : Nat) : (s.signal v).evt = s.evt := by
  unfold State.signal State.sendVec; repeat' split
  all_goals rfl

@[simp] theorem State.ringPut_counts (s : State) (w : World) (e : Event) :
    (s.ringPut w e).evt.grey = s.evt.grey ∧ (s.ringPut w e).evt.ochre = s.evt.ochre ∧ (s.ringPut w e).evt.crimson = s.evt.crimson := by
  unfold State.ringPut State.ringDrop State.ringWrite
  cases w <;> (dsimp only; repeat' split) <;> simp [State.count]

/-- R405: a Grey event is counted once. -/
theorem State.raise_grey (s : State) (w : World) (code source : Nat) (detail : List Byte) :
    (s.raise w code 1 source detail).evt.grey = s.evt.grey + 1 := by
  unfold State.raise
  simp [State.logEvent, State.event, b2n]

/-- R540: inside an attempt a fault that voids it is kept, with its code and the tick. -/
theorem State.ochre_voids (s : State) (w : World) (code shade src : Nat) (detail : List Byte) (h : s.heat.running = true) :
    (s.ochre w code shade src detail).heat.voids = s.heat.voids ++ [{ tick := s.now, source := src, code := code }] := by
  have e : ∀ i b (x : Event) (c : Prop) [Decidable c],
      (if c then (s.logEvent i b x).ringPut w x else s.logEvent i b x).heat = s.heat := by
    intro i b x c _
    split
    · exact ((State.evented_logEvent s i b x).trans (State.evented_ringPut _ _ _)).heat
    · rfl
  have n : ∀ i b (x : Event) (c : Prop) [Decidable c],
      (if c then (s.logEvent i b x).ringPut w x else s.logEvent i b x).now = s.now := by
    intro i b x c _
    split
    · exact ((State.evented_logEvent s i b x).trans (State.evented_ringPut _ _ _)).now
    · rfl
  unfold State.ochre
  rw [if_pos h]
  dsimp only
  rw [e, n]

end Sys2Proof.Machine
end

