-- ==== Sys2Proof/Laws/Mailbox.lean ====
section
/-!
SUPPORT. A mailbox request that is taken: what the mailbox does with it, and what its response leaves.
-/
namespace Sys2Proof.Machine

/-- R386, R389: a request that is taken is served. -/
theorem State.takes.serves {s u : State} {m : Nat} {h : HostDma} {op : Nat} {c : Cmd} {r : Req} (t : s.takes m h op c u r) :
    s.mailbox m h op c = u.serve c (s.headSlot m) r h := by
  obtain ⟨_, o, n, e, a⟩ := t
  unfold State.headSlot at e a ⊢
  unfold State.mailbox
  dsimp only
  rw [o, n, e, a]
  simp

/-- R380: a request that passes keeps its mailbox and its position. -/
theorem State.payCheck_req {s u : State} {m p : Nat} {c : Cmd} {b : List Byte} {h : HostDma} {r : Req}
    (e : s.payCheck m p c b h = (u, .ok r)) : r.mbx = m ∧ r.pos = p ∧ r.op = fld b 0 2 := by
  unfold State.payCheck at e
  extract_lets ref len op sg own q at e
  split at e
  · cases e
  split at e
  · cases e
  extract_lets v at e
  clear_value v
  split at e
  · cases e
  split at e
  · cases e
  split at e
  · cases e
  · cases e
    exact ⟨rfl, rfl, rfl⟩

theorem State.accept_req {s u : State} {m p : Nat} {c : Cmd} {b : List Byte} {h : HostDma} {r : Req}
    (e : s.accept m p c b h = (u, .ok r)) : r.mbx = m ∧ r.pos = p ∧ r.op = fld b 0 2 := by
  unfold State.accept at e
  split at e
  · cases e
  split at e
  · cases e
  split at e
  · cases e
  split at e
  · cases e
  · exact State.payCheck_req e

theorem State.takes.req {s u : State} {m : Nat} {h : HostDma} {op : Nat} {c : Cmd} {r : Req} (t : s.takes m h op c u r) :
    r.mbx = m ∧ r.pos = s.regN (mbxAt m + 4) ∧ r.op = op := by
  obtain ⟨_, _, _, e, a⟩ := t
  have k := State.accept_req a
  rw [e] at k
  exact k

@[simp] theorem rspSlot_length (b : List Byte) (st : Nat) (body : List Byte) : (rspSlot b st body).length = 64 := by
  unfold rspSlot
  split <;> simp

/-- In-Band Interrupts that leave change what the tray reads of them, and nothing else. -/
theorem State.ibiFlush_rest (s : State) : s.ibiFlush = { s with i3c := s.ibiFlush.i3c } := by
  have g : ∀ (t : State) (a : Nat), t = { s with i3c := t.i3c } →
      (if t.i3c.due.contains a && t.ibiOpen a then t.ibiSend a else t)
        = { s with i3c := (if t.i3c.due.contains a && t.ibiOpen a then t.ibiSend a else t).i3c } := by
    intro t a h
    split
    · exact congrArg (fun x : State => { x with i3c := (t.ibiSend a).i3c }) h
    · exact h
  have f : ∀ (l : List Nat) (t : State), t = { s with i3c := t.i3c } →
      t.forAll l (fun b s => if s.i3c.due.contains b && s.ibiOpen b then s.ibiSend b else s)
        = { s with i3c := (t.forAll l fun b s => if s.i3c.due.contains b && s.ibiOpen b then s.ibiSend b else s).i3c } := by
    intro l
    induction l with
    | nil => intro t h; exact h
    | cons a l ih =>
      intro t h
      exact ih _ (g t a h)
  unfold State.ibiFlush
  split
  · rfl
  · exact f _ _ rfl

theorem State.ibi_rest (s : State) (b : Nat) : ∃ i, s.ibi b = { s with i3c := i } := by
  unfold State.ibi
  generalize hi : I3c.mk _ _ _ _ _ _ _ _ = i
  exact ⟨_, State.ibiFlush_rest { s with i3c := i }⟩

/-- What a response leaves of hub SRAM, of host memory and of the registers, as one function says it. -/
theorem State.respond_hub (s : State) (m p : Nat) (b : List Byte) (st : Nat) (body : List Byte) (h : HostDma)
    (k : body.length ≤ 32 ∨ s.hostWrites h) :
    (s.respond m p b st body h).hubMem = Memory.writeN s.hubMem (slotAt m p + 0x4000) (rspSlot b st body) := by
  have g : ∀ t : State, t.hubMem = Memory.writeN s.hubMem (slotAt m p + 0x4000) (rspSlot b st body) →
      (if m = 10 then t.ibi 1 else t.signal (m + 2)).hubMem = Memory.writeN s.hubMem (slotAt m p + 0x4000) (rspSlot b st body) := by
    intro t e
    split
    · obtain ⟨i, q⟩ := t.ibi_rest 1
      rw [q]; exact e
    · unfold State.signal State.sendVec
      repeat' split
      all_goals exact e
  unfold State.respond
  dsimp only
  apply g
  rcases k with k | ⟨a, b, c⟩
  · simp [k]
  · simp only [a, b, c]
    by_cases k : body.length ≤ 32 <;> simp [k, State.hostWrite]

theorem State.respond_host (s : State) (m p : Nat) (b : List Byte) (st : Nat) (body : List Byte) (h : HostDma)
    (k : 32 < body.length) (w : s.hostWrites h) :
    (s.respond m p b st body h).hostMem = Memory.writeN s.hostMem (fld b 0x18 8) body := by
  have g : ∀ t : State, t.hostMem = Memory.writeN s.hostMem (fld b 0x18 8) body →
      (if m = 10 then t.ibi 1 else t.signal (m + 2)).hostMem = Memory.writeN s.hostMem (fld b 0x18 8) body := by
    intro t e
    split
    · obtain ⟨i, q⟩ := t.ibi_rest 1
      rw [q]; exact e
    · unfold State.signal State.sendVec
      repeat' split
      all_goals exact e
  unfold State.respond
  dsimp only
  apply g
  obtain ⟨a, b, c⟩ := w
  simp [a, b, c, Nat.not_le.mpr k, State.hostWrite]

/-- R381: RSP_TAIL is one further. -/
theorem State.respond_tail (s : State) (m p : Nat) (b : List Byte) (st : Nat) (body : List Byte) (h : HostDma) :
    (s.respond m p b st body h).regN (mbxAt m + 8) = (p + 1) % 2 ^ 32 := by
  have g : ∀ t : State, t.reg (mbxAt m + 8) = BitVec.ofNat 32 (p + 1) →
      (if m = 10 then t.ibi 1 else t.signal (m + 2)).reg (mbxAt m + 8) = BitVec.ofNat 32 (p + 1) := by
    intro t e
    split
    · obtain ⟨i, q⟩ := t.ibi_rest 1
      rw [q]; exact e
    · unfold State.signal State.sendVec
      repeat' split
      all_goals exact e
  unfold State.respond State.regN
  dsimp only
  rw [g]
  · simp
  · rw [State.reg_count_ne _ _ (by omega), State.setRegN, State.reg_setReg_same]
    apply BitVec.eq_of_toNat_eq
    simp

/-- R381, R385: the response of the request that is taken, after `x` of its effect: STATUS, payload, RSP_TAIL. -/
theorem State.respond_answers {s x : State} {m : Nat} {st : Nat} {body : List Byte} {h : HostDma}
    (k : body.length ≤ 32 ∨ x.hostWrites h) :
    s.answers (x.respond m (s.regN (mbxAt m + 4)) (s.headSlot m) st body h) m st body := by
  refine ⟨?_, State.respond_tail .., fun l => ?_⟩
  · rw [State.respond_hub _ _ _ _ _ _ _ k]
    have e := Memory.readN_writeN x.hubMem (slotAt m (s.regN (mbxAt m + 4)) + 0x4000) (rspSlot (s.headSlot m) st body)
    rwa [rspSlot_length] at e
  · rw [State.respond_host _ _ _ _ _ _ _ l (k.resolve_left (by omega))]
    exact Memory.readN_writeN ..

/-- R390: a report's request that is taken is answered with what its run says. -/
theorem State.takes.reads {s u : State} {m : Nat} {h : HostDma} {op : Nat} {c : Cmd} {r : Req} (t : s.takes m h op c u r)
    (k : c.cls = .read) (w : (c.run u r h).body.length ≤ 32 ∨ (c.run u r h).s.hostWrites h) :
    s.answers (s.mailbox m h op c) m (c.run u r h).st (c.run u r h).body := by
  obtain ⟨e1, e2, _⟩ := t.req
  rw [t.serves]
  unfold State.serve
  rw [k, e1, e2]
  exact State.respond_answers w

/-- R390: a request of class C that is taken, while no command of its group waits, runs and is answered at once. -/
theorem State.takes.completes {s u : State} {m : Nat} {h : HostDma} {op : Nat} {c : Cmd} {r : Req} (t : s.takes m h op c u r)
    (k : c.cls = .completes) (q : u.queued op c = false) :
    s.mailbox m h op c
      = (((c.run (u.journalPut r none) r h).s.journalPut r
          (some (leBytes 1 (c.run (u.journalPut r none) r h).st ++ (c.run (u.journalPut r none) r h).body))).respond m
        (s.regN (mbxAt m + 4)) (s.headSlot m) (c.run (u.journalPut r none) r h).st (c.run (u.journalPut r none) r h).body h) := by
  obtain ⟨e1, e2, e3⟩ := t.req
  rw [t.serves]
  unfold State.serve
  rw [k, e1, e2, e3, q]
  rfl

/-- R390: a request of class D that is taken is answered ACCEPTED and waits. -/
theorem State.takes.defers {s u : State} {m : Nat} {h : HostDma} {op : Nat} {c : Cmd} {r : Req} (t : s.takes m h op c u r)
    (k : c.cls = .deferred) :
    s.mailbox m h op c = (((u.journalPut r (some [1])).deferPut r).respond m (s.regN (mbxAt m + 4)) (s.headSlot m) 1 [] h) := by
  obtain ⟨e1, e2, e3⟩ := t.req
  rw [t.serves]
  unfold State.serve
  rw [k, e1, e2]
  simp

/-- `t` is `s` but for the hub's SRAM, host memory, the messages to the host, In-Band Interrupts, the event rings and counts,
and registers below the device's own. -/
def State.Replied (s t : State) : Prop :=
  t = { s with regs := t.regs, hubMem := t.hubMem, hostMem := t.hostMem, host := t.host, i3c := t.i3c, evt := t.evt }
    ∧ ∀ a, 0x10B000 ≤ a → t.reg a = s.reg a

theorem State.Replied.trans {s t u : State} (h : s.Replied t) (g : t.Replied u) : s.Replied u :=
  ⟨by rw [g.1, h.1], fun a k => (g.2 a k).trans (h.2 a k)⟩

theorem State.Evented.replied {s t : State} (h : s.Evented t) : s.Replied t := ⟨by rw [h.1], h.2⟩

theorem State.Replied.mem {s t : State} (h : s.Replied t) : t.mem = s.mem := by rw [h.1]
theorem State.Replied.heat {s t : State} (h : s.Replied t) : t.heat = s.heat := by rw [h.1]
theorem State.Replied.job {s t : State} (h : s.Replied t) : t.job = s.job := by rw [h.1]
theorem State.Replied.hub {s t : State} (h : s.Replied t) : t.hub = s.hub := by rw [h.1]
theorem State.Replied.boot {s t : State} (h : s.Replied t) : t.boot = s.boot := by rw [h.1]
theorem State.Replied.thm {s t : State} (h : s.Replied t) : t.thm = s.thm := by rw [h.1]
theorem State.Replied.twin {s t : State} (h : s.Replied t) : t.twin = s.twin := by rw [h.1]
theorem State.Replied.pool {s t : State} (h : s.Replied t) : t.pool = s.pool := by rw [h.1]
theorem State.Replied.drills {s t : State} (h : s.Replied t) : t.drills = s.drills := by rw [h.1]
theorem State.Replied.pwr {s t : State} (h : s.Replied t) : t.pwr = s.pwr := by rw [h.1]

theorem mbxAt_lt {m : Nat} (h : m < 11) : mbxAt m + 0x1000 ≤ 0x10B000 := by
  unfold mbxAt; omega

/-- A response leaves everything but what `Replied` names. -/
theorem State.respond_replied (s : State) {m : Nat} (p : Nat) (b : List Byte) (st : Nat) (body : List Byte) (h : HostDma) (k : m < 11) :
    s.Replied (s.respond m p b st body h) := by
  have l := mbxAt_lt k
  unfold State.respond
  dsimp only
  have e : ∀ t : State, s.Replied t → s.Replied (if m = 10 then t.ibi 1 else t.signal (m + 2)) := by
    intro t q
    split
    · obtain ⟨i, e⟩ := t.ibi_rest 1
      rw [e]
      exact q.trans ⟨rfl, fun _ _ => rfl⟩
    · exact q.trans (State.evented_signal ..).replied
  have d : ∀ t : State, s.Replied t → ∀ x, s.Replied { t with hubMem := x } := fun t q x => q.trans ⟨rfl, fun _ _ => rfl⟩
  have g : ∀ t : State, s.Replied t → ∀ a w, a < 0x10B000 → s.Replied (t.setReg a w) :=
    fun t q a w l => q.trans (State.evented_setReg t a w l).replied
  apply e
  refine g _ (g _ (d _ ?_ _) _ _ (by omega)) _ _ (by omega)
  split
  · exact ⟨rfl, fun _ _ => rfl⟩
  split
  · exact ⟨rfl, fun _ _ => rfl⟩
  · unfold State.dmaFail State.raiseHub State.raiseBits
    exact ((State.evented_setReg s 0x1C _ (by decide)).trans (State.evented_raise ..)).replied

end Sys2Proof.Machine
end

