-- ==== Sys2Proof/Laws/Vector.lean ====
section
/-!
SUPPORT. What a vector instruction's shared operations do: a tile written, a mask written, V written, the core's advance.
-/
namespace Sys2Proof.Machine

/-! Registers by index. -/

@[simp] theorem setAt_getD_same {α : Type} (d e : α) (l : List α) (i : Nat) (v : α) : (setAt d l i v).getD i e = v := by
  induction i generalizing l with
  | zero => cases l <;> rfl
  | succ i ih => cases l <;> simpa [setAt] using ih _

theorem setAt_getD_ne {α : Type} (d : α) (l : List α) {i j : Nat} (v : α) (h : i ≠ j) : (setAt d l i v).getD j d = l.getD j d := by
  induction i generalizing l j with
  | zero =>
    cases j with
    | zero => exact absurd rfl h
    | succ j => cases l <;> simp [setAt]
  | succ i ih =>
    cases j with
    | zero => cases l <;> simp [setAt]
    | succ j =>
      have k : i ≠ j := fun e => h (by rw [e])
      cases l with
      | nil => simpa [setAt] using ih [] k
      | cons a l => simpa [setAt] using ih l k

theorem legal_eq {b : Bool} {j k : KOp} (h : legal b j = k) (n : k ≠ .illegal) : j = k := by
  unfold legal at h
  split at h
  · exact h
  · exact absurd h.symm n

/-- R126: a word whose row is the vector row of `k` has VOP `k`. -/
theorem vOp_of_kop {w k : Nat} (h : kop w = .vec k) : vOp w = k := by
  have n : KOp.vec k ≠ .illegal := fun e => nomatch e
  unfold kop at h
  split at h
  · unfold kopArray at h
    extract_lets at h
    split at h <;> first | nomatch legal_eq h n | nomatch h
  split at h
  · exact KOp.vec.inj (legal_eq h n)
  split at h
  · unfold kopSync at h
    extract_lets at h
    split at h <;> nomatch legal_eq h n
  split at h
  · unfold kopBook at h
    extract_lets at h
    split at h <;> first | nomatch legal_eq h n | nomatch h
  · nomatch h

/-! The advance of a core. -/

theorem State.coreState_setCoreState (s : State) (c n : Nat) (h : n < 2 ^ 32) : (s.setCoreState c n).coreState c = n := by
  unfold State.coreState State.setCoreState
  rw [State.regN_setRegN_same, Nat.mod_eq_of_lt h]

@[simp] theorem State.core_setCoreState (s : State) (c n j : Nat) : (s.setCoreState c n).core j = s.core j := rfl

/-- R110, R118: an instruction that retires leaves a running core with its pc, its count and its result; nothing else changes. -/
theorem State.retire_goes (s : State) (c rd : Nat) (v : Word) :
    (s.retire c rd v).core c = (s.core c).after rd v ∧ (∀ j, j ≠ c → (s.retire c rd v).core j = s.core j)
      ∧ (s.retire c rd v).coreState c = 1 ∧ (∀ a, a ≠ ctlAt c + 4 → (s.retire c rd v).reg a = s.reg a)
      ∧ s.retire c rd v = { s with cores := (s.retire c rd v).cores, regs := (s.retire c rd v).regs } := by
  unfold State.retire State.retireAt
  refine ⟨?_, fun j h => ?_, State.coreState_setCoreState _ _ _ (by decide), fun a h => ?_, rfl⟩
  · rw [State.core_setCoreState, State.core_onCore_same]; rfl
  · rw [State.core_setCoreState, State.core_onCore_ne _ _ (Ne.symm h)]
  · exact State.reg_setReg_ne _ _ (Ne.symm h)

/-- R133: lanes counted by an instruction that then retires: the core, its state and the counter. -/
theorem State.lanes_retire (s : State) (c n : Nat) :
    (s.coreGoes (((s.lanes c n).retire c 0 0)) c [ctlAt c + 0x48, ctlAt c + 0x4C] ((s.core c).after 0 0))
      ∧ ((s.lanes c n).retire c 0 0).reg64 (ctlAt c + 0x48) = (s.reg64 (ctlAt c + 0x48) + n) % 2 ^ 64
      ∧ ((s.lanes c n).retire c 0 0).mem = s.mem := by
  obtain ⟨a, b, d, e, f⟩ := (s.lanes c n).retire_goes c 0 0
  refine ⟨⟨a, b, d, fun x h k => ?_, ?_⟩, ?_, ?_⟩
  · rw [e x h]
    simp only [List.mem_cons, List.not_mem_nil, or_false, not_or] at k
    exact State.reg_setReg64_ne _ _ (Ne.symm k.1) (Ne.symm k.2)
  · rw [f]; rfl
  · have q : (s.lanes c n).reg64 (ctlAt c + 0x48) = _ := State.reg64_count64_same ..
    rw [← q]
    unfold State.reg64 State.regN
    rw [e _ (by omega), e _ (by omega)]
  · rw [f]; rfl

/-! Tile buffers. -/

@[simp] theorem tileBytes_length (t : List Word) : (tileBytes t).length = 4 * t.length := by
  induction t with
  | nil => rfl
  | cons a t ih => simp [tileBytes, List.flatMap_cons] at ih ⊢; omega

theorem Memory.readN_drop (m : Memory) (a n k : Nat) : Memory.readN m (a + k) n = (Memory.readN m a (k + n)).drop k := by
  induction k generalizing a with
  | zero => simp
  | succ k ih =>
    rw [show k + 1 + n = (k + n) + 1 by omega, Memory.readN, List.drop_succ_cons, ← ih (a + 1)]
    congr 1; omega

theorem Memory.readN_take (m : Memory) (a n k : Nat) (h : k ≤ n) : Memory.readN m a k = (Memory.readN m a n).take k := by
  induction k generalizing a n with
  | zero => simp [Memory.readN]
  | succ k ih =>
    cases n with
    | zero => omega
    | succ n => simp only [Memory.readN, List.take_succ_cons]; rw [ih (a + 1) n (by omega)]

theorem tileBytes_at (t : List Word) (i : Nat) (h : i < t.length) : ((tileBytes t).drop (4 * i)).take 4 = leBytes 4 (t.getD i 0).toNat := by
  induction t generalizing i with
  | nil => simp at h
  | cons a t ih =>
    cases i with
    | zero => simp [tileBytes, List.flatMap_cons]
    | succ i =>
      have e : (tileBytes (a :: t)).drop (4 * (i + 1)) = (tileBytes t).drop (4 * i) := by
        rw [show 4 * (i + 1) = 4 + 4 * i by omega, ← List.drop_drop]
        simp [tileBytes, List.flatMap_cons]
      rw [e, ih i (by simpa using h)]
      simp

/-- R110: a tile buffer that is written holds what was written. -/
theorem State.tile_setTile (s : State) (c n : Nat) (t : List Word) (h : t.length = 1024) (e : Nat) (k : e < 1024) :
    ((s.setTile c n t).tile c n).getD e 0 = t.getD e 0 := by
  have w : (s.setTile c n t).word (tileBase c n + 4 * e) 4 = (t.getD e 0).toNat := by
    unfold State.word State.bytes State.setTile State.store
    have q : Memory.readN (Memory.writeN s.mem (tileBase c n) (tileBytes t)) (tileBase c n) 4096 = tileBytes t := by
      have l : (tileBytes t).length = 4096 := by rw [tileBytes_length, h]
      rw [← l]
      exact Memory.readN_writeN ..
    dsimp only
    rw [Memory.readN_take _ _ (4096 - 4 * e) 4 (by omega), Memory.readN_drop, show 4 * e + (4096 - 4 * e) = 4096 by omega, q,
      tileBytes_at t e (by omega), leNat_leBytes]
    exact Nat.mod_eq_of_lt (t.getD e 0).isLt
  unfold State.tile
  rw [List.getD_eq_getElem?_getD, List.getElem?_map, List.getElem?_range k]
  simp only [Option.map_some, Option.getD_some]
  rw [w]
  simp

/-! Whole instructions. -/

theorem tileBase_le (c n : Nat) : tileBase c n ≤ tileBase c n + 4096 := Nat.le_add_right ..

/-- R110, R133: a tile buffer written, its lanes counted, and the instruction retired. -/
theorem State.setTile_goes (s : State) (c n : Nat) (l : List Word) (h : l.length = 1024) :
    s.tileGoes (((s.setTile c n l).lanes c 1024).retire c 0 0) c n (fun e => l.getD e 0)
      ∧ s.coreGoes (((s.setTile c n l).lanes c 1024).retire c 0 0) c [ctlAt c + 0x48, ctlAt c + 0x4C] ((s.core c).after 0 0)
      ∧ (((s.setTile c n l).lanes c 1024).retire c 0 0).reg64 (ctlAt c + 0x48) = (s.reg64 (ctlAt c + 0x48) + 1024) % 2 ^ 64 := by
  obtain ⟨⟨a, b, d, g, i⟩, q, m⟩ := (s.setTile c n l).lanes_retire c 1024
  generalize (State.lanes _ c 1024).retire c 0 0 = t at *
  refine ⟨⟨fun e k => ?_, fun x k => ?_⟩, ⟨a, b, d, g, i⟩, q⟩
  · have r : t.tile c n = (s.setTile c n l).tile c n := by
      unfold State.tile State.word State.bytes; rw [m]
    rw [r, State.tile_setTile s c n l h e k]
  · rw [m]
    exact Memory.read_writeN_out _ _ _ _ (by rw [tileBytes_length, h]; exact k)

/-- R126, R127: the tile form, retired. -/
theorem State.vTile_spec (s : State) (c w : Nat) (f : Nat → Word) : s.vectorTile ((s.vTile c w f).retire c 0 0) c w f := by
  unfold State.vTile
  extract_lets old
  generalize hl : (List.range 1024).map _ = l
  have n : l.length = 1024 := by rw [← hl, List.length_map, List.length_range]
  obtain ⟨a, b, d⟩ := s.setTile_goes c (vTd w) l n
  refine ⟨⟨fun e k => ?_, a.2⟩, b, d⟩
  rw [a.1 e k, ← hl]
  dsimp only
  rw [List.getD_eq_getElem?_getD, List.getElem?_map, List.getElem?_range k]
  rfl

/-- R128: bit `e` of a mask that is built bit by bit. -/
theorem maskOf_bit (f : Nat → Bool) (e : Nat) (h : e < 1024) : (maskOf f).getLsbD e = f e := by
  have g : ∀ n, ((List.range n).foldl (fun n i => n + b2n (f i) * 2 ^ i) 0) < 2 ^ n
      ∧ ∀ i < n, ((List.range n).foldl (fun n i => n + b2n (f i) * 2 ^ i) 0).testBit i = f i := by
    intro n
    induction n with
    | zero => exact ⟨by simp, fun i h => absurd h (Nat.not_lt_zero i)⟩
    | succ n ih =>
      obtain ⟨l, b⟩ := ih
      rw [List.range_succ, List.foldl_append]
      generalize (List.range n).foldl (fun n i => n + b2n (f i) * 2 ^ i) 0 = x at l b ⊢
      simp only [List.foldl_cons, List.foldl_nil]
      have e : x + b2n (f n) * 2 ^ n = 2 ^ n * b2n (f n) + x := by rw [Nat.mul_comm]; omega
      have c : b2n (f n) < 2 := by unfold b2n; cases f n <;> simp
      refine ⟨?_, fun i k => ?_⟩
      · rw [Nat.pow_succ]
        have : b2n (f n) * 2 ^ n ≤ 1 * 2 ^ n := Nat.mul_le_mul_right _ (by omega)
        omega
      · rw [e, Nat.testBit_two_pow_mul_add _ l]
        split
        · exact b i (by assumption)
        · have : i = n := by omega
          subst this
          rw [Nat.sub_self]
          unfold b2n; cases f i <;> rfl
  unfold maskOf
  rw [BitVec.getLsbD_ofNat, (g 1024).2 e h]
  simp [h]

/-- R109, R128: the mask form, retired. -/
theorem State.vMask_spec (s : State) (c w : Nat) (f : Nat → Bool) : s.vectorMask ((s.vMask c w f).retire c 0 0) c w f := by
  unfold State.vMask
  obtain ⟨⟨a, b, d, e, i⟩, n, m⟩ := (s.setMask c (vMk w) (maskOf f)).lanes_retire c 1024
  generalize (State.lanes _ c 1024).retire c 0 0 = t at *
  have k : (s.setMask c (vMk w) (maskOf f)).core c = { s.core c with masks := setAt 0 (s.core c).masks (vMk w) (maskOf f) } :=
    State.core_onCore_same ..
  have x : (t.core c).masks = setAt 0 (s.core c).masks (vMk w) (maskOf f) := by
    rw [a, k]; rfl
  refine ⟨fun e h => ?_, fun m h => ?_, m, ⟨?_, fun j h => ?_, d, e, i⟩, n⟩
  · unfold State.maskBit Core.mask
    rw [x, setAt_getD_same, maskOf_bit f e h]
  · unfold Core.mask
    rw [x, setAt_getD_ne _ _ _ (Ne.symm h)]
  · rw [x, a, k]
  · rw [b j h]
    exact State.core_onCore_ne _ _ (Ne.symm h)

/-- R126, R128: the V form without a mask, retired. -/
theorem State.vSetV_spec (s : State) (c w : Nat) (f : Nat → Word) (h : vMen w = false) :
    s.vectorCore ((s.vSetV c w f).retire c 0 0) c 32 { s.core c with v := (List.range 32).map f } := by
  unfold State.vSetV
  simp only [h, Bool.not_false, Bool.true_or, if_true]
  obtain ⟨⟨a, b, d, e, i⟩, n, m⟩ := (s.onCore c fun k => { k with v := (List.range 32).map f }).lanes_retire c 32
  generalize (State.lanes _ c 32).retire c 0 0 = t at *
  refine ⟨m, ⟨?_, fun j h => ?_, d, e, i⟩, n⟩
  · rw [a, State.core_onCore_same]
  · rw [b j h, State.core_onCore_ne _ _ (Ne.symm h)]

/-- R116: an instruction whose unit has nothing queued and may take it runs at once. -/
theorem State.issue_runs {s : State} {c u w : Nat} (e : s.unitQ c u = []) (h : s.mayRun c u (s.qins c w) = true) :
    s.issue c u w = (s.unitEffect c u (s.qins c w)).retireUnit c := by
  unfold State.issue
  simp [e, h]

/-- R116, R120: an instruction that neither halted its core nor set the repeat trap retires. -/
theorem State.retireUnit_retires {s : State} {c : Nat} (h : s.coreState c ≠ 3) (t : (s.core c).trap = none) :
    s.retireUnit c = s.retire c 0 0 := by
  unfold State.retireUnit
  rw [if_neg]
  rw [t]
  exact fun x => x.elim h Bool.noConfusion

/-- A row of the kernel extension whose word is at the pc. -/
theorem State.atRow.row {s : State} {c w : Nat} {k : KOp} (h : s.atRow c k w) (want : KOp → Bool) (q : want k = true) (f : Nat → State → State) :
    kernelRow c want f s = f w s := by
  obtain ⟨_, i, ⟨n, e⟩, o⟩ := h
  unfold kernelRow
  rw [if_pos i, e]
  dsimp only
  rw [o, if_pos q]

end Sys2Proof.Machine
end

