-- ==== Sys2Proof/Tests/Slice0.lean ====
section
/-!
SUPPORT. Tests: an ill-formed command for each check; for each hypothesis of a statement a state that meets it; small
examples with values that the spec gives.
-/
namespace Sys2Proof.Tests

open Sys2Proof.Machine
set_option Elab.async false

/-- A state with some registers set. -/
def withRegs (l : List (Nat × Nat)) (s : State) : State := l.foldl (fun s q => s.setRegN q.1 q.2) s

/-- A state with bytes in device memory. -/
def withMem (a : Nat) (b : List Byte) (s : State) : State := { s with mem := Memory.writeN s.mem a b }

/-- A committed device in RUN whose pod 0 has 16 cores and is on. -/
def dev : State :=
  withRegs [(4, 5), (podPwrAt 0, 2)] { State.reset with committed := true, coreMap := [(0, 0x0021FFFF)] }

/-- Its core 0 runs, with `w` at the first word of its instruction memory, and holds the scalar registers `x`. -/
def coreAt (w : Nat) (x : List Word) : State :=
  withMem (coreBase 0 + 0xA0000) (leBytes 4 w)
    (withRegs [(ctlAt 0 + 8, 1), (ctlAt 0 + 4, 1)] { dev with cores := [(0, { pc := 0xA0000, x := x })] })

/-- The K format (R119). -/
def kWord (op f3 k7 rs2 rs1 k5 : Nat) : Nat := op + k5 * 2 ^ 7 + f3 * 2 ^ 12 + rs1 * 2 ^ 15 + rs2 * 2 ^ 20 + k7 * 2 ^ 25

/-- The vector format (R126) in tile form without a mask. -/
def vWord (op rs bc mk tb ta td : Nat) : Nat :=
  0x2B + td * 2 ^ 7 + ta * 2 ^ 9 + tb * 2 ^ 11 + mk * 2 ^ 14 + bc * 2 ^ 19 + rs * 2 ^ 21 + op * 2 ^ 26

/-- R126: VR set. -/
def vForm (op rs : Nat) : Nat := vWord op rs 0 0 0 0 0 + 2 ^ 13

/-- The command of a word, as a core finds it at its pc. -/
def State.atRowB (s : State) (c : Nat) (k : KOp) (w : Nat) : Bool :=
  coreOk c && s.issues c && (s.fetch c).any (fun q => q.1 == w) && kop w == k

theorem atRow_of {s : State} {c w : Nat} {k : KOp} (h : State.atRowB s c k w = true) : s.atRow c k w := by
  simp only [State.atRowB, Bool.and_eq_true, beq_iff_eq, Option.any_eq_true] at h
  obtain ⟨⟨⟨h1, h2⟩, ⟨q, h3, h4⟩⟩, h5⟩ := h
  exact ⟨h1, h2, ⟨q.2, by rw [h3, ← h4]⟩, h5⟩

/-- That command as its unit `u` takes it at once (R116). -/
def State.takesB (s : State) (c u w : Nat) : Bool := (s.unitQ c u).isEmpty && s.mayRun c u (s.qins c w)
/-- An array instruction that its array takes at once. -/
def State.arrRowB (s : State) (c : Nat) (k : KOp) (w : Nat) : Bool := State.atRowB s c k w && State.takesB s c (iArr w) w
/-- A vector instruction that the engine takes at once. -/
def State.vecRowB (s : State) (c op w : Nat) : Bool := State.atRowB s c (.vec op) w && State.takesB s c 2 w

theorem unitTakes_of {s : State} {c u w : Nat} (h : State.takesB s c u w = true) : s.unitTakes c u w := by
  simpa [State.takesB, State.unitTakes, List.isEmpty_iff] using h
theorem vecRow_of {s : State} {c op w : Nat} (h : State.vecRowB s c op w = true) : s.vecRow c op w := by
  simp only [State.vecRowB, Bool.and_eq_true] at h; exact ⟨atRow_of h.1, unitTakes_of h.2⟩
theorem arrRow_of {s : State} {c w : Nat} {k : KOp} (h : State.arrRowB s c k w = true) : s.arrRow c k w := by
  simp only [State.arrRowB, Bool.and_eq_true] at h; exact ⟨atRow_of h.1, unitTakes_of h.2⟩
/-! ### Cores: each row at the pc of a running core -/

theorem wit_vector_two_operands : ∀ op ∈ [0, 1, 2, 3, 4, 5, 6],
    State.vecRowB (coreAt (vWord op 0 0 0 1 (if op = 6 then 0 else 2) 3) []) 0 op (vWord op 0 0 0 1 (if op = 6 then 0 else 2) 3)
      && !vVr (vWord op 0 0 0 1 (if op = 6 then 0 else 2) 3) = true := by decide +kernel

theorem wit_vector_one_operand : ∀ op ∈ [8, 9, 0xA, 0xB, 0xC, 0xD, 0x2C],
    State.vecRowB (coreAt (vWord op 0 0 0 0 2 3) []) 0 op (vWord op 0 0 0 0 2 3)
      && !vVr (vWord op 0 0 0 0 2 3) = true := by decide +kernel

theorem wit_vsel : (coreAt (vWord 7 0 0 5 1 2 3) []).vecRow 0 7 (vWord 7 0 0 5 1 2 3) :=
  vecRow_of (by decide +kernel)

theorem wit_vector_v_form : ∀ op ∈ [0, 1, 2, 3, 4, 5, 6, 8, 9, 0xA, 0xB, 0xC, 0xD],
    State.vecRowB (coreAt (vForm op (if op ≤ 6 then 9 else 0)) []) 0 op (vForm op (if op ≤ 6 then 9 else 0))
      && vVr (vForm op (if op ≤ 6 then 9 else 0)) && !vMen (vForm op (if op ≤ 6 then 9 else 0)) = true := by decide +kernel

theorem wit_masks_compare : ∀ op ∈ [0x10, 0x11, 0x12],
    State.vecRowB (coreAt (vWord op 0 0 15 1 2 0) []) 0 op (vWord op 0 0 15 1 2 0) = true := by decide +kernel

theorem wit_masks_logic : ∀ op ∈ [0x18, 0x19, 0x1A, 0x1B, 0x1D, 0x1E],
    State.vecRowB (coreAt (vWord op 3 0 15 0 0 0) []) 0 op (vWord op 3 0 15 0 0 0) = true := by decide +kernel

theorem wit_mset : (coreAt (vWord 0x1C 0 0 15 0 0 0) []).vecRow 0 0x1C (vWord 0x1C 0 0 15 0 0 0) :=
  vecRow_of (by decide +kernel)

theorem wit_vector_reductions : ∀ op ∈ [0x20, 0x21, 0x22, 0x23],
    State.vecRowB (coreAt (vWord op 0 0 0 0 2 0) []) 0 op (vWord op 0 0 0 0 2 0) = true := by decide +kernel

theorem wit_vget : ∀ op ∈ [0x28, 0x29],
    State.vecRowB (coreAt (vWord op 31 0 0 0 2 0) []) 0 op (vWord op 31 0 0 0 2 0)
      && !vMen (vWord op 31 0 0 0 2 0) = true := by decide +kernel

theorem wit_vput : ∀ op ∈ [0x2A, 0x2B],
    State.vecRowB (coreAt (vWord op 31 0 0 0 0 3) []) 0 op (vWord op 31 0 0 0 0 3) = true := by decide +kernel

theorem wit_vdrop : (coreAt (vWord 0x30 1 0 2 0 0 0) []).vecRow 0 0x30 (vWord 0x30 1 0 2 0 0 0) :=
  vecRow_of (by decide +kernel)

theorem wit_vrand : (coreAt (vWord 0x31 0 0 0 0 0 3) []).vecRow 0 0x31 (vWord 0x31 0 0 0 0 0 3) :=
  vecRow_of (by decide +kernel)

/-- A job of one scale-book entry (index 0) at 0x1000, in the book of device memory. -/
def bookJob : List Byte :=
  List.replicate 0x18 0 ++ leBytes 8 0x1000 ++ leBytes 4 1 ++ List.replicate 0xDC 0

/-- A core with that job loaded, and x5 as given. -/
def bookCore (w x5 : Nat) : State :=
  { coreAt w [0, 0, 0, 0, 0, BitVec.ofNat 32 x5, 0x7C] with job := { loaded := true, desc := bookJob } }

theorem wit_book_rows : ∀ q ∈ [(KOp.sbTexp, 0, 0, 7), (.sbErrs, 1, 0, 7), (.sbRead, 2, 6, 7), (.sbAmax, 3, 6, 0)],
    State.atRowB (bookCore (kWord 0x7B q.2.1 0 q.2.2.1 5 q.2.2.2) 0) 0 q.1 (kWord 0x7B q.2.1 0 q.2.2.1 5 q.2.2.2)
      && (bookCore (kWord 0x7B q.2.1 0 q.2.2.1 5 q.2.2.2) 0).sbOk
        ((bookCore (kWord 0x7B q.2.1 0 q.2.2.1 5 q.2.2.2) 0).x 0 5).toNat
      && decide (((bookCore (kWord 0x7B 2 0 6 5 7) 0).x 0 6).toNat ≤ 0x7C) = true := by decide +kernel

theorem wit_vamax : State.vecRowB (bookCore (vWord 0x24 5 0 0 0 1 0) 0) 0 0x24 (vWord 0x24 5 0 0 0 1 0)
      && (bookCore (vWord 0x24 5 0 0 0 1 0) 0).sbOk ((bookCore (vWord 0x24 5 0 0 0 1 0) 0).x 0 5).toNat
      && !vMen (vWord 0x24 5 0 0 0 1 0) = true := by decide +kernel

/-- R63: entry 1 of a book of one entry. -/
theorem wit_book_forbidden : ∀ q ∈ [(KOp.sbTexp, 0, 0, 7), (.sbErrs, 1, 0, 7), (.sbAmax, 3, 6, 0)],
    State.atRowB (bookCore (kWord 0x7B q.2.1 0 q.2.2.1 5 q.2.2.2) 1) 0 q.1 (kWord 0x7B q.2.1 0 q.2.2.1 5 q.2.2.2)
      && !(bookCore (kWord 0x7B q.2.1 0 q.2.2.1 5 q.2.2.2) 1).sbOk
        ((bookCore (kWord 0x7B q.2.1 0 q.2.2.1 5 q.2.2.2) 1).x 0 5).toNat = true := by decide +kernel

/-- KSYNC of all five units, SLV.DONE, SLV.TURN and SHWAIT on x5. -/
def syncCore (f3 x5 : Nat) : State :=
  coreAt (kWord 0x5B f3 0 (if f3 = 7 then 31 else 0) (if f3 = 7 then 0 else 5) 0) [0, 0, 0, 0, 0, BitVec.ofNat 32 x5]
/-- Its word. -/
def syncWord (f3 : Nat) : Nat := kWord 0x5B f3 0 (if f3 = 7 then 31 else 0) (if f3 = 7 then 0 else 5) 0

theorem wit_ksync_goes : State.atRowB (syncCore 7 0) 0 .ksync (syncWord 7) && (syncCore 7 0).synced 0 31
    && !((syncCore 7 0).arr 0 0).starved && !((syncCore 7 0).arr 0 1).starved = true := by decide +kernel

theorem wit_slvDone_goes : State.atRowB (syncCore 4 9) 0 .slvDone (syncWord 4) && (syncCore 4 9).synced 0 0x1F
    && !((syncCore 4 9).arr 0 0).starved && !((syncCore 4 9).arr 0 1).starved = true := by decide +kernel

/-- The done bit of sliver 9 set. -/
def turned : State := { syncCore 3 9 with pods := [(0, { done := [9] })] }
theorem wit_slvTurn_goes : State.atRowB turned 0 .slvTurn (syncWord 3) && turned.doneBit (corePod 0) (turned.x 0 5).toNat
    = true := by decide +kernel
theorem wit_slvTurn_waits : State.atRowB (syncCore 3 9) 0 .slvTurn (syncWord 3)
    && !(syncCore 3 9).doneBit (corePod 0) ((syncCore 3 9).x 0 5).toNat = true := by decide +kernel

theorem wit_shwait_goes : State.atRowB (syncCore 1 0) 0 .shwait (syncWord 1)
    && decide (((syncCore 1 0).reg (ctlAt 0 + 0x2C) - (syncCore 1 0).x 0 5).toNat < 2 ^ 31) = true := by decide +kernel
/-- One descriptor more than is done. -/
theorem wit_shwait_waits : State.atRowB (syncCore 1 1) 0 .shwait (syncWord 1)
    && decide (2 ^ 31 ≤ ((syncCore 1 1).reg (ctlAt 0 + 0x2C) - (syncCore 1 1).x 0 5).toNat) = true := by decide +kernel

/-- KSYNC while the shuttle still holds a descriptor of the core. -/
def unsynced : State := withRegs [(ctlAt 0 + 0x28, 1)] (syncCore 7 0)
theorem wit_ksync_waits : State.atRowB unsynced 0 .ksync (syncWord 7) && !unsynced.synced 0 31
    && !(unsynced.arr 0 0).starved && !(unsynced.arr 0 1).starved = true := by decide +kernel

/-- SLV.TAKE to x7; the pod's queue of four records holds one, with PRED clear. -/
def takeCore (rd tail : Nat) : State :=
  withRegs [(slvAt 0 + 4, 4), (slvAt 0 + 0xC, tail)] (coreAt (kWord 0x5B 2 0 0 0 rd) [])
theorem wit_slvTake : State.atRowB (takeCore 31 1) 0 .slvTake (kWord 0x5B 2 0 0 0 31) && !(takeCore 31 1).parkBit 0
    && !bit ((takeCore 31 1).regN (slvAt (corePod 0) + 0x14)) 0 && !(takeCore 31 1).heat.held
    && ((takeCore 31 1).slvPick 0).isSome = true := by decide +kernel
theorem wit_slvTake_parked : ((withRegs [(ctlAt 0 + 8, 3)] (takeCore 7 1)).atRow 0 .slvTake (kWord 0x5B 2 0 0 0 7))
    ∧ (withRegs [(ctlAt 0 + 8, 3)] (takeCore 7 1)).parkBit 0 = true := ⟨atRow_of (by decide +kernel), by decide +kernel⟩
theorem wit_slvTake_bad : State.atRowB (withRegs [(slvAt 0 + 0x14, 1)] (takeCore 7 1)) 0 .slvTake (kWord 0x5B 2 0 0 0 7)
    && !(withRegs [(slvAt 0 + 0x14, 1)] (takeCore 7 1)).parkBit 0
    && bit ((withRegs [(slvAt 0 + 0x14, 1)] (takeCore 7 1)).regN (slvAt (corePod 0) + 0x14)) 0 = true := by decide +kernel
theorem wit_slvTake_held : State.atRowB { takeCore 7 1 with heat := { held := true } } 0 .slvTake (kWord 0x5B 2 0 0 0 7)
    && !(takeCore 7 1).parkBit 0 = true := by decide +kernel
theorem wit_slvTake_open : ((withRegs [(slvAt 0 + 0x10, 1)] (takeCore 7 0)).slvPick 0).isNone
    && State.atRowB (withRegs [(slvAt 0 + 0x10, 1)] (takeCore 7 0)) 0 .slvTake (kWord 0x5B 2 0 0 0 7)
    && bit ((withRegs [(slvAt 0 + 0x10, 1)] (takeCore 7 0)).regN (slvAt (corePod 0) + 0x10)) 0 = true := by decide +kernel
theorem wit_slvTake_empty : State.atRowB (takeCore 7 0) 0 .slvTake (kWord 0x5B 2 0 0 0 7) && !(takeCore 7 0).parkBit 0
    && !bit ((takeCore 7 0).regN (slvAt (corePod 0) + 0x14)) 0 && !(takeCore 7 0).heat.held
    && ((takeCore 7 0).slvPick 0).isNone && !bit ((takeCore 7 0).regN (slvAt (corePod 0) + 0x10)) 0 = true := by
  decide +kernel

/-- HRD.ARRIVE and HRD.WAIT on the hurdle ID in x5. -/
def hurdleCore (f3 x5 : Nat) (arr : Tab Nat) : State :=
  { syncCore f3 x5 with
    cores := [(0, { pc := 0xA0000, x := [0, 0, 0, 0, 0, BitVec.ofNat 32 x5], arrived := arr })] }
theorem wit_hrdArrive : State.atRowB (hurdleCore 5 15 []) 0 .hrdArrive (syncWord 5) && hrdIdOk 15
    && !(hurdleCore 5 15 []).hrdBad 15 && decide (Tab.get? ((hurdleCore 5 15 []).core 0).arrived 15 ≠ some ((hurdleCore 5 15 []).hrdDone 0 15)) = true := by
  decide +kernel
theorem wit_hrdArrive_user : State.atRowB (hurdleCore 5 0x8000 []) 0 .hrdArrive (syncWord 5)
    && (hurdleCore 5 0x8000 []).hrdBad 0x8000 = true := by decide +kernel
theorem wit_hrdArrive_twice : State.atRowB (hurdleCore 5 15 [(15, 0)]) 0 .hrdArrive (syncWord 5)
    && decide (Tab.get? ((hurdleCore 5 15 [(15, 0)]).core 0).arrived 15 = some ((hurdleCore 5 15 [(15, 0)]).hrdDone 0 15))
    = true := by decide +kernel
theorem wit_hrdWait_waits : State.atRowB (hurdleCore 6 0 [(0, 0)]) 0 .hrdWait (syncWord 6) && hrdIdOk 0
    && decide (Tab.get? ((hurdleCore 6 0 [(0, 0)]).core 0).arrived 0 = some 0)
    && decide ((hurdleCore 6 0 [(0, 0)]).hrdDone 0 0 = 0) = true := by decide +kernel
theorem wit_hrdWait_goes : State.atRowB (hurdleCore 6 0 [(0, 5)]) 0 .hrdWait (syncWord 6) && hrdIdOk 0
    && decide ((hurdleCore 6 0 [(0, 5)]).hrdDone 0 0 ≠ 5) = true := by decide +kernel
theorem wit_hrdWait_unarrived : State.atRowB (hurdleCore 6 0 []) 0 .hrdWait (syncWord 6)
    && (Tab.get? ((hurdleCore 6 0 []).core 0).arrived 0).isNone = true := by decide +kernel
theorem wit_podHurdle : (dev.hrdNeed 0 (some 0) ≠ []) ∧ ∃ k ∈ dev.hrdNeed 0 (some 0), k ∉ (Tab.get (dev.pod 0).hurdles 15 {}).arrived := by
  decide +kernel
/-- Every core of pod 0 has arrived at slot 15. -/
def allArrived : State := { dev with pods := [(0, { hurdles := [(15, { arrived := List.range 16 })] })] }
theorem wit_podHurdle_all : allArrived.hrdNeed 0 (some 0) ≠ []
    ∧ ∀ k ∈ allArrived.hrdNeed 0 (some 0), k ∈ (Tab.get (allArrived.pod 0).hurdles 15 {}).arrived := by decide +kernel

/-- SHQ of the descriptor at x5; the descriptor at local address 0x40 writes tile buffer 1, the others are zeros. -/
def shqCore (a : Nat) : State :=
  withMem (coreBase 0 + 0x40) (leBytes 4 0x20000000 ++ List.replicate 8 0 ++ leBytes 4 64 ++ leBytes 8 0 ++ leBytes 8 0xA9000 ++ leBytes 4 1)
    (coreAt (kWord 0x5B 0 0 0 5 7) [0, 0, 0, 0, 0, BitVec.ofNat 32 a])
/-- Its word. -/
def shqWord : Nat := kWord 0x5B 0 0 0 5 7
/-- The tile buffers that its descriptor uses are free. -/
def shqFree (s : State) (a : Nat) : Bool :=
  (s.core 0).clear (s.core 0).seq (dTiles (s.bytes (localAddr 0 a) 64) false) (dTiles (s.bytes (localAddr 0 a) 64) true)
theorem wit_shq : ∀ a ∈ [0, 0x5FFC0, 0x1000000, 0x13FFFC0],
    State.atRowB (shqCore a) 0 .shq shqWord && decide (((shqCore a).x 0 5).toNat = a) && !(shqCore a).eccBad (localAddr 0 a) 64
      && ((shqCore a).src (.pod (corePod 0) 0)).waiting.isEmpty && shqFree (shqCore a) a = true := by decide +kernel
theorem wit_shq_address : ∀ a ∈ [32, 0x60000, 0xFFFFC0, 0x1400000],
    State.atRowB (shqCore a) 0 .shq shqWord && decide (((shqCore a).x 0 5).toNat = a)
      && !(a % 64 == 0 && (decide (a + 64 ≤ 0x60000) || decide (0x1000000 ≤ a ∧ a + 64 ≤ 0x1400000))) = true := by
  decide +kernel
/-- An ABS that waits in the engine's queue and writes tile buffer 1. -/
def shqBusy : State :=
  { shqCore 0x40 with cores := [(0, { (shqCore 0x40).core 0 with
      vq := [{ w := vWord 8 0 0 0 0 2 1, pc := 0, x1 := 0, x2 := 0, seq := 0 }], seq := 1 })] }
theorem wit_shq_waits : State.atRowB shqBusy 0 .shq shqWord && !shqBusy.eccBad (localAddr 0 0x40) 64 && !shqFree shqBusy 0x40 = true := by
  decide +kernel
theorem wit_shq_full : (({ shqCore 0 with shu := [((ShuSrc.pod 0 0).key, { waiting := List.replicate 4 (0, []) })] } : State).src
    (.pod (corePod 0) 0)).waiting.length = 4 := by decide +kernel
theorem wit_shq_ecc : State.atRowB { shqCore 0 with badEcc := [coreBase 0] } 0 .shq shqWord
    && ({ shqCore 0 with badEcc := [coreBase 0] } : State).eccBad (localAddr 0 0) 64 = true := by decide +kernel

/-- A running core whose instruction is the scalar word. -/
def scalarCore (w : Nat) : State := coreAt w [0, 0, 0, 0, 0, 0x40, 0x41]
/-- R111: the words ADDI x7,x5,-1; LW x7,0(x5); SW x6,0(x5); LW x7,1(x5); SW x6,1(x5); LUI, AUIPC, JAL, JALR, BEQ, ADD, MUL, FENCE. -/
theorem wit_scalar : ∀ q ∈ ([(0xFFF28393, .aluImm 0 false 7 5 0xFFFFFFFF), (0x0002A383, .load 2 7 5 0), (0x0062A023, .store 2 5 6 0),
      (0x0012A383, .load 2 7 5 1), (0x0062A0A3, .store 2 5 6 1), (0x123453B7, .lui 7 0x12345000), (0x00001397, .auipc 7 0x1000),
      (0x008003EF, .jal 7 8), (0x000283E7, .jalr 7 5 0), (0x00628463, .branch 0 5 6 8), (0x006283B3, .alu 0 false 7 5 6),
      (0x026283B3, .mulDiv 0 7 5 6), (0x0000000F, .fence)] : List (Nat × SOp)),
    coreOk 0 && (scalarCore q.1).issues 0 && decide ((scalarCore q.1).fetch 0 = some (q.1, 4)) && decide (kop q.1 = .scalar)
      && decide (decodeScalar q.1 4 = some q.2) = true := by decide +kernel
theorem wit_scalar_memory : (scalarCore 0x0002A383).place (coreBase 0 + 0x40) = .coreMem 0
    ∧ (scalarCore 0x0002A383).localClear 0 0x40 4 false = true ∧ (scalarCore 0x0062A023).localClear 0 0x40 4 true = true
    ∧ (scalarCore 0x0002A383).eccBad (coreBase 0 + 0x40) 4 = false := by decide +kernel
/-- An ABS of tile buffer 1 waits in the engine's queue; x5 is the tile's address. -/
def scalarBusy (w : Nat) : State :=
  { coreAt w [] with cores := [(0, { pc := 0xA0000, x := [0, 0, 0, 0, 0, 0xA9000], seq := 1
                                     vq := [{ w := vWord 8 0 0 0 0 2 1, pc := 0, x1 := 0, x2 := 0, seq := 0 }] })] }
theorem wit_scalar_waits : (scalarBusy 0x0002A383).localClear 0 0xA9000 4 false = false
    ∧ (scalarBusy 0x0062A023).localClear 0 0xA9000 4 true = false ∧ (scalarBusy 0x0062A023).issues 0 = true := by decide +kernel
theorem wit_scalar_code : (coreAt 0x0062A023 [0, 0, 0, 0, 0, 0xA0000]).place (coreBase 0 + 0xA0000) = .coreMem 0 := by decide +kernel
/-- R114: nothing to fetch outside instruction memory; R120: a word of no row. -/
theorem wit_no_fetch : ({ coreAt 0 [] with cores := [(0, { pc := 0xA8000 })] } : State).fetch 0 = none
    ∧ (coreAt 0x7F [] ).fetch 0 = some (0x7F, 4) ∧ kop 0x7F = .scalar ∧ decodeScalar 0x7F 4 = none := by decide +kernel

theorem wit_array_settings : ∀ q ∈ [(KOp.acfg, kWord 0x0B 0 0x40 0 5 0), (.promote, kWord 0x0B 3 1 0 0 0), (.promote, kWord 0x0B 3 0x20 0 0 0)],
    State.arrRowB (coreAt q.2 []) 0 q.1 q.2 = true := by decide +kernel
/-- AWAIT of array 1 to x7. -/
def awaitWord : Nat := kWord 0x0B 6 0x40 0 0 7
theorem wit_await : State.atRowB (coreAt awaitWord []) 0 .await awaitWord && ((coreAt awaitWord []).arr 0 1).idle
    && !((coreAt awaitWord []).arr 0 1).starved = true := by decide +kernel
/-- A token at the head of array 1, with an LDS on its way. -/
def awaitBusy : State :=
  { coreAt awaitWord [] with cores := [(0, { pc := 0xA0000, a1 := {
      tok := some { pc := 0, bank := 0, row := 0, promo := 0, fmt := 1, scale := 127, codes := [] }
      queue := [{ w := kWord 0x0B 1 0x7E 6 5 0, pc := 0, x1 := 0, x2 := 0, seq := 0 }] } })] }
theorem wit_await_waits : State.atRowB awaitBusy 0 .await awaitWord && !(awaitBusy.arr 0 1).idle && !(awaitBusy.arr 0 1).starved
    = true := by decide +kernel

/-- A core whose units have long queues: eight ACFG of array 0 behind a held STREAM, eight moves of tile 1. -/
def fullCore (w : Nat) (held : Bool) : State :=
  let q := fun (w k : Nat) => ({ w := w, pc := 0, x1 := 0, x2 := 0, seq := k } : QIns)
  let a0 : Arr := {
    tok := some { pc := 0, bank := 0, row := 0, promo := 0, fmt := 1, scale := 127, codes := [] }
    queue := (List.range 8).map fun k => q (if held || k != 7 then kWord 0x0B 0 0 0 0 0 else kWord 0x0B 1 0x3E 6 5 0) k }
  { coreAt w [] with
    cores := [(0, { pc := 0xA0000, seq := 20, a0 := a0, vq := (List.range 8).map fun k => q (vWord 6 0 0 0 0 1 1) (8 + k) })] }
theorem wit_queue_full : State.atRowB (fullCore (kWord 0x0B 0 0 0 5 0) false) 0 .acfg (kWord 0x0B 0 0 0 5 0)
    && !State.takesB (fullCore (kWord 0x0B 0 0 0 5 0) false) 0 0 (kWord 0x0B 0 0 0 5 0)
    && decide (8 ≤ ((fullCore (kWord 0x0B 0 0 0 5 0) false).unitQ 0 0).length) && !((fullCore 0 false).arr 0 0).starved
    && decide (8 ≤ ((fullCore 0 false).unitQ 0 2).length) = true := by decide +kernel
theorem wit_queue_starved : State.atRowB (fullCore (kWord 0x0B 0 0 0 5 0) true) 0 .acfg (kWord 0x0B 0 0 0 5 0)
    && !State.takesB (fullCore (kWord 0x0B 0 0 0 5 0) true) 0 0 (kWord 0x0B 0 0 0 5 0)
    && ((fullCore (kWord 0x0B 0 0 0 5 0) true).arr 0 0).starved = true := by decide +kernel
/-- A STREAM behind a token at the head: it joins the queue. -/
def joinCore : State :=
  let a0 : Arr := { tok := some { pc := 0, bank := 0, row := 0, promo := 0, fmt := 1, scale := 127, codes := [] } }
  { coreAt (kWord 0x0B 2 0 6 5 0) [] with cores := [(0, { pc := 0xA0000, a0 := a0 })] }
theorem wit_queue_join : State.atRowB joinCore 0 .stream (kWord 0x0B 2 0 6 5 0) && !State.takesB joinCore 0 0 (kWord 0x0B 2 0 6 5 0)
    && decide ((joinCore.unitQ 0 0).length < 8) = true := by decide +kernel
/-! ### Arrays, the starting and stopping of cores -/

/-- A heat runs in a job of that descriptor. -/
def heatOf (d : List Byte) (s : State) : State :=
  { s with job := { loaded := true, desc := d }, heat := { active := true, running := true } }

/-- LDS of 32 columns by 16 blocks of W16 from x5 = 0, both formats W16. -/
def ldsWord : Nat := kWord 0x0B 1 0x3E 6 5 0
/-- ARR_CTRL of array 0: both formats W16 (code 1). -/
def arrayCore (w : Nat) : State := withRegs [(arrAt 0 0, 1 * 4 + 1 * 64)] (coreAt w [])
theorem wit_lds : State.arrRowB (arrayCore ldsWord) 0 .lds ldsWord
    && !passIllegal ((arrayCore ldsWord).namedPair 0 0) (iRd ldsWord + 1) (bit ((arrayCore ldsWord).arrCtrl 0 0) 10)
    && decide (((arrayCore ldsWord).x 0 5).toNat + imageBytes ((arrayCore ldsWord).namedPair 0 0).2 (32 * 1) ≤ 0x60000)
    && !(arrayCore ldsWord).bookFault ((arrayCore ldsWord).namedPair 0 0).2 ((arrayCore ldsWord).x 0 6).toNat = true := by
  decide +kernel

/-- STREAM of one row from x5 = 0 with an active set of one W16 block. -/
def streamWord : Nat := kWord 0x0B 2 0 6 5 0
/-- That core: x5 = 8. -/
def streamCore : State :=
  let set : StatSet := { valid := true, named := 1, fmt := 1, cols := 1, depth := 1, elems := List.replicate 32 0, scales := [127] }
  let k : Core := { pc := 0xA0000, x := [0, 0, 0, 0, 0, 8], a0 := { active := set } }
  { arrayCore streamWord with cores := [(0, k)] }
theorem wit_stream : State.arrRowB streamCore 0 .stream streamWord && !(streamCore.arr 0 0).swapsFirst
    && !bit streamWord 30 && !bit (streamCore.arrCtrl 0 0) 10 && decide (tileAt (streamCore.x 0 5).toNat = none)
    && !passIllegal ((streamCore.namedPair 0 0).1, 1) 1 false && pairOk ((streamCore.pairInForce 0 0).1, 1)
    && decide ((streamCore.x 0 5).toNat % 8 = 0) && decide ((streamCore.x 0 5).toNat + imageBytes 1 1 ≤ 0x60000)
    && !streamCore.bookFault (streamCore.namedPair 0 0).1 ((streamCore.x 0 6).toNat % 2 ^ 24) = true := by decide +kernel
/-- STREAM with HANDOFF. -/
def handoffWord : Nat := streamWord + 2 ^ 30
theorem wit_stream_handoff : State.arrRowB { streamCore with mem := (arrayCore handoffWord).mem } 0 .stream handoffWord
    && bit handoffWord 30 && !(streamCore.arr 0 0).onDeck.valid = true := by decide +kernel
/-- The set is on deck: the STREAM swaps first; with none it waits at the head. -/
def firstCore (onDeck : StatSet) : State :=
  { streamCore with cores := [(0, { streamCore.core 0 with a0 := { onDeck := onDeck } })] }
theorem wit_stream_first : State.arrRowB (firstCore (streamCore.arr 0 0).active) 0 .stream streamWord
    && ((firstCore (streamCore.arr 0 0).active).arr 0 0).swapsFirst
    && ((firstCore (streamCore.arr 0 0).active).arr 0 0).onDeck.valid = true := by decide +kernel
theorem wit_stream_held : State.arrRowB (firstCore {}) 0 .stream streamWord && ((firstCore {}).arr 0 0).swapsFirst
    && !((firstCore {}).arr 0 0).onDeck.valid = true := by decide +kernel
/-- A misaligned moving image. -/
def badStream : State :=
  { streamCore with cores := [(0, { streamCore.core 0 with x := [0, 0, 0, 0, 0, 4] })] }
theorem wit_stream_bad : State.arrRowB badStream 0 .stream streamWord && !(badStream.arr 0 0).swapsFirst
    && (badStream.streamBad 0 0 { q := badStream.qins 0 streamWord, ctrl := badStream.arrCtrl 0 0 }).isSome = true := by
  decide +kernel

/-- DRAIN of bank 1 to tile 3, QSTORE of tile 2 in W16 at x5 = 0x40. -/
def drainWord : Nat := kWord 0x0B 4 0x20 0 5 0
/-- QSTORE. -/
def qstoreWord : Nat := kWord 0x0B 5 0x10 6 5 1
/-- A core with x5 as given and TROUBLE of bank 1. -/
def drainCore (w x5 trouble : Nat) : State :=
  withRegs [(arrAt 0 0 + 0xC, trouble * 16)] (coreAt w [0, 0, 0, 0, 0, BitVec.ofNat 32 x5])
theorem wit_drain : State.arrRowB (drainCore drainWord 3 0) 0 .drain drainWord && decide (bits drainWord 29 28 = 0)
    && decide (((drainCore drainWord 3 0).x 0 5).toNat = 3)
    && !(drainOut (((drainCore drainWord 3 0).arr 0 0).bank 1)).any nonFinite
    && decide ((drainCore drainWord 3 0).bankTrouble 0 0 1 = 0) = true := by decide +kernel
theorem wit_drain_trouble : State.arrRowB (drainCore drainWord 0 1) 0 .drain drainWord
    && decide ((drainCore drainWord 0 1).bankTrouble 0 0 1 ≠ 0) = true := by decide +kernel
theorem getD_zeros (n k : Nat) : (List.replicate n (0 : Word)).getD k 0 = 0 := by
  rw [List.getD_eq_getElem?_getD, List.getElem?_replicate]; split <;> rfl
theorem wit_qstore_tile : ((List.range 32).flatMap fun i => (drainCore qstoreWord 0x40 0).tileRow 0 (bits qstoreWord 30 29) i)
    = List.replicate 1024 0 := by decide +kernel
theorem wit_qstore_trouble : ((drainCore qstoreWord 0x40 0).storeImage 1 0 (List.replicate 1024 0)).1.any = false := by
  unfold State.storeImage
  simp only [getD_zeros]
  decide +kernel
theorem wit_qstore : State.arrRowB (drainCore qstoreWord 0x40 0) 0 .qstore qstoreWord && storeFmtOk (iRd qstoreWord)
    && !(drainCore qstoreWord 0x40 0).bookFault 1 0 && decide (((drainCore qstoreWord 0x40 0).x 0 5).toNat % 32 = 0)
    && decide (effFmt ((drainCore qstoreWord 0x40 0).wideOf 0 0) ((drainCore qstoreWord 0x40 0).slvStep 0) (iRd qstoreWord) = 1)
    && decide (((drainCore qstoreWord 0x40 0).x 0 5).toNat + imageBytes 1 32 ≤ 0x60000) = true := by decide +kernel

/-- A token at the head of array 1, with a full on-deck set, or an empty one. -/
def headCore (full : Bool) : State :=
  let a1 : Arr := {
    tok := some { pc := 0xA0000, bank := 1, row := 31, promo := 0, fmt := 1, scale := 127, codes := [] }
    active := { valid := true, named := 1, fmt := 1, cols := 1, depth := 1, elems := List.replicate 32 0, scales := [127] }
    onDeck := { valid := full } }
  withRegs [(ctlAt 0 + 8, 1), (ctlAt 0 + 4, 2)] { dev with cores := [(0, { a1 := a1 })] }
theorem wit_headRelease : coreOk 0 && (headCore true).coreExists 0 && (headCore true).runBit 0
    && ((headCore true).arr 0 1).tok.isSome && ((headCore true).arr 0 1).onDeck.valid
    && ([0, 1, 2].all fun u => ((headCore true).unitQ 0 u).isEmpty) = true := by decide +kernel
theorem wit_headRelease_empty : (headCore false).runBit 0 && ((headCore false).arr 0 1).tok.isSome
    && ((headCore false).arr 0 1).starved && decide ((headCore false).coreState 0 ≠ 3) = true := by decide +kernel
/-- A repeat trap of bank 1 of array 1: one that a wider format can mend, or the last. -/
def trapCore (last : Bool) : State :=
  heatOf [] (withRegs [(ctlAt 0 + 8, 1), (ctlAt 0 + 4, 2)] { dev with
    cores := [(0, { trap := some { arr := 1, bank := some 1, trouble := 1, last := last, n8 := true } })] })
theorem wit_repeatTrap : ∀ last : Bool, coreOk 0 && (trapCore last).coreExists 0 && (trapCore last).runBit 0
    && ((trapCore last).core 0).trap.any (fun q => q.last == last && decide (q.arr < 2))
    && decide ((trapCore last).coreState 0 ≠ 3) && (trapCore last).heat.running = true := by decide +kernel
theorem wit_coreRun : coreOk 15 && dev.coreExists 15 && decide (dev.coreState 15 = 0)
    && decide ((coreAt 0 []).coreState 0 = 1) = true := by decide +kernel
theorem wit_coreStop : (coreAt 0 []).coreExists 0 && decide ((coreAt 0 []).coreState 0 = 1) && (coreAt 0 []).synced 0 0x1F
    && ((coreAt 0 []).core 0).trap.isNone = true := by
  decide +kernel

/-! ### Register writes, sliver queues, gates, marks -/

/-- R155: the engine of core 0 is busy: a write to V waits. -/
def busyCore : State := { dev with cores := [(0, { vq := [{ w := 0, pc := 0, x1 := 0, x2 := 0, seq := 0 }] })] }
theorem wit_write_waits : notMemory (coreBase 0 + 0xF3080) && busyCore.outsideBusy (coreBase 0 + 0xF3080) 4
    && !dev.outsideBusy (ctlAt 0) 4 && !dev.outsideBusy (podPwrAt 0 + 0x30) 4 = true := by decide +kernel
/-- R446: a read-only, a writable and a write-one-to-clear register that the Ivory world may write. -/
theorem wit_plain_writes : ∀ q ∈ [(ctlAt 0, Fam.core, 0, Acc.ro), (ctlAt 0 + 0xC, .core, 0xC, .rw), (podPwrAt 0 + 0x30, .podPwr, 0x30, .w1c)],
    notMemory q.1 && decide (dev.agentCheck (.world .ivory) q.1 4 = .ok) && decide (famAt q.1 = some (q.2.1, q.2.2.1))
      && (Fam.def? q.2.1 q.2.2.1).any (fun d => decide (d.acc = q.2.2.2)) = true := by decide +kernel
/-- The Ivory world and a pod that the start list made Sable. -/
def sablePod : State := { dev with worlds := { pods := [0] } }
theorem wit_refused_write : notMemory (ctlAt 0) && decide (sablePod.agentCheck (.world .ivory) (ctlAt 0) 4 ≠ .ok) = true := by
  decide +kernel
theorem wit_locked_write : notMemory (lnkAt 15 + 4) && decide (famAt (lnkAt 15 + 4) = some (.lnk, 4))
    && (Fam.def? .lnk 4).any (fun d => decide (d.acc = .lk)) && dev.committed = true := by decide +kernel

/-- A sliver ring of four records. -/
def ringPod : State := withRegs [(slvAt 383 + 4, 4)] dev
theorem wit_slvTail : ((4 : Word) - ringPod.reg (slvAt 383 + 8)).toNat ≤ ringPod.regN (slvAt 383 + 4)
    ∧ ringPod.regN (slvAt 383 + 4) < ((5 : Word) - ringPod.reg (slvAt 383 + 8)).toNat := by decide +kernel

/-- A field of `n` bytes put into a descriptor of zeros. -/
def put (off n v : Nat) (l : List Byte) : List Byte := l.take off ++ leBytes n v ++ l.drop (off + n)


/-- A job descriptor of zeros but for some fields: offset, bytes, value. -/
def descOf (l : List (Nat × Nat × Nat)) : List Byte :=
  l.foldl (fun d q => put q.1 q.2.1 q.2.2 d) (List.replicate 256 0)
/-- A committed device whose regions cover HBM and the reservoir, in a heat of such a job. -/
def jobOf (l : List (Nat × Nat × Nat)) : State :=
  heatOf (descOf l) { dev with
    regions := leBytes 8 0 ++ leBytes 4 0x50000 ++ leBytes 4 1 ++ leBytes 8 0x10000000000 ++ leBytes 4 0x400 ++ leBytes 4 5 }

/-- Three laps, two gates; a gate has closed some laps. -/
def gateJob (c0 c1 : List Nat) : State :=
  { jobOf [(4, 4, 3), (0x64, 4, 0x20000)] with gates := { closed := [(0, c0), (1, c1)] } }
theorem wit_lapClose : (gateJob [0, 1, 2] [1]).heat.running = true ∧ 2 < (gateJob [0, 1, 2] [1]).laps
    ∧ 1 < (gateJob [0, 1, 2] [1]).gateCount ∧ bits (0x10002 : Word).toNat 11 0 = 2 ∧ bits (0x10002 : Word).toNat 23 16 = 1
    ∧ bit ((gateJob [0, 1, 2] [1]).regN (gateAt + 0xC)) 1 = false ∧ 2 ∉ Tab.get (gateJob [0, 1, 2] [1]).gates.closed 1 []
    ∧ (Tab.get (gateJob [0, 1, 2] [1]).gates.closed 1 []).length + 1 < (gateJob [0, 1, 2] [1]).laps := by decide +kernel
theorem wit_lapClose_last : (gateJob [0, 1, 2] [1, 0]).heat.running = true
    ∧ 2 ∉ Tab.get (gateJob [0, 1, 2] [1, 0]).gates.closed 1 []
    ∧ (Tab.get (gateJob [0, 1, 2] [1, 0]).gates.closed 1 []).length + 1 = (gateJob [0, 1, 2] [1, 0]).laps
    ∧ bit ((gateJob [0, 1, 2] [1, 0]).regN (gateAt + 0xC)) 1 = false
    ∧ ∀ k, k < (gateJob [0, 1, 2] [1, 0]).gateCount → k ≠ 1 →
      (Tab.get (gateJob [0, 1, 2] [1, 0]).gates.closed k []).length = (gateJob [0, 1, 2] [1, 0]).laps := by decide +kernel
theorem wit_lapClose_twice : 1 ∈ Tab.get (gateJob [] [1]).gates.closed 1 [] ∧ 1 < (gateJob [] [1]).laps
    ∧ 1 < (gateJob [] [1]).gateCount ∧ bit ((gateJob [] [1]).regN (gateAt + 0xC)) 1 = false := by decide +kernel
theorem wit_lapClose_fault : (gateJob [] []).laps ≤ bits (3 : Word).toNat 11 0 := by decide +kernel

/-- A lap closed for its forward passes. -/
def fwdJob (l : List Nat) : State := { gateJob [] [] with gates := { fwd := l } }
theorem wit_fwdClose : (fwdJob [0]).heat.running = true ∧ 2 < (fwdJob [0]).laps ∧ 2 ∉ (fwdJob [0]).gates.fwd
    ∧ (fwdJob [0]).gates.fwd.length + 1 ≠ (fwdJob [0]).laps ∧ (fwdJob [0, 1]).gates.fwd.length + 1 = (fwdJob [0, 1]).laps
    ∧ 2 ∉ (fwdJob [0, 1]).gates.fwd ∧ 0 ∈ (fwdJob [0]).gates.fwd := by decide +kernel

/-- A prefetch table of one entry, PHASE 1, LAYER 7, at HBM 0x10000; marks as given. -/
def markJob (m0 m1 : Option Nat) : State :=
  withMem 0x10000 (leBytes 4 0x1007)
    { jobOf [(0xA0, 8, 0x10000), (0xA8, 4, 1)] with pool := { mark0 := m0, mark1 := m1 } }
theorem wit_mark : (markJob (some 5) none).heat.running = true ∧ bits (0x1007 : Word).toNat 14 12 = 1
    ∧ (∀ m, (markJob (some 5) none).pool.mark1 = some m → m ≤ 7) ∧ (markJob (some 5) none).pfCount = 1
    ∧ bits ((markJob (some 5) none).word ((markJob (some 5) none).pfAddr 0) 4) 14 12 = 1
    ∧ bits ((markJob (some 5) none).word ((markJob (some 5) none).pfAddr 0) 4) 11 0 ≤ 7 := by
  refine ⟨by decide +kernel, by decide +kernel, fun m h => ?_, by decide +kernel, by decide +kernel, by decide +kernel⟩
  exact absurd h (by simp [markJob, withMem])
theorem wit_mark_lower : (markJob (some 5) none).pool.mark0 = some 5 ∧ bits (4 : Word).toNat 14 12 = 0
    ∧ bits (4 : Word).toNat 11 0 < 5 := by decide +kernel

/-- Ceilings of 3 units for every client, a floor of 1 for PREFETCH; a prefetch entry of 2 units at 0x10000, copied from HBM
0x200000; a stash table of one layer of one unit and one unit of STASH_HBM; a request waits. -/
def poolAsk (r : PoolReq) : State :=
  let j := jobOf [(4, 4, 1), (0x3C, 4, 1), (0x40, 8, 0xC0000), (0x48, 4, 1), (0x50, 8, 0xD0000), (0x60, 4, 4), (0x90, 2, 1), (0x92, 2, 3),
    (0x96, 2, 3), (0x9A, 2, 3), (0x9E, 2, 3), (0xA0, 8, 0x10000), (0xA8, 4, 1)]
  let j := withMem 0xC0000 (leBytes 4 65536 ++ leBytes 4 64) (withMem 0x10004 (leBytes 4 (2 * 65536) ++ leBytes 8 0x200000) j)
  { j with pool := { reqs := [r] }, stash := { slots := [(0, { full := true })] } }
/-- The requests of the four clients. -/
def askOf (c : Nat) (us : List Nat) : PoolReq := { client := c, source := 0, n := 0, us := us, key := 0, tick := 0 }

/-- With the whole reservoir in one region of the job, no entry and no unit named for SCRATCH, every unit is open. -/
theorem poolOpen_all {s : State} {c : Nat}
    (hr : (s.regionList.filter fun r => bit r.2.2 2 && (bit r.2.2 1 == (s.job.world == .sable))) = [(0x10000000000, 0x80000000, 5)])
    (hn : s.pool.near = []) (hs : s.scratchNamed = []) : s.poolOpen c [] = List.range 32768 := by
  unfold State.poolOpen State.poolUnits
  simp only [hr, hs, ite_self, List.flatMap_nil, List.isEmpty_cons, Bool.false_eq_true, if_false, List.filter_filter]
  refine List.filter_eq_self.2 fun u hu => ?_
  have : u < 32768 := List.mem_range.1 hu
  have hd : (0x10000000000 ≤ 0x10000000000 + u * 65536 ∧ 0x10000000000 + u * 65536 < 0x10000000000 + 0x80000000) := by omega
  simp [regionAt, hn, hd]
/-- Then a request that its ceiling allows needs no eviction. -/
theorem poolTrial_all {s : State} {c n : Nat} (ho : s.poolOpen c [] = List.range 32768) (he : s.pool.ents = [])
    (hc : s.poolUsed c + n ≤ s.poolCeil c) (hh : n + s.poolHeld c ≤ 32768) : s.poolTrial c n = some [] := by
  unfold State.poolTrial
  rw [if_neg (by omega), he, ho, List.length_range]
  simp only [List.filter_nil, List.foldr_nil, evictTrial]
  rw [if_pos (by omega)]
theorem poolPlaces_all {s : State} {c n : Nat} (ho : s.poolOpen c [] = List.range 32768) (he : s.pool.ents = []) (hc : c ≠ 2)
    (h0 : n ≠ 0) (hn : n ≤ 32768) : s.poolPlaces c n [] ((List.range 32768).take n) := by
  unfold State.poolPlaces placeUnits
  rw [he, List.filter_nil, ho, if_neg h0, if_neg hc, List.length_range, if_neg (by omega)]
theorem wit_poolGrant {c n : Nat} (h : (c, n) ∈ [(0, 2), (1, 1), (3, 1)]) : (poolAsk (askOf c [5])).poolNext = some (askOf c [5])
    ∧ (poolAsk (askOf c [5])).poolTrial c n = some []
    ∧ (poolAsk (askOf c [5])).poolPlaces c n [] ((List.range 32768).take n) := by
  have hu : ∀ q ∈ [(0, 2), (1, 1), (3, 1)], (poolAsk (askOf q.1 [5])).poolUsed q.1 + q.2 ≤ (poolAsk (askOf q.1 [5])).poolCeil q.1
      ∧ q.2 + (poolAsk (askOf q.1 [5])).poolHeld q.1 ≤ 32768 ∧ q.1 ≠ 2 ∧ q.2 ≠ 0 ∧ q.2 ≤ 32768
      ∧ ((poolAsk (askOf q.1 [5])).regionList.filter fun r => bit r.2.2 2
          && (bit r.2.2 1 == ((poolAsk (askOf q.1 [5])).job.world == .sable))) = [(0x10000000000, 0x80000000, 5)]
      ∧ (poolAsk (askOf q.1 [5])).scratchNamed = [] := by decide +kernel
  obtain ⟨h1, h2, h3, h4, h5, h6, h7⟩ := hu (c, n) h
  have ho := poolOpen_all (c := c) h6 rfl h7
  exact ⟨rfl, poolTrial_all ho rfl h1 h2, poolPlaces_all ho rfl h3 h4 h5⟩
theorem wit_poolGrant_sizes : (poolAsk (askOf 0 [])).word ((poolAsk (askOf 0 [])).pfAddr 0 + 4) 4 / 65536 = 2
    ∧ (poolAsk (askOf 1 [])).slotUnitsOf 0 = 1 ∧ (poolAsk (askOf 1 [])).stash.slots = [(0, { full := true })]
    ∧ ((askOf 3 [5]).us.eraseDups.filter fun x => !(poolAsk (askOf 3 [5])).pool.near.contains x && !(poolAsk (askOf 3 [5])).scratchHeld.contains x)
      = [5] := by decide +kernel
/-- Every client has used its ceiling. -/
def poolFull (c : Nat) (us : List Nat) : State :=
  { poolAsk (askOf c us) with pool := { reqs := [askOf c us], ents := [{ id := 0, client := c, us := [0, 1, 2], flags := 0, age := none, tag := 9 }] } }
theorem wit_poolGrant_refused : ∀ q ∈ [(0, 2), (1, 1), (2, 1), (3, 1)], (poolFull q.1 [5]).poolTrial q.1 q.2 = none := by decide +kernel
theorem wit_poolGrant_idle : ({ poolAsk (askOf 0 []) with pool := {} } : State).poolNext = none
    ∧ (poolAsk (askOf 3 [])).poolNext = some (askOf 3 []) := by decide +kernel
/-- Entry 1 of the table fills two units from HBM 0x200000; `bad` sectors there. -/
def fillJob (bad : List Nat) : State :=
  { poolAsk (askOf 0 []) with
    badEcc := bad, pool := { ents := [{ id := 0, client := 0, us := [0, 1], flags := 0, age := none, tag := 1, src := 0x200000, len := 0x20000 }] } }
/-- That entry. -/
def fillEnt : PoolEnt := { id := 0, client := 0, us := [0, 1], flags := 0, age := none, tag := 1, src := 0x200000, len := 0x20000 }
theorem wit_fill : (fillJob []).filling (1 % 4) = some fillEnt ∧ (fillJob []).fillSt fillEnt = .ok
    ∧ fillEnt.us.Nodup ∧ (fillJob [0x200000]).fillSt fillEnt ≠ .ok ∧ (fillJob []).filling (2 % 4) = none := by decide +kernel


/-! ### Gradient path, sweep -/

/-- One home of tensor 0, TILE 0, at HBM 0x30000; a scale book of 4 entries at 0x40000; the tensor has one row of one element; two
shards: of unit 0 with OPT 0x01 and of unit 15 with OPT 0x04; `w` is the first weight's code. -/
def sweepJob (w : Nat) : State :=
  let j := jobOf [(4, 4, 3), (0x18, 8, 0x40000), (0x20, 4, 4), (0x24, 4, 1), (0x28, 8, 0x20000), (0x64, 4, 0x20002), (0x68, 8, 0x50000),
    (0x70, 8, 0x70000), (0x78, 8, 0x80000), (0x80, 8, 0x10000100000), (0x88, 8, 0xB0000)]
  let j := withMem 0x20008 (leBytes 6 0x30000) j
  let j := withMem 0x40080 (leBytes 3 1) j
  let j := withMem 0x40018 (leBytes 8 1) j
  let j := withMem 0x50000 (leBytes 4 0 ++ leBytes 4 1 ++ leBytes 8 0 ++ leBytes 8 32 ++ leBytes 8 0x60000 ++ leBytes 8 0x61000
    ++ leBytes 8 0 ++ leBytes 8 0x62000 ++ leBytes 8 0x10000000000) j
  let j := withMem 0x50040 (leBytes 4 (15 * 2 ^ 24) ++ leBytes 4 4 ++ leBytes 8 0 ++ leBytes 8 1 ++ leBytes 8 0x63000 ++ leBytes 8 0
    ++ leBytes 8 0x64000 ++ leBytes 8 0x65000 ++ leBytes 8 0x10000001000) j
  withMem 0x60000 (leBytes 2 w) (withMem 0x80000 (leBytes 8 0x90000 ++ leBytes 4 9) j)
/-- That job after BWD. -/
def gradJob : State := { sweepJob 0 with heat := { (sweepJob 0).heat with bwdDone := true } }
/-- The values of a row of the home. -/
def gradRow (r : Nat) : List FVal := (List.range 32).map fun c => match gradJob.tileElem (gradJob.homeTensor 0) (gradJob.homeTile 0) r c with
  | some e => if gradJob.frozen (gradJob.homeTensor 0) e then FVal.fin false 0 0
      else f32Val (BitVec.ofNat 32 (gradJob.word (gradJob.homeAddr 0 + 4 * (32 * r + c)) 4))
  | none => FVal.fin false 0 0
theorem wit_homeRead : gradJob.heat.running = true ∧ gradJob.heat.voids = [] ∧ gradJob.heat.bwdDone = true
    ∧ 0 < gradJob.jobF 0x24 4 ∧ 0 ∉ gradJob.gates.homesRead
    ∧ gradJob.checkRead (gradJob.edgeWorld 0) (gradJob.homeAddr 0) 4096 = .ok ∧ gradJob.sbOk (gradJob.homeTensor 0 + 1) = true := by
  decide +kernel
theorem wit_homeRead_rows : ∀ r, r < 32 → (quantiseBlock 3 (gradJob.sbTexp (gradJob.homeTensor 0 + 1))
    (some (gradJob.sbHead (gradJob.homeTensor 0 + 1))) (gradRow r)).trouble.stops = false := by decide +kernel
/-- The home's first element is an infinity. -/
def infJob : State := withMem 0x30000 (leBytes 4 0x7F800000) gradJob
theorem wit_homeRead_trouble : (quantiseBlock 3 (infJob.sbTexp (infJob.homeTensor 0 + 1)) (some (infJob.sbHead (infJob.homeTensor 0 + 1)))
    ((List.range 32).map fun c => match infJob.tileElem (infJob.homeTensor 0) (infJob.homeTile 0) 0 c with
      | some e => if infJob.frozen (infJob.homeTensor 0) e then FVal.fin false 0 0
          else f32Val (BitVec.ofNat 32 (infJob.word (infJob.homeAddr 0 + 4 * c) 4))
      | none => FVal.fin false 0 0)).trouble.stops = true := by decide +kernel
/-- A sector of the home cannot be corrected. -/
theorem wit_homeRead_fails : ({ gradJob with badEcc := [0x30000] } : State).checkRead (gradJob.edgeWorld 0) (gradJob.homeAddr 0) 4096 ≠ .ok := by
  decide +kernel
/-- The home has been read; entry 2 of the book belongs to amax group 7. -/
def amaxJob : State := withMem 0x4010A (leBytes 2 7) { gradJob with gates := { homesRead := [0] } }
theorem wit_amax : (∀ k, k < amaxJob.jobF 0x24 4 → k ∈ amaxJob.gates.homesRead) ∧ amaxJob.heat.running = true
    ∧ amaxJob.heat.voids = [] ∧ amaxJob.heat.bwdDone = true ∧ 7 ∉ amaxJob.sweep.amaxDone ∧ 2 < amaxJob.jobF 0x20 3
    ∧ amaxJob.word (amaxJob.sbAddr 2 + 0xA) 2 = 7 := by decide +kernel

/-- Shard 0 is present. -/
def shardJob : State := { sweepJob 0 with sweep := { present := [0] } }
/-- The ranges that its start reads. -/
def startRanges (s : State) : List (Nat × Nat) := [(s.jobA 0x70, 1024), (s.sbAddr 0, 128 * s.jobF 0x20 3)]
theorem wit_sweepPhase : shardJob.sweepDue = true ∧ shardJob.sweepCheck 0 (startRanges shardJob) [] = none
    ∧ (({ shardJob with badEcc := [0x70000] } : State).sweepCheck 0 (startRanges shardJob) []).isSome = true := by decide +kernel
/-- Its SWEEP phase has begun, with some shards present. -/
def begunJob (l : List Nat) : State := { shardJob with heat := { shardJob.heat with sweepBegun := true }, sweep := { present := l } }
theorem wit_shardStart : ∀ q ∈ [(0, 0), (15, 1)], (begunJob [0, 1]).unitFree q.1 = true ∧ (begunJob [0, 1]).nextShard q.1 = some q.2
    ∧ ((begunJob [0, 1]).twin.pulls.any fun p => p.idx == q.2) = false ∧ q.2 ∉ (begunJob [2]).sweep.present
    ∧ ((begunJob [0, 1]).shOpt q.2 = 4 ↔ q.2 = 1) := by decide +kernel
theorem wit_shardStart_cursor : (begunJob [0, 1]).sweepCheck 0 [] [(begunJob [0, 1]).cursorRange 0] = none
    ∧ (({ begunJob [0, 1] with regions := [] } : State).sweepCheck 0 [] [(begunJob [0, 1]).cursorRange 0]).isSome = true := by
  decide +kernel

/-- Unit `u` sweeps index `i` with STATE `st`. -/
def unitJob (w u i st : Nat) : State :=
  withRegs [(swpAt u, st)] { sweepJob w with sweep := { present := [0, 1], units := [(u, { cur := some i })] } }
theorem wit_factorPass : ((unitJob 0 15 1 2).unit 15).cur = some 1 ∧ (unitJob 0 15 1 2).unitRuns = true
    ∧ (unitJob 0 15 1 2).unitState 15 = 2
    ∧ (unitJob 0 15 1 2).sweepCheck 15 ((unitJob 0 15 1 2).factorReads 1)
        [(unitJob 0 15 1 2).slotRange 15 (ceilDiv ((unitJob 0 15 1 2).shRows 1 + (unitJob 0 15 1 2).shCols 1) 32), (unitJob 0 15 1 2).cursorRange 1] = none
    ∧ ∀ k, k < (unitJob 0 15 1 2).shBlocks 1 → ((unitJob 0 15 1 2).gradStage 1 k).trouble.stops = false := by decide +kernel
/-- The reduced gradient of shard 1 is an infinity. -/
def infShard : State := withMem 0x10000001000 (leBytes 4 0x7F800000) (unitJob 0 15 1 2)
theorem wit_factorPass_trouble : (infShard.gradStage 1 0).trouble.stops = true ∧ 0 < infShard.shBlocks 1 := by decide +kernel
theorem wit_factorPass_fails : (({ unitJob 0 15 1 2 with regions := [] } : State).sweepCheck 15 ((unitJob 0 15 1 2).factorReads 1)
    [(unitJob 0 15 1 2).cursorRange 1]).isSome = true := by decide +kernel
theorem wit_sweepBlock : ((unitJob 0 0 0 3).unit 0).cur = some 0 ∧ (unitJob 0 0 0 3).unitState 0 = 3 ∧ (unitJob 0 0 0 3).unitRuns = true
    ∧ (unitJob 0 0 0 3).mirrorOpen 0 = true ∧ (unitJob 0 0 0 3).cursorLo 0 = 0
    ∧ (unitJob 0 0 0 3).sweepCheck 0 ((unitJob 0 0 0 3).blockRanges 0 0 true) ((unitJob 0 0 0 3).blockWrites 0 0 0) = none
    ∧ ((unitJob 0 0 0 3).blockOut 0 0 ((unitJob 0 0 0 3).gradStage 0 0)).trouble.stops = false := by decide +kernel
/-- Shard 0 has two blocks, apart from all that the sweep writes. -/
def twoBlocks : State := withMem 0x50010 (leBytes 8 64) (unitJob 0 0 0 3)
theorem wit_sweepBlock_more : 0 + 1 < twoBlocks.shBlocks 0 ∧ twoBlocks.blockApart 0 0 0 ∧ twoBlocks.twin.recs = [] ∧ twoBlocks.sweep.made = []
    ∧ twoBlocks.heat.sweepDone = false := by unfold State.blockApart apart; decide +kernel
/-- The weight is an infinity. -/
theorem wit_sweepBlock_trouble :
    ((unitJob 0x7F80 0 0 3).blockOut 0 0 ((unitJob 0x7F80 0 0 3).gradStage 0 0)).trouble.stops = true := by decide +kernel
theorem wit_sweepBlock_fails :
    (({ unitJob 0 0 0 3 with badEcc := [0x60000] } : State).sweepCheck 0 ((unitJob 0 0 0 3).blockRanges 0 0 true) []).isSome = true := by
  decide +kernel
/-- Both units have finished their shards. -/
def endJob : State :=
  { begunJob [0, 1] with sweep := { present := [0, 1], units := [(0, { finished := [0] }), (15, { finished := [1] })] } }
theorem wit_book : endJob.bookReady = true ∧ endJob.sweepPaused = false ∧ endJob.bookClear := by
  unfold State.bookClear apart; decide +kernel
theorem wit_book_fails : ({ endJob with regions := leBytes 8 0 ++ leBytes 4 0x50000 ++ leBytes 4 3 } : State).check .ivory (endJob.slotRange 0 1).1 192 ≠ .ok
    ∧ 0 < endJob.jobF 0x20 3 ∧ endJob.bookFrozen 0 = false ∧ (endJob.bookEntry 0).bytes (endJob.sbAddr 0) 128 ≠ endJob.bytes (endJob.sbAddr 0) 128 := by
  decide +kernel

/-! ### Heats -/

/-- A job whose next attempt is due; a stash of 2 layers with room for one of them. -/
def dueJob : State :=
  let j := withMem 0xC0000 (leBytes 4 65536 ++ leBytes 4 64 ++ leBytes 4 65536 ++ leBytes 4 64)
    (jobOf [(4, 4, 2), (0x3C, 4, 2), (0x40, 8, 0xC0000), (0x48, 4, 1), (0x60, 4, 4)])
  { j with heat := { active := true, num := 8 } }
theorem wit_attemptStart : dueJob.attemptDue = true ∧ dev.attemptDue = false := by decide +kernel
theorem wit_stashWalk : ({ dueJob with heat := { running := true } } : State).walkDue ≠ []
    ∧ ({ dueJob with heat := { running := true } } : State).fwdFirst = false ∧ dueJob.stashLayers = 2 := by decide +kernel

/-- Two faults, the first stamped 4; nothing of the heat stands beyond. -/
def faultJob : State :=
  { jobOf [] with
    now := 9
    heat := { active := true, running := true, num := 3, voids := [VoidFault.mk 7 0x8000 0x0206 false, VoidFault.mk 4 0x8001 0x0302 false] } }
theorem wit_heatVoid : faultJob.heat.running = true ∧ faultJob.firstFault = some (VoidFault.mk 4 0x8001 0x0302 false)
    ∧ faultJob.voidDue = true ∧ faultJob.pst = 0 := by decide +kernel
/-- A rollback. -/
def rollJob (stop : Bool) : State := { jobOf [] with heat := { active := true, rolling := !stop, stopNow := stop, num := 3, attempt := 1 } }
theorem wit_rollback : (rollJob false).heat.rolling = true ∧ (rollJob false).shuBusy = false
    ∧ (rollJob false).heat.stopNow = false ∧ (rollJob false).heat.attempt < 2 ∧ (rollJob false).lostIdx = [] := by decide +kernel
/-- The third attempt is rolled back. -/
theorem wit_rollback_third : 2 ≤ ({ rollJob false with heat := { active := true, rolling := true, attempt := 2 } } : State).heat.attempt := by
  decide +kernel
/-- The scale book is lost; the device has a twin, of node 1. -/
def lostRoll : State := { rollJob false with twin := { lost := [0], node := 1, pairing := 1 } }
theorem wit_rollback_lost : lostRoll.shuBusy = false ∧ lostRoll.twin.lost = [0] ∧ lostRoll.twin.lostAt = []
    ∧ lostRoll.twin.node ∈ (lostRoll.sweepReset true).partners 0 := by decide +kernel
theorem wit_rollback_stop : (rollJob true).heat.rolling = false ∧ (rollJob true).heat.active = true
    ∧ (rollJob true).heat.running = false ∧ (rollJob true).heat.stopNow = true ∧ (rollJob true).heat.parkAsked = false := by decide +kernel
/-- A heat whose commit tick is reached, with two heats left. -/
def commitJob : State :=
  { jobOf [] with now := 9, heat := { active := true, running := true, num := 3, left := 2, finish := some 9 } }
theorem wit_commit : commitJob.commitDue = some 9 ∧ commitJob.heat.stopping = false ∧ commitJob.heat.stopNow = false
    ∧ commitJob.twin.stopAsked = false ∧ commitJob.heat.num ≠ 0xFFFFFFFF ∧ 2 ≤ commitJob.heat.left := by decide +kernel
/-- The progress timer has run out; a port of the job trains and holds the attempt. -/
def lateJob (held : Bool) : State :=
  let j := withRegs [(safAt 0 + 0x20, 9), (lnkAt 3, 1)] { jobOf [] with now := 9 }
  { j with heat := { active := true, running := true, held := held } }
theorem wit_progress : (lateJob false).heat.running = true ∧ (lateJob false).reg64 (safAt (lateJob false).actHub + 0x20) = 9
    ∧ (lateJob false).now.toNat = 9 ∧ (lateJob false).heat.held = false := by decide +kernel
/-- A host buffer and a stream at section `n` of a baton of no entries. -/
def streamJob (n : Nat) : State := { jobOf [] with twin := { stream := some (7, n), hostBuf := some (0x1000, 0x2000) } }
theorem wit_batonStream : (streamJob 2).twin.stream = some (7, 2) ∧ (streamJob 2).twin.hostBuf = some (0x1000, 0x2000)
    ∧ (streamJob 2).job.batonCount + 1 < 2 := by decide +kernel

/-! ### Shuttles -/

/-- A descriptor of zeros but for some fields. -/
def shuDesc (l : List (Nat × Nat × Nat)) : List Byte :=
  l.foldl (fun d q => put q.1 q.2.1 q.2.2 d) (List.replicate 64 0)
/-- Source `x` has it in execution, with ticket 4; its record waits. -/
def shuJob (x : ShuSrc) (d : List Byte) : State :=
  { jobOf [] with
    shu := [(x.key, { active := some { bytes := d, ticket := 4, noheat := true, heat := 0, attempt := 0 } })]
    cqs := [((x.queue d).key, [RecSlot.mk x.key x.num 4 (dTag d) false true 0 0 none false])] }
/-- The descriptor in execution. -/
def theDesc (d : List Byte) : Desc := { bytes := d, ticket := 4, noheat := true, heat := 0, attempt := 0 }
/-- COPY, TRANSPOSE, GATHER and SCATTER of one row of 5 from 0x1000 to the end of HBM, the index list at 0x2000; IMM of 8 bytes. -/
def copyDesc : List Byte := shuDesc [(0, 4, 0x22000), (0xC, 4, 5), (0x10, 8, 0x1000), (0x18, 8, 0x9FFFFFFFFB), (0x20, 4, 1)]
/-- TRANSPOSE. -/
def trnDesc : List Byte := shuDesc [(0, 4, 0x44003), (0xC, 4, 5), (0x10, 8, 0x1000), (0x18, 8, 0x3000), (0x20, 4, 1), (0x28, 4, 8)]
/-- GATHER. -/
def gatDesc : List Byte :=
  shuDesc [(0, 4, 0x22001), (0xC, 4, 5), (0x10, 8, 0x1000), (0x18, 8, 0x3000), (0x20, 4, 1), (0x24, 4, 16), (0x30, 8, 0x2000)]
/-- SCATTER. -/
def scaDesc : List Byte :=
  shuDesc [(0, 4, 0x22002), (0xC, 4, 5), (0x10, 8, 0x1000), (0x18, 8, 0x3000), (0x20, 4, 1), (0x28, 4, 16), (0x30, 8, 0x2000)]
/-- IMM. -/
def immDesc : List Byte := shuDesc [(0, 4, 4), (0xC, 4, 8), (0x18, 8, 0x9FFFFFFFF8), (0x20, 4, 1), (0x30, 8, 0x1122334455667788)]
theorem wit_copy : (shuJob (.bulk 3 7) copyDesc).movesPlain (.bulk 3 7) (theDesc copyDesc) 0
    ∧ (shuJob (.bulk 3 7) copyDesc).shuReads (.bulk 3 7) 0x1000 5 ∧ (shuJob (.bulk 3 7) copyDesc).shuWrites (.bulk 3 7) 0x9FFFFFFFFB 5
    ∧ dY copyDesc = 1 ∧ dSw copyDesc = 8 ∧ dDw copyDesc = 8 := by
  unfold State.movesPlain State.shuReads State.shuWrites; decide +kernel
theorem wit_transpose : (shuJob (.pod 383 17) trnDesc).movesPlain (.pod 383 17) (theDesc trnDesc) 3
    ∧ (shuJob (.pod 383 17) trnDesc).shuReads (.pod 383 17) 0x1000 20 ∧ (shuJob (.pod 383 17) trnDesc).shuWrites (.pod 383 17) 0x3000 40
    ∧ dY trnDesc = 1 ∧ dSw trnDesc = 32 ∧ dDw trnDesc = 32 ∧ 4 ≤ dDp trnDesc := by
  unfold State.movesPlain State.shuReads State.shuWrites; decide +kernel
/-- Index 2. -/
def idxJob (d : List Byte) : State := withMem 0x2000 (leBytes 4 2) (shuJob (.pod 0 0) d)
theorem wit_gather : (idxJob gatDesc).movesPlain (.pod 0 0) (theDesc gatDesc) 1 ∧ (idxJob gatDesc).shuReads (.pod 0 0) 0x2000 4
    ∧ (idxJob gatDesc).word (fld gatDesc 0x30 6) 4 = 2 ∧ (idxJob gatDesc).shuReads (.pod 0 0) (0x1000 + 2 * dSp gatDesc) 5
    ∧ (idxJob gatDesc).shuWrites (.pod 0 0) 0x3000 5 ∧ apart (fld gatDesc 0x30 6, 4) (0x3000, 5) := by
  unfold State.movesPlain State.shuReads State.shuWrites apart; decide +kernel
theorem wit_scatter : (idxJob scaDesc).movesPlain (.pod 0 0) (theDesc scaDesc) 2 ∧ (idxJob scaDesc).shuReads (.pod 0 0) 0x2000 4
    ∧ (idxJob scaDesc).word (fld scaDesc 0x30 6) 4 = 2 ∧ (idxJob scaDesc).shuReads (.pod 0 0) 0x1000 5
    ∧ (idxJob scaDesc).shuWrites (.pod 0 0) (0x3000 + 2 * dDp scaDesc) 5 := by
  unfold State.movesPlain State.shuReads State.shuWrites; decide +kernel
theorem wit_imm : (shuJob (.bulk 0 0) immDesc).movesPlain (.bulk 0 0) (theDesc immDesc) 4
    ∧ (shuJob (.bulk 0 0) immDesc).shuWrites (.bulk 0 0) (fld immDesc 0x18 6) (dX immDesc) := by
  unfold State.movesPlain State.shuWrites; decide +kernel

/-- Queue `q`, enabled, of 16 records at HBM 0x8000, TAIL as given, one record with its outcome or none. -/
def cqJob (q : CqId) (tail : Nat) (o : Option (Nat × Nat × Nat)) : State :=
  withRegs [(cqAt q, 0x8000), (cqAt q + 8, 4), (cqAt q + 0x14, 1), (cqAt q + 0xC, tail)]
    { jobOf [] with cqs := [(q.key, [RecSlot.mk 10031 0 4 7 false true 0 0 o false])] }
theorem wit_record : ∀ q ∈ [CqId.pod 383 15, .edge 3 7], q.wf && !(cqJob q 15 (some (0, 0, 5))).cqFull q
    && (cqJob q 15 (some (0, 0, 5))).cqOn q
    && decide ((cqJob q 15 (some (0, 0, 5))).recs q = [RecSlot.mk 10031 0 4 7 false true 0 0 (some (0, 0, 5)) false])
    && decide ((cqJob q 15 none).recs q = [RecSlot.mk 10031 0 4 7 false true 0 0 none false])
    && decide ((cqJob q 15 none).recAddr q ((cqJob q 15 none).regN (cqAt q + 0xC)) = 0x8000 + 32 * 15)
    && decide ((cqJob q 15 none).check ((cqJob q 15 none).srcWorld (srcOfKey 10031)) (0x8000 + 32 * 15) 32 = .ok)
    && (cqJob q 16 (some (0, 0, 5))).cqFull q
    && decide ((cqJob q 16 none).check ((cqJob q 16 none).srcWorld (srcOfKey 10031)) 0x8000 32 = .ok)
    && decide (({ cqJob q 15 none with regions := [] } : State).check .ivory (0x8000 + 32 * 15) 32 ≠ .ok)
    && !(withRegs [(cqAt q + 0x14, 0)] (cqJob q 15 none)).cqOn q = true := by
  decide +kernel
/-- CQ_HEAD: TAIL 5, HEAD 0: 5 is taken, 6 is not. CQ_ENABLE: a queue that is off. -/
theorem wit_cq : ∀ q ∈ [CqId.pod 383 15, .edge 3 7],
    decide (((5 : Word) - (cqJob q 5 none).reg (cqAt q + 0x10)).toNat
        ≤ ((cqJob q 5 none).reg (cqAt q + 0xC) - (cqJob q 5 none).reg (cqAt q + 0x10)).toNat)
    && decide (((cqJob q 5 none).reg (cqAt q + 0xC) - (cqJob q 5 none).reg (cqAt q + 0x10)).toNat
        < ((6 : Word) - (cqJob q 5 none).reg (cqAt q + 0x10)).toNat)
    && !(withRegs [(cqAt q + 8, 16)] dev).cqOn q && decide ((withRegs [(cqAt q + 8, 16)] dev).regN (cqAt q + 8) % 32 = 16)
    && !q.badVector 1 && decide ((withRegs [(cqAt q + 8, 3)] dev).regN (cqAt q + 8) % 32 < 4) = true := by decide +kernel

/-- List port 1 of pod 383 with some heads; its queue 0 is on. -/
def listJob (heads : List Nat) : State :=
  withRegs [(cqAt (.pod 383 0) + 0x14, 1)] { jobOf [] with shu := [((ShuSrc.pod 383 17).key, { heads := heads })] }
theorem wit_listPush : ((listJob [64, 0, 0]).src (.pod 383 17)).heads.length < 4
    ∧ 4 ≤ ((listJob [64, 0, 0, 0]).src (.pod 383 17)).heads.length ∧ bit (0x80000000 : Word).toNat 31 = true
    ∧ (((1 : Nat) == 0) && (listJob []).pfJob) = false := by decide +kernel
theorem wit_listFetch : (listJob [64, 0]).regN pwrAt % 8 = 0 ∧ ((listJob [64, 0]).src (.pod 383 17)).active = none
    ∧ (listJob [64, 0]).stalled (.pod 383 17) = false ∧ (listJob [64, 0]).podDark 383 = false
    ∧ ((listJob [64, 0]).src (.pod 383 17)).cur = none ∧ ((listJob [64, 0]).src (.pod 383 17)).heads = [64, 0]
    ∧ (listJob [64, 0]).checkRead ((listJob [64, 0]).podWorld 383) 64 64 = .ok
    ∧ (listJob [64, 0]).recRefused (.pod 383 17) ((ShuSrc.pod 383 17).queue ((listJob [64, 0]).bytes 64 64)) = false := by
  decide +kernel
/-- Bulk channel 7 of ED3, armed or not. -/
def bulkJob (a : Option (List Byte)) : State :=
  withRegs [(cqAt (.edge 3 0) + 0x14, 1)] { jobOf [] with shu := [((ShuSrc.bulk 3 7).key, { armed := a })] }
theorem wit_bulk : (bulkJob none).rsvPf 3 7 = false ∧ ((bulkJob none).src (.bulk 3 7)).armed = none
    ∧ (bulkJob (some copyDesc)).rsvPf 3 7 = false ∧ ((bulkJob (some copyDesc)).src (.bulk 3 7)).armed = some copyDesc
    ∧ (bulkJob (some copyDesc)).regN pwrAt % 8 = 0 ∧ ((bulkJob (some copyDesc)).src (.bulk 3 7)).active = none
    ∧ (bulkJob (some copyDesc)).stalled (.bulk 3 7) = false
    ∧ (bulkJob (some copyDesc)).recRefused (.bulk 3 7) ((ShuSrc.bulk 3 7).queue copyDesc) = false := by decide +kernel
/-- The scrubber is at offset 0x2000 of stack 7; that sector has one bad symbol, or is beyond correction. -/
def scrubJob (soft bad : List Nat) : State :=
  { jobOf [] with soft := soft, badEcc := bad, scrub := { next := [(7, 0x2000)] } }
theorem wit_scrub : Tab.get (scrubJob [] []).scrub.next 7 0 = 0x2000 ∧ (scrubJob [] []).stackAddr 7 0x2000 = 0x17000
    ∧ (scrubJob [] []).pins.powered = true ∧ (scrubJob [0x17000] []).pins.powered = true ∧ (scrubJob [] [0x17000]).heat.running = true ∧ 0x2000 + 32 < stackBytes
    ∧ (∀ b ∈ (scrubJob [] []).soft, 0x17000 + 32 ≤ b ∨ b + eccSize b ≤ 0x17000)
    ∧ (scrubJob [] [0x17000]).committed = true ∧ (scrubJob [] [0x17000]).retired.length < 16384 := by decide +kernel

/-! ### Links -/

/-- Port `p` with STATE `st`, MODE 1. -/
def portDev (p st : Nat) (x : Port) : State :=
  { withRegs [(lnkAt p, 1), (lnkAt p + 8, st)] dev with now := 60000000, ports := [(p, x)] }
theorem wit_portTrain : (portDev 15 0 {}).committed = true ∧ (portDev 15 0 {}).linkMode 15 ≠ 0 ∧ (portDev 15 0 {}).holdDown 15 = false
    ∧ ∀ st, st < 7 → (portDev 15 st {}).linkState 15 = st := by decide +kernel
theorem wit_trainTimeout : 50000000 ≤ ((portDev 15 1 {}).now - ((portDev 15 1 {}).port 15).since).toNat := by decide +kernel

/-- The flit with some bytes. -/
def flitOf (b : List Byte) : Flit := { bits := BitVec.ofNat 2048 (leNat b) }
/-- A TRAIN payload of version 1, width 1, with OK or not and byte 0x10 as given. -/
def trainBytes (ok : Bool) (v : Nat) : List Byte :=
  leBytes 4 (0x10010 + b2n ok * 2 ^ 28) ++ leBytes 4 5 ++ leBytes 8 0x0003000300030003 ++ leBytes 1 v ++ List.replicate 227 0
/-- LLT with seven equal flits behind it. -/
def trainDev (v : Nat) : State := portDev 15 3 { train := trainBytes false v, same := 7 }
/-- A flit that the device could have made is what it carries. -/
theorem flitOf_mk (k vc seq ack : Nat) (nak : Bool) (p : List Byte) :
    flitBytes (flitOf (mkFlit k vc seq ack nak p)) = mkFlit k vc seq ack nak p :=
  flitBytes_ofNat _ (mkFlit_length ..) _ _ _
/-- It passes its check. -/
theorem flitOf_good (k vc seq ack : Nat) (nak : Bool) (p : List Byte) (hk : k < 4) (ha : ack < 4096) (hs : seq < 4096) (hv : vc < 4)
    (hd : k = 1 ∨ (vc = 0 ∧ seq = 0)) : flitCheck (flitOf (mkFlit k vc seq ack nak p)) = .good := by
  have h : ((flitOf (mkFlit k vc seq ack nak p)).short = true ∨ (flitOf (mkFlit k vc seq ack nak p)).uncorr ≠ 0) = False := by
    simp [flitOf]
  rw [flitCheck, if_neg (by rw [h]; exact id), flitOf_mk]; exact checkFlit_mkFlit k vc seq ack nak p hk ha hs hv hd
theorem wit_train (b : List Byte) (hb : b = mkFlit 3 0 0 0 false (trainBytes false 0)) : flitBytes (flitOf b) = b ∧ flitCheck (flitOf b) = .good
    ∧ (portDev 15 3 {}).linkState 15 = 3 ∧ fld b 0 1 % 8 = 3 ∧ bit (fld (sub b 4 244) 0 4) 28 = false := by
  subst hb; exact ⟨flitOf_mk .., flitOf_good _ _ _ _ _ _ (by decide) (by decide) (by decide) (by decide) (by decide), by decide +kernel⟩
theorem wit_train_good (v : Nat) : flitBytes (flitOf (mkFlit 3 0 0 0 false (trainBytes true v))) = mkFlit 3 0 0 0 false (trainBytes true v)
    ∧ flitCheck (flitOf (mkFlit 3 0 0 0 false (trainBytes true v))) = .good :=
  ⟨flitOf_mk .., flitOf_good _ _ _ _ _ _ (by decide) (by decide) (by decide) (by decide) (by decide)⟩
theorem wit_train_ends : ∀ q ∈ [(0, true), (9, false)], ∀ w, w = sub (mkFlit 3 0 0 0 false (trainBytes true q.1)) 4 244 →
    bit (fld w 0 4) 28 = true ∧ (trainDev q.1).linkState 15 = 3
    ∧ ((trainDev q.1).port 15).train = setAt 0 w 3 (BitVec.ofNat 8 (fld w 3 1 - b2n (bit (fld w 0 4) 28) * 16))
    ∧ 7 ≤ ((trainDev q.1).port 15).same
    ∧ bits (fld w 0 4) 7 4 = 1 ∧ bits (fld w 0 4) 19 16 = 1 ∧ bit (fld w 4 4) 20 = decide (3 ≤ (trainDev q.1).linkMode 15)
    ∧ (decide (sub w 0x10 64 = fit 64 (trainDev q.1).digest) = q.2) := by
  intro q h w hw; subst hw; revert q; decide +kernel
/-- A peer of version 2; a peer of an Ethernet mode. -/
theorem wit_train_other : ∀ q ∈ [(0x10020, 5), (0x20010, 5), (0x10010, 0x100000)],
    bits (fld (leBytes 4 q.1) 0 4) 7 4 ≠ 1 ∨ bits (fld (leBytes 4 q.1) 0 4) 19 16 ≠ 1 ∨ bit q.2 20 ≠ decide (3 ≤ (trainDev 0).linkMode 15) := by
  decide +kernel

/-- A DATA flit that carries a READ_RESP without data for node 0. -/
def dataBytes (seq : Nat) : List Byte := mkFlit 1 0 seq 0 false ({ mtype := 3 } : Msg).bytes
/-- A port that expects SEQ 4095. -/
def dataDev : State := portDev 15 4 { expect := 4095 }
theorem wit_dataFlit_good (seq : Nat) (h : seq < 4096) : flitBytes (flitOf (dataBytes seq)) = dataBytes seq
    ∧ flitCheck (flitOf (dataBytes seq)) = .good :=
  ⟨flitOf_mk .., flitOf_good _ _ _ _ _ _ (by decide) (by decide) h (by decide) (.inl rfl)⟩
theorem wit_dataFlit : ∀ seq ∈ [0, 4095], fld (dataBytes seq) 0 1 % 8 = 1 ∧ bit (fld (dataBytes seq) 0 4) 29 = false
    ∧ bits (fld (dataBytes seq) 0 4) 16 5 = seq ∧ badMsg (bits (fld (dataBytes seq) 0 4) 4 3) (sub (dataBytes seq) 4 244) = false
    ∧ (Msg.ofBytes (sub (dataBytes seq) 4 244)).sable = false ∧ (Msg.ofBytes (sub (dataBytes seq) 4 244)).mtype ≠ 8
    ∧ (Msg.ofBytes (sub (dataBytes seq) 4 244)).dst = dataDev.node ∧ dataDev.linkState 15 = 4 ∧ (dataDev.port 15).expect = 4095 := by
  decide +kernel
/-- A flit of zeros: its CRC is not 0. -/
theorem wit_nullFlit (k : Nat) (h : k ∈ [0, 2]) (b : List Byte) (hb : b = mkFlit k 0 0 0 false []) :
    flitBytes (flitOf b) = b ∧ flitCheck (flitOf b) = .good ∧ fld b 0 1 % 8 = k ∧ bit (fld b 0 4) 29 = false := by
  subst hb
  refine ⟨flitOf_mk .., flitOf_good _ _ _ _ _ _ ?_ (by decide) (by decide) (by decide) (.inr ⟨rfl, rfl⟩), ?_⟩
  all_goals revert k; decide +kernel
/-- R280, R282: a flit that an uncorrectable codeword touches, and one that a new start block ends, are bad. -/
theorem wit_badFlit : flitCheck { flitOf (dataBytes 0) with uncorr := 1 } = .bad ∧ flitCheck { flitOf (dataBytes 0) with short := true } = .bad :=
  ⟨rfl, rfl⟩
/-- The device's digest is 64 zero bytes. -/
def keepDev : State := { portDev 15 4 {} with digest := List.replicate 64 0 }
theorem wit_keepalive : sub (mkFlit 2 0 0 0 false []) 4 16 = keepDev.fp ∧ keepDev.linkState 15 = 4
    ∧ keepDev.regN (lnkAt 15 + 0x1C) % 4 ≠ 1 ∧ keepDev.heat.active = false
    ∧ (({ keepDev with ports := [(15, { lastKeep := 60000000 - 399 })] } : State).now - 59999601).toNat < 400
    ∧ 400 ≤ (keepDev.now - (keepDev.port 15).lastKeep).toNat ∧ (withRegs [(lnkAt 15 + 0x1C, 1)] keepDev).regN (lnkAt 15 + 0x1C) % 4 = 1 := by
  decide +kernel
/-- A keepalive is due; one has left in this period. -/
theorem wit_keepDue : keepDev.keepDue 15 = true ∧ (keepDev.port 15).tx = []
    ∧ ({ keepDev with ports := [(15, { keepNo := 600000 })] } : State).keepDue 15 = false := by decide +kernel
/-- One unacknowledged flit, replayed `n` times. -/
def replayDev (n : Nat) : State := portDev 15 4 { replay := [(0, 0, [])], tries := n }
theorem wit_replay : (replayDev 7).linkState 15 = 4 ∧ ((replayDev 7).port 15).replay ≠ []
    ∧ 200 ≤ ((replayDev 7).now - ((replayDev 7).port 15).lastAdv).toNat ∧ ((replayDev 7).port 15).tries < 8
    ∧ ((replayDev 7).port 15).sinceCounts + ((replayDev 7).port 15).replay.length ≤ 32 ∧ ((replayDev 7).port 15).tx = []
    ∧ (replayDev 7).linkMode 15 < 3 ∧ 8 ≤ ((replayDev 8).port 15).tries ∧ 400 ≤ ((replayDev 7).now - ((replayDev 7).port 15).lastKeep).toNat := by decide +kernel

/-- An Ethernet-mode port, EtherType and addresses 0; a frame of one flit. -/
def ethDev : State := withRegs [(lnkAt 15, 3)] (portDev 15 4 {})
/-- The header of a frame. -/
def ethHead : List Byte := List.replicate 12 0 ++ (leBytes 2 (ethDev.regN (lnkAt 15 + 0x20))).reverse
theorem wit_ethFrame : 3 ≤ ethDev.linkMode 15 ∧ ethDev.linkState 15 = 4 ∧ ethDev.frameFlits 15 [] = none := by decide +kernel
theorem wit_ethFrame_flit (f : List Byte) (h : f.length = 256) :
    ethDev.frameFlits 15 (ethHead ++ f ++ leBytes 4 (crc32 (ethHead ++ f))) = some [f] :=
  frameFlits_one ethDev 15 ethHead f h (by decide +kernel) (by decide +kernel) (by decide +kernel) (by decide +kernel)
    (by decide +kernel) (by decide +kernel)

/-! ### Messages -/

/-- Port 15 is UP and holds message `m` in VC `vc`; port 14 is UP with a credit of every VC; HBM and the reservoir are open. -/
def msgDev (vc : Nat) (m : Msg) : State :=
  withRegs [(lnkAt 15 + 8, 4), (lnkAt 14 + 8, 4)]
    { jobOf [] with
      job := {}, heat := {}
      ports := [(14, { credit := [1, 1, 1, 1] }), (15, { inq := [(vc, m.bytes)], credit := [1, 1, 1, 1] })] }
/-- A message with a hop left through port 14. -/
def hopMsg (t : Nat) : Msg := { mtype := t, hops := 1, hopA := 14, len := 4 }
theorem wit_forward : ∀ q ∈ [(3, 0), (7, 1), (1, 2), (10, 3)],
    (msgDev q.2 (hopMsg q.1)).headMsg 15 q.2 = some (hopMsg q.1).bytes ∧ (Msg.ofBytes (hopMsg q.1).bytes).hops ≠ 0
    ∧ (Msg.ofBytes (hopMsg q.1).bytes).hopA = 14 ∧ (msgDev q.2 (hopMsg q.1)).sendsAtOnce 14 q.2
    ∧ (withRegs [(lnkAt 14 + 8, 6)] (msgDev q.2 (hopMsg q.1))).linkState 14 ≠ 4 := by
  unfold State.sendsAtOnce; decide +kernel
/-- A stomped flit holds SEQ 7 of port 14 open for VC 2 of port 15. -/
def holeDev : State :=
  { msgDev 2 (hopMsg 1) with ports := [(14, { hole := some (7, 15, 2) }), (15, { inq := [(2, (hopMsg 1).bytes)] })] }
theorem wit_forward_hole : holeDev.headMsg 15 2 = some (hopMsg 1).bytes ∧ holeDev.linkState 14 = 4
    ∧ (holeDev.port 14).hole = some (7, 15, 2) ∧ (holeDev.port 14).tx = [] := by decide +kernel
/-- Messages at the last bytes of HBM. -/
def memMsg (t len : Nat) : Msg := { mtype := t, len := len, addr := 0xA000000000 - len, operand := 3 }
theorem wit_memory_messages : ∀ q ∈ [(1, 192), (2, 192), (4, 4), (4, 8)],
    ∀ m, m = Msg.ofBytes (memMsg q.1 q.2).bytes → (msgDev 2 (memMsg q.1 q.2)).headMsg 15 2 = some (memMsg q.1 q.2).bytes ∧ m.hops = 0
    ∧ (msgDev 2 (memMsg q.1 q.2)).shuttlesWait = false ∧ m.mtype = q.1 ∧ m.len = q.2 ∧ m.addr + m.len ≤ 0xA000000000
    ∧ (msgDev 2 (memMsg q.1 q.2)).checkRead m.world m.addr m.len = .ok ∧ (msgDev 2 (memMsg q.1 q.2)).check m.world m.addr m.len = .ok
    ∧ (msgDev 2 (memMsg q.1 q.2)).job.loaded = false := by
  intro q h m hm; subst hm; revert q; decide +kernel
theorem wit_readReq_answer : (msgDev 2 (memMsg 2 192)).sendsAtOnce 15 0 := by unfold State.sendsAtOnce; decide +kernel
/-- The device serves an image to node 0: two tags. -/
def ackDev : State := { msgDev 0 { mtype := 6, mtag := 7 } with twin := { serves := [Serve.mk 0 [] [7, 8] []] } }
theorem wit_answers : ∀ t ∈ [3, 5, 6], (msgDev 0 { mtype := t }).headMsg 15 0 = some ({ mtype := t } : Msg).bytes
    ∧ (Msg.ofBytes ({ mtype := t } : Msg).bytes).mtype = t ∧ (Msg.ofBytes ({ mtype := t } : Msg).bytes).hops = 0
    ∧ ((msgDev 0 { mtype := t }).twin.serves.find? fun v => v.node == 0 && v.tags.contains 7) = none
    ∧ (ackDev.twin.serves.find? fun v => v.node == 0 && v.tags.contains 7) = some (Serve.mk 0 [] [7, 8] []) := by decide +kernel

/-! ### Collectives, hurdles, twins -/

/-- A job with one group of three ranks (this device is rank 0; ports 3 and 4 lead to the others), one collective with the first
word, COUNT and a mark at layer 0, and one PHASE hurdle of it. -/
def groupJob (cw count : Nat) : State :=
  let j := jobOf [(4, 4, 3), (0xA8, 4, 0x10000), (0xAC, 4, 0x10001), (0xB0, 8, 0x200000), (0xB8, 8, 0x202000), (0xC0, 8, 0x201000)]
  let j := withMem 0x200000 (leBytes 8 0x200100) j
  let j := withMem 0x200100 (leBytes 4 3 ++ leBytes 12 0 ++ leBytes 8 (2 ^ 34) ++ leBytes 8 (2 ^ 34 + 3 * 2 ^ 16 + 1)
    ++ leBytes 8 (2 ^ 34 + 4 * 2 ^ 16 + 2)) j
  let j := withMem 0x201000 (leBytes 2 0 ++ leBytes 2 1 ++ leBytes 1 1) j
  let j := withMem 0x202000 (leBytes 4 cw ++ leBytes 4 0 ++ leBytes 8 count ++ leBytes 8 0x300000 ++ leBytes 8 0x9FFFFFF000
    ++ leBytes 16 0 ++ leBytes 8 0x301000) j
  { j with pool := { mark0 := some 0 } }
theorem wit_portsWait : ({ groupJob 0 0 with heat := { running := true, held := true } } : State).portsWait ≠ [] := by decide +kernel

/-- Its collective's state. -/
def collJob (cw count : Nat) (c : Coll) : State := { groupJob cw count with relay := { colls := [(0, c)] } }
/-- KIND 4, TRIGGER 1; 63 or 64 others are open. -/
def trigJob (n : Nat) : State :=
  { groupJob 0x4034 16 with relay := { colls := (List.range n).map fun k => (k + 1, { opened := true }) } }
theorem wit_collTrigger : (trigJob 63).heat.running = true ∧ (trigJob 63).heat.voids = [] ∧ (trigJob 63).heat.held = false
    ∧ 0 < (trigJob 63).collCount ∧ ((trigJob 63).coll 0).opened = false ∧ (trigJob 63).regN pwrAt % 8 = 0
    ∧ (trigJob 63).trigReady 0 = true ∧ (trigJob 63).cEngine 0 = 0 ∧ (trigJob 63).openCount 0 < 64 ∧ 64 ≤ (trigJob 64).openCount 0
    ∧ (trigJob 64).trigReady 0 = true := by decide +kernel
/-- KIND 4 whose chunks have landed; KIND 3 whose blocks have. -/
def endJob_ : State := collJob 0x4034 16 { opened := true, got := [(8, 0, 16), (8, 1, 16), (8, 2, 16)] }
/-- The reduction. -/
def redJob : State := collJob 0x40C3 32 { opened := true, got := [(9, 1, 0), (9, 2, 0), (8, 0, 0), (8, 1, 0), (8, 2, 0)] }
theorem wit_collEnd : ∀ s ∈ [endJob_, redJob], (s.coll 0).opened && !(s.coll 0).ended && s.heat.running && s.heat.voids.isEmpty
    && s.cKind 0 != 6 && s.collComplete 0 && decide (s.rlyCheck (s.cWorld 0) (s.cFlag 0) 16 false = .ok) && s.cEngine 0 == 0 = true := by decide +kernel
theorem wit_collEnd_kinds : endJob_.cReduce 0 = false ∧ endJob_.cKind 0 = 4 ∧ redJob.cReduce 0 = true := by decide +kernel
theorem wit_collEnd_refused : ({ endJob_ with regions := [] } : State).rlyCheck (endJob_.cWorld 0) (endJob_.cFlag 0) 16 false ≠ .ok
    ∧ endJob_.cIdle 0 = false := by decide +kernel
theorem wit_kick_again : ((collJob 0x34 16 { opened := true, ended := true }).coll 0).ended = true
    ∧ ((collJob 0x34 16 { opened := true }).coll 0).ended = false := by decide +kernel
theorem wit_kick : (groupJob 0x34 16).job.loaded = true ∧ (groupJob 0x34 16).cTrigger 0 = 0 ∧ ((groupJob 0x34 16).coll 0).opened = false
    ∧ (groupJob 0x34 16).heat.running = true ∧ (groupJob 0x34 16).heat.held = false ∧ (groupJob 0x34 16).openCount 0 < 64
    ∧ (groupJob 0x4034 16).cTrigger 0 = 1 ∧ bit (0 : Word).toNat 24 = false ∧ bits (0 : Word).toNat 9 0 = 0
    ∧ (groupJob 0x34 16).cKind 0 ≠ 5 := by decide +kernel
theorem wit_release : (collJob 0x5 16 { opened := true }).cKind 0 = 5 ∧ ((collJob 0x5 16 { opened := true }).coll 0).opened = true
    ∧ ((collJob 0x5 16 { opened := true }).coll 0).ended = false ∧ bits (0 : Word).toNat 23 16 + 2 < (collJob 0x5 16 { opened := true }).cN 0 := by
  decide +kernel

/-- Port 15 of a state has received a message. -/
def recvd (s : State) (vc : Nat) (m : Msg) : State := { s with ports := [(15, { inq := [(vc, m.bytes)] })] }
/-- A fragment of the all-to-all: 16 elements of chunk 2, attempt and heat 0. -/
def fragMsg : Msg := { mtype := 7, len := 32, data := leBytes 4 0 ++ leBytes 4 2 ++ leBytes 4 0 ++ leBytes 1 0 ++ leBytes 1 16 ++ leBytes 2 0 ++ List.replicate 16 5 }
theorem wit_frag : ∀ m s, m = Msg.ofBytes fragMsg.bytes → s = recvd (groupJob 0x4034 16) 1 fragMsg →
    s.headMsg 15 1 = some fragMsg.bytes ∧ m.hops = 0 ∧ m.mtype = 7 ∧ s.shuttlesWait = false ∧ s.job.loaded = true
    ∧ fld m.data 0 2 < s.collCount ∧ s.cKind 0 = 4 ∧ s.cIdle 0 = false ∧ s.heat.running = true ∧ s.heat.voids = []
    ∧ fld m.data 0xE 2 = s.stamp.1 % 65536 ∧ fld m.data 0xC 1 = s.stamp.2 ∧ s.fragBad 0 m.len m.data = false
    ∧ (s.coll 0).ended = false ∧ s.gates.homesRead = [] ∧ fld m.data 0xD 1 = 16
    ∧ s.rlyCheck m.world (s.cDst 0 + fld m.data 4 4 * s.cCount 0 + fld m.data 8 4) 16 false = .ok := by
  intro m s hm hs; subst hm hs; decide +kernel
theorem wit_frag_stale : (msgDev 1 fragMsg).headMsg 15 1 = some fragMsg.bytes ∧ (msgDev 1 fragMsg).job.loaded = false
    ∧ (msgDev 1 fragMsg).shuttlesWait = false := by decide +kernel
/-- Round 0 of hurdle entry 0, epoch 0, of attempt 0 of heat 0. -/
def hrdMsg : Msg := { mtype := 8, len := 64, data := List.replicate 64 0 }
theorem wit_hurdle : ∀ m s, m = Msg.ofBytes hrdMsg.bytes → s = recvd (groupJob 0 0) 0 hrdMsg →
    s.headMsg 15 0 = some hrdMsg.bytes ∧ m.hops = 0 ∧ m.mtype = 8 ∧ s.job.loaded = true ∧ s.heat.running = true
    ∧ fld m.data 0x18 4 = s.heat.num ∧ fld m.data 0x1C 1 = s.heat.attempt % 256 ∧ bit (fld m.data 0x10 4) 16 = false
    ∧ bits (fld m.data 0x10 4) 11 0 < s.hrdCount ∧ fld m.data 0x14 2 = (s.hrd 0).epoch ∧ (s.hrd 0).arrive = none := by
  intro m s hm hs; subst hm hs; decide +kernel
theorem wit_hurdle_stale : (msgDev 0 hrdMsg).job.loaded = false ∧ (msgDev 0 hrdMsg).heat.active = false := by decide +kernel
/-- A twin-link slot: one with opcode 0 is bad; DIGEST for attempt 0 of heat 0. -/
def mailMsg (op : Nat) : Msg := { mtype := 9, len := 64, data := leBytes 4 (op + 0x10000) ++ leBytes 8 0 ++ leBytes 4 32 ++ List.replicate 48 0 }
theorem wit_mail : ∀ m s, m = Msg.ofBytes (mailMsg 0x781).bytes → s = recvd (groupJob 0 0) 0 (mailMsg 0x781) →
    s.headMsg 15 0 = some (mailMsg 0x781).bytes ∧ m.hops = 0 ∧ m.mtype = 9 ∧ badSlot (fit 64 m.data) = false ∧ fld m.data 0 2 = 0x781
    ∧ s.heat.running = true ∧ s.heat.voids = [] ∧ fld (sub m.data 0x20 32) 4 4 = s.heat.num ∧ fld (sub m.data 0x20 32) 3 1 = s.heat.attempt
    ∧ badSlot (fit 64 (Msg.ofBytes (mailMsg 0).bytes).data) = true := by
  intro m s hm hs; subst hm hs; decide +kernel

/-- A baton of one entry, index 2 beside the job's two shards, which stands for shard 9 of the twin: one block. -/
def batonJob : State :=
  let j := sweepJob 0
  withMem 0xD0000 (leBytes 4 (2 * 2 ^ 24) ++ leBytes 4 1 ++ leBytes 8 0 ++ leBytes 8 32 ++ leBytes 8 0xD1000 ++ leBytes 8 0xD2000
    ++ leBytes 8 0 ++ leBytes 8 0xD3000 ++ leBytes 8 9)
    { j with job := { j.job with batonTable := 0xD0000, batonCount := 1 }, heat := { j.heat with active := true } }
/-- A mirror record of its block 0. -/
def mirMsg : Msg := { mtype := 10, len := 96, data := leBytes 4 9 ++ List.replicate 92 0 }
theorem wit_mirror : ∀ m s u gr, m = Msg.ofBytes mirMsg.bytes → s = recvd batonJob 3 mirMsg → u = (s.popMsg 15 3).shadowParams →
    gr = u.shadowStage 2 (fld m.data 0x30 1, unpackCodes 8 (sub m.data 0x10 32)) (fld m.data 0x31 1, unpackCodes 8 (sub m.data 0x40 32)) →
    s.headMsg 15 3 = some mirMsg.bytes ∧ m.hops = 0 ∧ m.mtype = 10 ∧ s.sweepPaused = false ∧ s.job.loaded = true
    ∧ s.batonOf (fld m.data 0 2) = some 2 ∧ s.heat.active = true ∧ s.heat.running = true ∧ s.heat.voids = []
    ∧ fld m.data 8 4 = s.heat.num ∧ fld m.data 0xC 1 = s.heat.attempt ∧ s.twin.stream = none ∧ fld m.data 4 4 < s.shBlocks 2
    ∧ s.twin.again = [] ∧ u.sweepCheck (u.shUnit 2) (u.blockRanges 2 0 false) (u.blockWrites (u.shUnit 2) 2 0) = none
    ∧ (u.blockOut 2 0 gr).trouble.stops = false := by
  intro m s u gr hm hs hu hg; subst hm hs hu hg; decide +kernel
theorem wit_mirror_stale : (msgDev 3 mirMsg).job.loaded = false ∧ (msgDev 3 mirMsg).sweepPaused = false
    ∧ (msgDev 3 mirMsg).headMsg 15 3 = some mirMsg.bytes := by decide +kernel

theorem wit_twinHello : 1000000 ≤ (({ dev with now := 1000005, twin := { helloAt := some 5 } } : State).now - 5).toNat := by decide +kernel
/-- Between heats; the digest record of group 0 of shard 0, last committed in heat 0, holds CRC `c`; TWIN of shard 0 as given. -/
def jogJob (c : Nat) (twin : Bool) : State :=
  let j := withMem 0xB0000 (leBytes 8 0 ++ leBytes 8 0 ++ leBytes 8 c) (withMem 0x50007 (leBytes 1 (b2n twin)) (sweepJob 0))
  { j with heat := { active := true, last := some 0 }, twin := { given := true, node := 6 } }
theorem wit_jog_equal : crc64 ((jogJob 0 false).groupImage 0 0 0xFF) = (jogJob 0 false).word ((jogJob 0 false).digestAddr 0 0 + 0x10) 8 := by
  have h : (jogJob 0 false).groupImage 0 0 0xFF = List.replicate 130 0 := by decide +kernel
  rw [h, crc64_zeros]; decide +kernel
theorem wit_jog : ∀ b ∈ [false, true], (jogJob 1 b).job.loaded = true ∧ (jogJob 1 b).sweepPaused = false ∧ (jogJob 1 b).heat.last ≠ none
    ∧ 0 < (jogJob 1 b).idxCount ∧ 16384 * 0 < (jogJob 1 b).shBlocks 0
    ∧ (jogJob 1 b).word ((jogJob 1 b).digestAddr 0 0 + 4) 4 = (jogJob 1 b).lastHeat ∧ (jogJob 1 b).word ((jogJob 1 b).digestAddr 0 0) 2 = 0
    ∧ (jogJob 1 b).heat.sweepBegun = false ∧ (jogJob 1 b).heat.rolling = false ∧ (jogJob 1 b).heat.voids = [] ∧ (jogJob 1 b).twin.pulls = []
    ∧ (jogJob 1 b).partners 0 = (if b then [6] else []) := by decide +kernel
theorem wit_jog_differs : ∀ b ∈ [false, true],
    crc64 ((jogJob 1 b).groupImage 0 0 0xFF) ≠ (jogJob 1 b).word ((jogJob 1 b).digestAddr 0 0 + 0x10) 8 := by
  intro b hb
  have h : (jogJob 1 b).groupImage 0 0 0xFF = List.replicate 130 0 := by revert b; decide +kernel
  rw [h, crc64_zeros]; revert b; decide +kernel
/-- A request of the collective for a unit of the GATHER client. -/
def gatherJob : State :=
  let j := groupJob 0x4034 16
  { j with job := { j.job with desc := put 0x9A 2 3 j.job.desc }, pool := { reqs := [askOf 2 []] } }
theorem wit_gather_grant : gatherJob.poolNext = some (askOf 2 [])
    ∧ ceilDiv (gatherJob.cN 0 * chunkSize (gatherJob.cDtype 0) (gatherJob.cCount 0)) 65536 = 1
    ∧ gatherJob.poolTrial 2 1 = some [] ∧ gatherJob.poolPlaces 2 1 [] [0] := by
  have ho := poolOpen_all (s := gatherJob) (c := 2) (by decide +kernel) rfl (by decide +kernel)
  refine ⟨rfl, by decide +kernel, poolTrial_all ho rfl (by decide +kernel) (by decide +kernel), ?_⟩
  unfold State.poolPlaces
  rw [show gatherJob.pool.ents = [] from rfl, List.filter_nil, ho]
  decide +kernel

/-! ### Power, rails, thermal -/

/-- A boundary of the sampling, long after reset. -/
def sampleDev : State := { dev with now := 1250000000 }
theorem wit_powerSample : sampleDev.now.toNat % 12500 = 0 ∧ 12500 ≤ sampleDev.now.toNat ∧ sampleDev.reg64 (pwrAt + 0x40) + 12500 ≠ sampleDev.now.toNat
    ∧ sampleDev.committed = true ∧ sampleDev.regN 4 % 8 ≠ 6 := by decide +kernel
/-- PWR_STATE `st`. -/
def pwrDev (st : Nat) (p : Pwr) : State := withRegs [(pwrAt, st)] { sampleDev with pwr := p }
theorem wit_power_states : (pwrDev 0 { slew := some (4, true) }).pwr.slew = some (4, true) ∧ (pwrDev 1 {}).pst = 1 ∧ (pwrDev 3 {}).pst = 3
    ∧ 500000 ≤ ((pwrDev 1 {}).now - (pwrDev 1 {}).pwr.since).toNat ∧ (pwrDev 1 {}).pwr.late = false ∧ (pwrDev 5 {}).pst = 5
    ∧ (pwrDev 5 {}).wantPst = 0 ∧ (pwrDev 0 { stagger := some 1250000000 }).pwr.stagger = some 1250000000
    ∧ (pwrDev 0 { stagger := some 1250000000 }).now.toNat = 1250000000 := by decide +kernel
/-- A sliver taken long ago. -/
def longCore : State := { sampleDev with cores := [(0, { inSliver := true })] }
theorem wit_longSliver : coreOk 0 = true ∧ (longCore.core 0).inSliver = true ∧ (longCore.core 0).longTold = false
    ∧ 100000 < (longCore.now - (longCore.core 0).tookAt).toNat := by decide +kernel

/-- Pod 383 has two cores, the second parked, the first as given; POD_PWR_STATE `st`. -/
def podDev (park0 st : Nat) : State :=
  withRegs [(ctlAt (coreOf 383 0) + 8, 2 * park0), (ctlAt (coreOf 383 1) + 8, 2), (podPwrAt 383, st)]
    { dev with coreMap := [(383, 0x00050003)] }
theorem wit_podGate : (podDev 1 2).regN (podPwrAt 383) % 4 = 2 ∧ (podDev 1 2).podIdle 383 = true ∧ (podDev 0 2).podIdle 383 = false
    ∧ ((podDev 1 2).podCores 383).length = 2 ∧ (podDev 1 1).regN (podPwrAt 383) % 4 = 1 := by decide +kernel
theorem wit_podTurnOn : coreOf 383 0 ∈ (podDev 0 0).podCores 383 ∧ (podDev 0 0).parkBit (coreOf 383 0) = false
    ∧ (podDev 0 0).regN (podPwrAt 383) % 4 = 0 ∧ (podDev 0 0).pst = 0 ∧ (podDev 0 0).committed = true ∧ (podDev 0 0).regN 4 % 8 ≠ 6
    ∧ (podDev 0 0).rails.droop ≠ some (383 / 12 / 2) ∧ (Tab.get (podDev 0 0).pwr.tokens (383 / 12) []).length < 2 := by decide +kernel
/-- Its die's tokens are spent at tick 0. -/
def spentDev : State := { podDev 0 0 with now := 3200, pwr := { tokens := [(31, [0, 0])] } }
theorem wit_podTurnOn_waits : 2 ≤ (Tab.get spentDev.pwr.tokens (383 / 12) []).length ∧ 383 ∉ spentDev.pwr.tokenWait
    ∧ Tab.get spentDev.pwr.tokens 31 [] = [0, 0] ∧ 3200 ≤ (spentDev.now - 0).toNat := by decide +kernel
theorem wit_jogPass : coreOk 15 = true ∧ dev.coreExists 15 = true ∧ dev.podOn (corePod 15) = true ∧ dev.pst = 0 ∧ dev.protDemand = 0
    ∧ dev.parkBit 15 = false ∧ dev.coreBusy 15 = false := by decide +kernel

/-- Every rail has a target of 470 mV. -/
def railDev (r : Rails) : State :=
  withRegs ((List.range 26).map fun g => (railAt g + 8, 470)) { sampleDev with rails := r }
theorem wit_rails : ∀ g ∈ [0, 15, 16, 25], 0 < railSensors g ∧ (railDev {}).pins.powered = true ∧ (railDev {}).now.toNat % 1000 = 0
    ∧ (railDev {}).now ≠ 0 ∧ (railDev {}).railTarget g = 470 ∧ Tab.get? (railDev {}).rails.wins g = none ∧ (railDev {}).pwr.slew = none
    ∧ (railDev {}).rails.droop = none ∧ 444 + 25 < (railDev {}).railTarget g ∧ 409 + 60 < (railDev {}).railTarget g
    ∧ (railDev {}).rails.floors = [] := by decide +kernel
theorem wit_droopEnd : (railDev { droop := some 15 }).rails.droop = some 15 := by decide +kernel
theorem wit_powerParts : dev.pins.powered = true ∧ dev.safe = false ∧ dev.podDark 383 = false ∧ dev.podDark 0 = false
    ∧ 32 * 25 + 0 ∉ dev.rails.lost ∧ 0 < railPhases 25 ∧ 11 * railCap 25 < 65535 ∧ dev.podLimit 0 < 8191 ∧ dev.podLimit 383 < 8191 := by
  decide +kernel
/-- Another phase of group 25 is lost. -/
theorem wit_phaseLost_second : 2 ≤ (([32 * 25] ++ [32 * 25 + 1]).filter fun x => x / 32 == 25).length ∧ 1 < railPhases 25 := by decide +kernel
/-- Pod 0 is on, at a measurement tick, with seven cracked measurements in a row. -/
def crackDev : State := { dev with now := 100, rails := { cracks := [(3, 7)], prev := [(0, (4800, 0))] } }
theorem wit_crack : crackDev.committed = true ∧ crackDev.podOn 0 = true ∧ crackDev.now.toNat % 100 = 0
    ∧ crackDev.regN (podPwrAt 0 + 0x20 + 4 * 3) % 256 + 12 < 255 ∧ Tab.get crackDev.rails.cracks (4 * 0 + 3) 0 = 7
    ∧ bits (crackDev.regN (podPwrAt 0 + 4)) 14 10 = 0 := by decide +kernel
theorem wit_previousLimit : Tab.get? crackDev.rails.prev 0 = some (4800, 0)
    ∧ 10000000 ≤ (({ crackDev with now := 10000000 } : State).now - 0).toNat := by decide +kernel

theorem wit_input : dev.pins.powered = true ∧ ({ dev with pins := { powered := false } } : State).pins.tripped = false
    ∧ ({ dev with thm := { hots := [(395, { tripB := 4 })] } } : State).pins.powered = true
    ∧ 4 ≤ (({ dev with thm := { hots := [(395, { tripB := 4 })] } } : State).hot 395).tripB := by decide +kernel
theorem wit_sensor : sampleDev.pins.powered = true ∧ sampleDev.now.toNat % 1000 = 0 ∧ ∀ x ∈ (sampleDev.hot 395).hist, x.1 ≠ sampleDev.now := by
  decide +kernel
/-- One hotspot reads `t`. -/
def hotDev (t : Nat) : State := { sampleDev with thm := { hots := [(0, { a := t, b := t, read := true })] } }
theorem wit_thermalPeriod : sampleDev.now.toNat % 5000 = 0 ∧ sampleDev.thm.period ≠ some sampleDev.now ∧ (hotDev 4095).thrLimit ≤ (hotDev 4095).tBand
    ∧ (hotDev ((hotDev 0).theta - 10)).tBand < (hotDev 0).thrLimit ∧ (hotDev ((hotDev 0).theta - 10)).tBand < (hotDev 0).theta + 20
    ∧ (hotDev 0).theta ≤ (hotDev ((hotDev 0).theta - 10)).tBand + 30 := by decide +kernel
theorem wit_coolantStale : 100000000 ≤ (sampleDev.now - sampleDev.thm.report.getD 0).toNat ∧ sampleDev.thm.stepTick = none
    ∧ sampleDev.coolLevel ≤ 4 ∧ bit (sampleDev.regN thmAt) 29 = false := by decide +kernel
/-- No flow since tick 0. -/
def flowDev : State := { sampleDev with thm := { flowLow := some 0 } }
theorem wit_flowFail : 500 ≤ (flowDev.now - 0).toNat ∧ bit (flowDev.regN (safAt flowDev.actHub + 4)) 2 = false ∧ flowDev.safe = false := by
  decide +kernel

/-! ### Boot, configuration, host, sideband -/

/-- A committed device at a check, with the digest of its image; `b` in HB's copy. -/
def cfgDev (d : List Byte) : State := { dev with now := 5000000, digest := d }
theorem wit_configCheck : (cfgDev (sha512 [])).committed = true ∧ (cfgDev (sha512 [])).safe = false ∧ (cfgDev (sha512 [])).now.toNat % 1000000 = 0
    ∧ (cfgDev (sha512 [])).reg64 (safAt (cfgDev (sha512 [])).actHub + 0x10) ≠ (cfgDev (sha512 [])).now.toNat
    ∧ sha512 (cfgDev (sha512 [])).boot.imageA = (cfgDev (sha512 [])).digest ∧ sha512 (cfgDev (sha512 [])).boot.imageB = (cfgDev (sha512 [])).digest
    ∧ (cfgDev (sha512 [])).lkWrong (cfgDev (sha512 [])).boot.imageA = none ∧ sha512 (cfgDev []).boot.imageA ≠ (cfgDev []).digest := by decide +kernel
theorem wit_reset_pins : dev.pins.powered = true ∧ dev.pins.perst = false ∧ dev.safe = false
    ∧ ({ dev with pins := { perst := true } } : State).pins.tripped = false := by decide +kernel

/-- A function that may send; vector 63 is unmasked and pends, 62 waits. -/
def hostDev : State :=
  { dev with host := { bme := true, msix := [(4 * 62 + 3, 0), (4 * 63 + 3, 0)], pba := [63], waiting := [62], lastSent := [(62, 0)] }, now := 70000 }
theorem wit_host : 63 ∈ hostDev.host.pba ∧ hostDev.host.bme = true ∧ hostDev.host.linkUp = true ∧ hostDev.vecMasked 63 = false
    ∧ Tab.get? hostDev.host.lastSent 63 = none ∧ hostDev.host.d3hot = false ∧ 62 ∈ hostDev.host.waiting ∧ hostDev.vecMasked 62 = false
    ∧ Tab.get? hostDev.host.lastSent 62 = some 0 ∧ hostDev.regN 0x28 % 2 ^ 16 ≤ (hostDev.now - 0).toNat := by decide +kernel
/-- HIF_STATE 5. -/
def onBus : State := withRegs [(4, 5)] (jobOf [])
theorem wit_hostAccess : onBus.hostOpen = true ∧ bar0Map 0x1000 = .none ∧ bar0Map 0xFFFFF = .none ∧ 0x1000000 + 0x8000 * 9 + 0x3FFC + 4 ≤ 0x1004000 + 0x8000 * 9
    ∧ (onBus.bar2Check 0x3FFFFFF8 8 false).2 = .ok ∧ (onBus.bar2Check 0x3FFFFFF8 8 true).2 = .ok ∧ 0x3FFFFFF8 < 2 ^ onBus.host.bar2lg
    ∧ ((withRegs [(4, 5)] dev).bar2Check 0 8 false).2 = .denied ∧ (withRegs [(4, 5)] dev).hostOpen = true
    ∧ ({ onBus with host := { d3hot := true } } : State).hostOpen = false := by decide +kernel

/-- A first-stage image with an empty program of 8 bytes, the neutral point as key, and a signature that holds under it. -/
def bootImage : List Byte :=
  leBytes 4 0x14257 ++ leBytes 4 0x101 ++ leBytes 4 7 ++ leBytes 4 0 ++ leBytes 4 8 ++ leBytes 12 0
    ++ (1 :: List.replicate 31 0) ++ sha512 (List.replicate 8 0) ++ (1 :: List.replicate 63 0) ++ List.replicate 72 0
/-- The device that holds it in its window. -/
def bootDev (st n : Nat) : State := withRegs [(4, st), (bootAt, n), (bootAt + 0x14, 0)] { State.reset with hubMem := Memory.writeN [] 0x800000 bootImage }
theorem wit_bootGo_ignored : (bootDev 3 0).hif ≠ 1 ∧ (bootDev 3 0).hif ≠ 7 := by decide +kernel
theorem wit_bootGo_bad : (bootDev 1 0x107).hif = 1 ∧ (bootDev 7 0x107).hif = 7
    ∧ bootResult (bootDev 1 0x107).imgLen (bootDev 1 0x107).helperOff ((bootDev 1 0x107).regN (bootAt + 0x14)) true [] = 2 := by decide +kernel
theorem wit_bootGo_image : (bootDev 1 0x108).hif = 1 ∧ (bootDev 1 0x108).imgLen = 0x108 ∧ (bootDev 1 0x108).helperOff = 0
    ∧ (bootDev 1 0x108).regN (bootAt + 0x14) = 0
    ∧ Memory.readN (bootDev 1 0x108).hubMem 0x800000 (min (bootDev 1 0x108).imgLen (6 * 2 ^ 20)) = bootImage := by decide +kernel
/-- The vendor's key hash is an open constant (log 9): where it is that of this image's key, the image passes. -/
theorem wit_bootGo_passes (h : leBytes 64 Config.vendorKeyHash.toNat = sha512 (1 :: List.replicate 31 0)) :
    ∀ en, bootResult 0x108 0 0 en bootImage = 1 := by
  intro en
  unfold bootResult bootChecks
  rw [h]
  revert en
  decide +kernel
/-- Self-test in progress; a result with one bad slot and one bad pod. -/
def testDev : State := withRegs [(4, 3)] { State.reset with now := 100000000, boot := { testing := true } }
theorem wit_selftest : testDev.hif = 3 ∧ testDev.boot.testing = true
    ∧ ({ badSlots := [(0, 17)], badPods := [383], failed := none, rows := [], baseline := [] } : SelfTest).wf = true
    ∧ ({ badSlots := [], badPods := [], failed := some 0, rows := [], baseline := [] } : SelfTest).wf = true
    ∧ ({ testDev with boot := {} } : State).boot.testing = false ∧ (∀ d ∈ testDev.hub.deferred, d.op ≠ 0x900)
    ∧ 100000000 ≤ (testDev.now - testDev.boot.t3).toNat := by decide +kernel

theorem wit_i3c : testDev.i3cAck = true ∧ testDev.i3cOn = true ∧ i3cFits 0x3FC0 64 = true ∧ i3cFits 0x7FC0 64 = true ∧ i3cFits 0x3FFC 64 = false
    ∧ State.reset.i3cAck = false ∧ State.reset.i3c.dyn = none ∧ ({ testDev with i3c := { dyn := some 8 } } : State).i3c.dyn ≠ none := by decide +kernel
theorem wit_queueVectors : bit (0xF03 : Word).toNat 1 = true ∧ bits (0xF03 : Word).toNat 13 8 < 16 ∧ bit (0x1003 : Word).toNat 0 = true
    ∧ bit (0x1003 : Word).toNat 1 = true ∧ 16 ≤ bits (0x1003 : Word).toNat 13 8
    ∧ ∀ q ∈ [CqId.edge 3 7, .edge 0 0], 4 ≤ (withRegs [(cqAt (.edge 3 7) + 8, 4), (cqAt (.edge 0 0) + 8, 16)] dev).regN (cqAt q + 8) % 32
      ∧ (withRegs [(cqAt (.edge 3 7) + 8, 4), (cqAt (.edge 0 0) + 8, 16)] dev).regN (cqAt q + 8) % 32 ≤ 16 := by decide +kernel

/-! ### Mailboxes -/

/-- R386: what `State.takes` says, and of its state and request what `p` says. -/
def takesP (s : State) (m : Nat) (h : HostDma) (op : Nat) (c : Cmd) (p : State → Req → Bool) : Bool :=
  let q := (s.beginReq m).accept m (s.regN (mbxAt m + 4)) c (s.headSlot m) h
  decide (m < 11) && s.mbxOpen && s.nextBox == some m && fld (s.headSlot m) 0 2 == op
    && (match q.2 with
      | .ok r => p q.1 r
      | .error _ => false)
theorem takes_of {s : State} {m op : Nat} {h : HostDma} {c : Cmd} {p : State → Req → Bool} (hp : takesP s m h op c p = true) :
    ∃ u r, s.takes m h op c u r ∧ p u r = true := by
  simp only [takesP, Bool.and_eq_true, decide_eq_true_eq, beq_iff_eq] at hp
  obtain ⟨⟨⟨⟨h1, h2⟩, h3⟩, h4⟩, h5⟩ := hp
  generalize hq : (s.beginReq m).accept m (s.regN (mbxAt m + 4)) c (s.headSlot m) h = q at h5
  obtain ⟨u, x⟩ := q
  cases x with
  | error _ => exact absurd h5 (by simp)
  | ok r => exact ⟨u, r, ⟨h1, h2, h3, h4, hq⟩, h5⟩

/-- Request 0 of mailbox `m` waits: OPCODE, MINOR 0, TAG 7, RSP_CAP of 64 KiB, the payload in the slot or, where it exceeds 32
bytes, in host memory; `w` the world and signature bits. -/
def send (m op w : Nat) (pl : List Byte) (s : State) : State :=
  let ref := decide (32 < pl.length)
  let cap := if m = 10 then 0 else 1024
  let slot := leBytes 4 (op + (if op = 0 then 0 else 0x10000)) ++ leBytes 4 7 ++ leBytes 4 (w + b2n ref * 2 + cap * 65536)
    ++ leBytes 4 pl.length ++ leBytes 16 0 ++ (if ref then [] else pl)
  { s with hubMem := Memory.writeN s.hubMem (slotAt m 0) slot, hub := { s.hub with bells := [(m, [(1, 0)])] }, host := { s.host with bme := true } }
/-- Host memory gives the payload and takes the response. -/
def dma (pl : List Byte) : HostDma := { read := some pl, write := true }
/-- Request of a payload in a state is taken, and `p` holds of it. -/
def sends (s : State) (m op w : Nat) (c : Cmd) (pl : List Byte) (p : State → Req → Bool) : Bool :=
  takesP (send m op w pl s) m (dma pl) op c fun u r => p u r && u.host.bme && !u.host.d3hot

/-- HIF_STATE `st`, a committed device with a record of heat 3, its ledger, a logged event, an object, an identity. -/
def mailDev (st : Nat) : State :=
  withRegs [(4, st)] { dev with
    heat := { recs := [{ heat := 3 }] }
    pwr := { past := [{ heat := 3 }] }
    evt := { log := [LogRec.mk (Event.mk 0x0302 2 0 5 0 0 []) true true], logCount := 1 }
    hub := { objs := [(65535, Obj.mk 2 .ivory 0 0x10000)] }
    boot := { seed := some (List.replicate 32 5), staged := some [] }
    regions := leBytes 8 0 ++ leBytes 4 0x50000 ++ leBytes 4 9 }
theorem wit_short_reports : ∀ q ∈ [(0, 0, cmdHello, ([] : List Byte)), (10, 0, cmdHello, []), (7, 1, cmdEcho, [1, 2, 3]), (0, 0x205, cmdHeatStatus, []),
      (0, 0x405, cmdPwrStatus, []), (0, 0x500, cmdTlmSnapshot, []), (0, 0x600, cmdSafeStatus, []), (0, 0x701, cmdTwinStatus, [])],
    sends (mailDev 5) q.1 q.2.1 0 q.2.2.1 q.2.2.2 (fun _ r => decide (r.data.length ≤ 32)) = true := by decide +kernel
theorem wit_objQuery : sends (mailDev 5) 0 0x302 0 cmdObjQuery (leBytes 4 65535)
    (fun u r => u.objOf (r.f 0 4) == some (Obj.mk 2 .ivory 0 0x10000)) = true := by decide +kernel
theorem wit_idKey : sends (mailDev 3) 10 0x800 0 cmdIdKey [] (fun u _ => u.boot.seed.isSome) = true := by decide +kernel
theorem wit_long_reports : ∀ q ∈ [(0x102, cmdSlDigest), (0x103, cmdSlRead), (0x212, cmdDrillList), (0x303, cmdRegionRead),
      (0x802, cmdCoreMap), (0x901, cmdRetireRead)],
    sends (mailDev 5) 0 q.1 0 q.2 [] (fun u _ => u.committed) = true := by decide +kernel
theorem wit_heat_reports :
    sends (mailDev 5) 0 0x501 0 cmdTlmHeat (leBytes 4 3) (fun u r => (u.recOfHeat (r.f 0 4)).isSome) = true
    ∧ sends (mailDev 5) 0 0x502 0 cmdLedgerRead (leBytes 4 3) (fun u r => (u.ledgerOf (r.f 0 4)).isSome) = true
    ∧ sends (mailDev 5) 0 0x503 0 cmdLedgerLaps (leBytes 4 3 ++ leBytes 4 4096) (fun u r => (u.ledgerOf (r.f 0 4)).isSome) = true := by
  decide +kernel
theorem wit_faultLog : sends (mailDev 3) 0 0x601 0 cmdFaultLog (leBytes 4 0 ++ leBytes 4 1)
    (fun u r => decide (u.evt.logCount - u.evt.log.length ≤ r.f 0 4 ∧ r.f 0 4 < u.evt.logCount)) = true := by decide +kernel
theorem wit_attest : sends (mailDev 6) 0 0x801 0 cmdAttest (List.replicate 32 7) (fun u _ => u.boot.seed.isSome) = true := by
  decide +kernel

/-- An idle device with a job of world `w`. -/
def idleDev (w : World) : State := { mailDev 5 with job := { loaded := true, world := w } }
theorem wit_immediate :
    sends (mailDev 4) 0 0x100 0 cmdSlLoad (List.replicate 16 0) (fun u _ => !u.queued 0x100 cmdSlLoad) = true
    ∧ sends (idleDev .ivory) 0 0x201 0 cmdHeatGo (leBytes 4 0) (fun u _ => !u.queued 0x201 cmdHeatGo && u.job.world == .ivory
        && u.heat.last != some 0xFFFFFFFF && decide (u.heat.attempt < 3) && u.twinReady) = true
    ∧ sends (idleDev .ivory) 9 0x203 0 cmdJobUnload [] (fun _ _ => true) = false
    ∧ sends (idleDev .ivory) 7 0x203 0 cmdJobUnload [] (fun u _ => !u.queued 0x203 cmdJobUnload && u.job.world == .ivory) = true
    ∧ sends (mailDev 6) 0 0x602 0 cmdEvtFilter (leBytes 4 0x3FF) (fun u _ => !u.queued 0x602 cmdEvtFilter) = true
    ∧ sends (mailDev 3) 10 0x603 0 cmdCoolantReport (leBytes 4 0x00640140) (fun u _ => !u.queued 0x603 cmdCoolantReport) = true
    ∧ sends (mailDev 5) 10 0x700 0 cmdTrayIdent (leBytes 8 7) (fun u _ => !u.queued 0x700 cmdTrayIdent) = true
    ∧ sends (mailDev 5) 0 0x702 0 cmdBatonHost (leBytes 8 4096 ++ leBytes 8 0x10000) (fun u _ => !u.queued 0x702 cmdBatonHost) = true
    ∧ sends (idleDev .ivory) 0 0x704 0 cmdTwinMap (List.replicate 16 0) (fun u r => !u.queued 0x704 cmdTwinMap
        && u.job.world == .ivory && decide (u.shardCount + r.f 8 2 ≤ 65535) && (u.mapSet (r.f 0 6) (r.f 8 2)).mapBad == none) = true := by
  decide +kernel

/-- A committed device whose image carries the two Sable keys: the neutral point, under which a signature of the neutral point
and zeros holds. -/
def sableDev : State :=
  let tlv := fun (t : Nat) => leBytes 4 t ++ leBytes 4 32 ++ (1 :: List.replicate 31 0)
  withRegs [(4, 5), (mbxAt 8 + 0x20, 4)] { dev with boot := { imageA := List.replicate 16 0 ++ tlv 0x8002 ++ tlv 0x8003 } }
/-- A Sable request of a payload and its trailer of SEQ 9. -/
def signed (pl : List Byte) : List Byte := pl ++ leBytes 8 9 ++ leBytes 8 0 ++ 1 :: List.replicate 63 0
theorem wit_objects :
    sends (mailDev 5) 0 0x300 0 cmdObjAlloc (leBytes 8 2 ++ leBytes 8 0x20000 ++ leBytes 8 0x30000)
        (fun u r => !u.queued 0x300 cmdObjAlloc && !bit (r.f 0 1) 0 && u.bulkFits .ivory (r.f 0 1) (r.f 8 6) (r.f 0x10 8)
          && u.objSlot == some 0 && !u.objMeets (r.f 8 6) (r.f 0x10 8)) = true
    ∧ sends (mailDev 5) 0 0x301 0 cmdObjFree (leBytes 4 65535) (fun u r => !u.queued 0x301 cmdObjFree
        && (u.objOf (r.f 0 4)).any (fun o => o.world == .ivory) && u.usedAddrs == []) = true
    ∧ sends sableDev 8 0x211 5 cmdDrillClear (signed (leBytes 4 15)) (fun u _ => !u.queued 0x211 cmdDrillClear && !u.job.loaded) = true := by
  decide +kernel

/-! ### Objects, jobs, deferred commands -/

/-- A drill image of one END, whose signature holds under the neutral point. -/
def drillImage : List Byte := leBytes 4 0x14C44 ++ leBytes 4 1 ++ leBytes 4 9 ++ List.replicate 260 0 ++ 1 :: List.replicate 63 0
theorem wit_drillInstall : sends sableDev 9 0x210 5 cmdDrillInstall (signed (leBytes 8 15 ++ drillImage))
    (fun u _ => !u.queued 0x210 cmdDrillInstall && !u.heat.active) = true := by decide +kernel

/-- A device whose reservoir is a pool, and in HBM the tables of a job of one tensor, one shard, one group and the FINISH hurdle. -/
def tables : List (Nat × List Byte) :=
  [(0x10004, leBytes 4 0x10), (0x10018, leBytes 8 32), (0x10084, leBytes 4 0x20), (0x10104, leBytes 4 0x200040), (0x10184, leBytes 4 0x200050),
   (0x20008, leBytes 8 0x30000), (0x50004, leBytes 4 1), (0x50010, leBytes 4 32), (0x50018, leBytes 8 0x100000), (0x50020, leBytes 8 0x130000),
   (0x50030, leBytes 8 0x110000), (0x50038, leBytes 8 0x10000100000), (0x70000, leBytes 8 0x120000), (0x70008, leBytes 4 5), (0x90000, leBytes 8 0xB0000),
   (0xB0000, leBytes 4 2), (0xB0018, leBytes 8 0x400000001), (0xA0002, leBytes 2 1), (0xA0004, leBytes 4 2)]
/-- The descriptor of that job. -/
def jobDesc : List Byte :=
  descOf [(4, 4, 1), (0x18, 8, 0x10000), (0x20, 4, 4), (0x24, 4, 1), (0x28, 8, 0x20000), (0x3C, 4, 1), (0x40, 8, 0x40000), (0x48, 4, 1), (0x50, 8, 0x200000),
    (0x64, 4, 0x10001), (0x68, 8, 0x50000), (0x70, 8, 0x60000), (0x78, 8, 0x70000), (0x80, 8, 0x10000000000), (0x88, 8, 0x80000), (0x9E, 2, 17),
    (0xAC, 4, 0x10001), (0xB0, 8, 0x90000), (0xC0, 8, 0xA0000), (0xC8, 4, 1000), (0xCC, 4, 1000)]
/-- The device, with some deferred commands. -/
def loadDev (l : List Deferred) : State :=
  tables.foldl (fun s q => withMem q.1 q.2 s) { dev with
    regions := leBytes 8 0 ++ leBytes 4 0x50000 ++ leBytes 4 1 ++ leBytes 8 0x10000000000 ++ leBytes 4 0x400 ++ leBytes 4 5, hub := { deferred := l } }
/-- JOB_LOAD of it waits behind a command of another opcode group. -/
def loadWait : List Deferred := [Deferred.mk 1 0 0x400 7 7 1 [1] [] true, Deferred.mk 0 0 0x200 7 7 1 [0] jobDesc false]
def loadCmd : Deferred := Deferred.mk 0 0 0x200 7 7 1 [0] jobDesc false
/-- The state in which step 11 looks. -/
def loadJob : State := ((loadDev loadWait).deferBegin loadCmd).withJob .ivory jobDesc
/-- The pool of that job: every unit. -/
theorem load_pool : loadJob.poolUnits loadJob.job.world
    = (List.range 32768).filter fun u => (regionAt [(0x10000000000, 0x80000000, 5)] (0x10000000000 + u * 0x10000)).isSome && true := by
  have hr : (loadJob.regionList.filter fun r => bit r.2.2 2 && (bit r.2.2 1 == (loadJob.job.world == .sable)))
      = [(0x10000000000, 0x80000000, 5)] := by decide +kernel
  have hn : loadJob.pool.near = [] := by decide +kernel
  unfold State.poolUnits
  rw [hr, hn, if_neg (by decide)]; rfl
/-- Its first 17 units. -/
theorem load_units : (List.range 17).Sublist (loadJob.poolUnits loadJob.job.world) := by
  rw [load_pool]
  have h := (List.range_sublist.2 (by decide : 17 ≤ 32768)).filter
    fun u => (regionAt [(0x10000000000, 0x80000000, 5)] (0x10000000000 + u * 0x10000)).isSome && true
  rwa [show (List.range 17).filter _ = List.range 17 by decide +kernel] at h
theorem load_floors : loadJob.floorsBad = none := by
  have h0 : ((List.range 4).map loadJob.poolFloor).sum = 0 := by decide +kernel
  have h1 : (badAmong 4 fun c => badIf (decide (loadJob.poolCeil c < loadJob.poolFloor c)) (jobBad (0x90 + 4 * c))) = none := by decide +kernel
  unfold State.floorsBad
  rw [h0, h1, decide_eq_false (Nat.not_lt_zero _)]; rfl
theorem load_scratch : loadJob.scratchShort = none := by
  have hu : (loadJob.homeUnits ++ loadJob.cursorUnits ++ loadJob.gsumUnits).eraseDups.filter (fun u => !loadJob.pool.near.contains u)
      = List.range 17 := by decide +kernel
  have h0 : ((List.range 3).map loadJob.poolFloor).sum = 0 := by decide +kernel
  have hc : loadJob.poolCeil 3 = 17 := by decide +kernel
  have hl : 17 ≤ (loadJob.poolUnits loadJob.job.world).length := List.length_range (n := 17) ▸ load_units.length_le
  have hm : ((List.range 17).any fun u => !(loadJob.poolUnits loadJob.job.world).contains u) = false := by
    rw [List.any_eq_false]
    intro u h
    simp [load_units.subset h]
  unfold State.scratchShort
  simp only [hu, h0, hc, hm, List.length_range, Bool.or_false]
  rw [decide_eq_false (by omega)]; rfl
theorem load_checked : ((loadDev loadWait).deferBegin loadCmd).jobCheck .ivory jobDesc = none := by
  have ha : loadJob.jobBadA = none := by decide +kernel
  have hb : loadJob.jobBadB = none := by
    unfold State.jobBadB
    rw [load_floors, load_scratch]; decide +kernel
  show (loadJob.jobBadA <|> loadJob.jobBadB) = none
  rw [ha, hb]; rfl
theorem wit_jobLoad : (loadDev loadWait).hub.deferred[1]? = some loadCmd ∧ (loadDev loadWait).turnOf 1 loadCmd = true
    ∧ (loadDev loadWait).stateCheck 0 0x200 cmdJobLoad = none ∧ ((loadDev loadWait).deferBegin loadCmd).jobCheck (mbxWorld 0) jobDesc = none :=
  ⟨rfl, by decide +kernel, by decide +kernel, load_checked⟩

/-- A device with one deferred command. -/
def deferDev (st op : Nat) (pl : List Byte) : State :=
  { idleDev .ivory with regs := (mailDev st).regs, heat := { active := true }, hub := { deferred := [Deferred.mk 0 0 op 7 7 1 [0] pl false] } }
theorem wit_jobStop : (deferDev 5 0x202 (leBytes 4 0)).turnOf 0 (Deferred.mk 0 0 0x202 7 7 1 [0] (leBytes 4 0) false) = true
    ∧ (deferDev 5 0x202 (leBytes 4 0)).stateCheck 0 0x202 cmdJobStop = none ∧ (deferDev 5 0x202 (leBytes 4 0)).job.world = mbxWorld 0
    ∧ (deferDev 5 0x202 (leBytes 4 0)).heat.active = true ∧ bit (fld (leBytes 4 0) 0 4) 0 = false := by decide +kernel
theorem wit_selftestRun : (deferDev 3 0x900 []).turnOf 0 (Deferred.mk 0 0 0x900 7 7 1 [0] [] false) = true
    ∧ (deferDev 3 0x900 []).stateCheck 0 0x900 cmdSelftest = none := by decide +kernel

/-- Requests of deferred commands that are taken. -/
theorem wit_deferred :
    sends { mailDev 4 with boot := { staged := some [1] } } 0 0x101 0 cmdSlCommit (List.replicate 64 0) (fun _ _ => true) = true
    ∧ sends (loadDev []) 0 0x200 0 cmdJobLoad jobDesc (fun _ _ => true) = true
    ∧ sends (idleDev .ivory) 0 0x202 0 cmdJobStop (leBytes 4 1) (fun _ _ => true) = true
    ∧ sends (idleDev .ivory) 0 0x204 0 cmdJobReplace jobDesc (fun _ _ => true) = true
    ∧ sends (mailDev 5) 0 0x401 0 cmdPwrFloor [] (fun _ _ => true) = true
    ∧ sends (mailDev 5) 10 0x402 0 cmdPwrPark [] (fun _ _ => true) = true
    ∧ sends (mailDev 5) 10 0x403 0 cmdPwrResume [] (fun _ _ => true) = true
    ∧ sends (mailDev 5) 10 0x400 0 cmdPwrBudget (leBytes 4 1200 ++ leBytes 4 7) (fun _ _ => true) = true
    ∧ sends (withRegs [(pwrAt, 64)] (mailDev 5)) 0 0x404 0 cmdPwrCeiling (leBytes 4 400) (fun _ _ => true) = true
    ∧ sends (idleDev .ivory) 0 0x703 0 cmdBatonRestore (List.replicate 32 0) (fun _ _ => true) = true
    ∧ sends (mailDev 3) 0 0x900 0 cmdSelftest [] (fun _ _ => true) = true := by decide +kernel

/-! ### Ring indices, hubs, reset, ill-formed commands -/

/-- Mailbox 9 with request 0xFFFFFFFF next, 255 more pending, and responses 0xFFFFFFFE and 0xFFFFFFFF unread. -/
def ringDev : State :=
  { withRegs [(mbxAt 9 + 4, 0xFFFFFFFF), (mbxAt 9 + 8, 0), (mbxAt 9 + 0xC, 0xFFFFFFFE), (ringPage .sable + 0x40, 4), (ringPage .sable + 0x44, 2)] dev with
    hub := { bells := [(9, [(254, 0)])], trayTail := 9, trayHead := 7 } }
theorem wit_ringIndex : (255 : Word) ≠ BitVec.ofNat 32 (ringDev.bellTail 9) ∧ ((255 : Word) - ringDev.reg (mbxAt 9 + 4)).toNat = 256
    ∧ (BitVec.ofNat 32 (ringDev.bellTail 9) - ringDev.reg (mbxAt 9 + 4)).toNat = 255
    ∧ ((0 : Word) - ringDev.reg (mbxAt 9 + 0xC)).toNat = (ringDev.reg (mbxAt 9 + 8) - ringDev.reg (mbxAt 9 + 0xC)).toNat
    ∧ ((4 : Word) - ringDev.reg (ringPage .sable + 0x44)).toNat = (ringDev.reg (ringPage .sable + 0x40) - ringDev.reg (ringPage .sable + 0x44)).toNat
    ∧ ((9 : Word) - BitVec.ofNat 32 ringDev.hub.trayHead).toNat = ringDev.hub.trayTail - ringDev.hub.trayHead := by decide +kernel
theorem wit_badRingIndex : (256 : Word) ≠ BitVec.ofNat 32 (ringDev.bellTail 9) ∧ 256 < ((256 : Word) - ringDev.reg (mbxAt 9 + 4)).toNat
    ∧ (ringDev.reg (mbxAt 9 + 8) - ringDev.reg (mbxAt 9 + 0xC)).toNat < ((1 : Word) - ringDev.reg (mbxAt 9 + 0xC)).toNat := by decide +kernel
theorem wit_hubs : State.reset.pins.powered = true ∧ State.reset.role State.reset.actHub = 1 ∧ State.reset.role (1 - State.reset.actHub) = 0 := by
  decide +kernel
theorem wit_memOk : dev.memOk ∧ ({ dev with pending := [.lds 0, .pllUnlock] } : State).queueOk := by
  refine ⟨⟨?_, ?_, ?_⟩, ?_⟩ <;> first | decide +kernel | (intro c h; revert c; decide +kernel)
theorem wit_csr : ∀ q ∈ ([(0xF1402073, .csr 2 0 0 0xF14), (0xC0102073, .csr 2 0 0 0xC01), (0xC8102073, .csr 2 0 0 0xC81), (0x00000073, .ecall),
      (0x00100073, .ebreak), (0xC01023F3, .csr 2 7 0 0xC01)] : List (Nat × SOp)),
    coreOk 0 && (scalarCore q.1).issues 0 && decide ((scalarCore q.1).fetch 0 = some (q.1, 4)) && decide (kop q.1 = .scalar)
      && decide (decodeScalar q.1 4 = some q.2) = true := by decide +kernel

/-- Ill-formed commands: for each check one that names the first unit that does not exist. -/
theorem test_ill_formed : ∀ c ∈ ([.hello 11 ⟨none, false⟩, .hubMbxDoorbell 11 0, .hubTakeover 2, .lds 192, .lds 0x2000, .headRelease 0 2 0, .headRelease 192 0 0,
      .registerWrite .firmware 0 0, .registerWrite .firmware 0x1007FFFFFFF 0, .registerWrite .firmware 0x20000000000 0, .podHurdleComplete 32 none 0,
      .podHurdleComplete 0 (some 12) 0, .podHurdleComplete 0 none 16, .podSlvTail 384 0, .sweepBlock 16, .copy (.pod 0 18) 0 none,
      .copy (.pod 384 0) 0 none, .copy (.bulk 4 0) 0 none, .copy (.bulk 0 8) 0 none, .listPortFetch 0 2, .edgBshGo 4 0 0, .edgBshGo 0 8 0,
      .cqHead (.pod 0 16) 0, .cqHead (.edge 0 8) 0, .hbmScrub 8 0 .sound, .poolGrant 4 0 false, .portTrainStart 16,
      .messageForward 0 4, .edgRlyKick 4 0, .wakeTokenReturn 32, .railSetpointWindow 26 0 0, .railSetpointWindow 16 0 4, .railSetpointWindow 0 1024 0,
      .fastDroopStart 16 0 0, .fastDroopEnd 65, .phaseLost 18 3, .railOvercurrent 0 65536, .podOvercurrent 0 8192, .crackMeasure 0 4 0, .crackMeasure 0 0 256,
      .inputUvWarn 65536, .sensorReading 396 0 0 false false, .sensorReading 0 4096 0 false false, .bar0Access 0x4000000 none 1, .bar2Access 0x10000000000 none 1,
      .msixHoldoffEnd 64, .selftestDone ⟨[], [], none, [], [(384, 0, 0)]⟩, .setdasa 128, .lossOfBlockLock 0 4, .bar2Resize 29, .bar2Resize 41,
      .hbmTemperatureReadout 8 0] : List Instr), c.wf = false := by decide +kernel
/-- The last units that exist. -/
theorem test_well_formed : ∀ c ∈ ([.hello 10 ⟨none, false⟩, .hubTakeover 1, .lds 0x1FBF, .headRelease 0 1 0, .registerWrite .firmware 0x10080000000 0,
      .registerWrite .firmware 0x20000400000 0, .podHurdleComplete 31 (some 11) 15, .podSlvTail 383 0, .sweepBlock 15, .copy (.pod 383 17) 0 none,
      .copy (.bulk 3 7) 0 none, .cqHead (.pod 0 15) 0, .cqHead (.edge 3 7) 0, .hbmScrub 7 0 .lost, .poolGrant 3 0 true, .portTrainStart 15, .messageForward 15 3,
      .railSetpointWindow 25 1023 3, .phaseLost 18 2, .sensorReading 395 4095 4095 false false, .bar0Access 0x3FFFFFF none 1, .msixHoldoffEnd 63,
      .bar2Resize 30, .bar2Resize 40] : List Instr), c.wf = true := by decide +kernel

/-! ### The spec's worked examples -/

/-- Chapter 01, at R25: the weight-gradient buffer of core 7 of pod 3 of CD5. -/
theorem test_example_address : coreBase 0x537 + 0x60000 = 0x020531760000 := by decide +kernel
/-- Chapter 02, at R57: three elements of a block of N8e4 with TEXP 2 and HEADROOM 4. -/
theorem test_example_quantise : quantiseBlock 2 2 (some 4) ([0x40480000, 0xBE99999A, 0x38D1B717].map f32Val) = ⟨0x76, [0x7C, 0xE2, 0x07], {}⟩ := by
  decide +kernel
/-- Chapter 06: the gradient stage of two elements at TEXP -4. -/
theorem test_example_gradient : quantiseBlock 3 (-4) none ([0x40540000, 0xBF080000].map f32Val) = ⟨0x75, [0x7B, 0xF0], {}⟩ := by decide +kernel
/-- Chapter 02, at R71: a stochastic rounding to W16. -/
theorem test_example_round : roundSr 0x3F80A3C0 0x6012 = 0x3F81 ∧ roundSr 0x3F80A3C0 0x5C3F = 0x3F80 := by decide +kernel
/-- Chapter 14: set points of group 3 at 500 mV. -/
theorem test_example_setPoint : nextSetPoint 500 525 466 = 527 ∧ nextSetPoint 500 531 504 = 533 ∧ nextSetPoint 500 533 507 = 533 := by decide +kernel
/-- Chapter 16: required flow at 42.0 °C, and the target levels of five reports. -/
theorem test_example_coolant : dev.flowReq 420 = 1700 ∧ [1720, 1680, 1600, 1560, 1500].map (flowTarget · 1700) = [0, 1, 2, 2, 3] := by decide +kernel

end Sys2Proof.Tests
end

/-!
PROOFS. What holds at reset (R11): the memories, the registers and the cores with nothing listed.
-/
namespace Sys2Proof.Machine

/-- A memory with nothing listed reads as 0 everywhere. -/
@[simp] theorem Memory.readN_nil (a n : Nat) : Memory.readN [] a n = List.replicate n 0 := by
  induction n generalizing a with
  | zero => rfl
  | succ n ih => rw [Memory.readN, ih, List.replicate_succ]; rfl

@[simp] theorem State.bytes_reset (a n : Nat) : State.reset.bytes a n = List.replicate n 0 := Memory.readN_nil a n

/-- R11: no register has been written yet, so each one reads its map's reset value. -/
@[simp] theorem State.reg_reset (a : Nat) : State.reset.reg a = resetAt a := rfl

@[simp] theorem State.core_reset (c : Nat) : State.reset.core c = {} := rfl

@[simp] theorem State.x_reset (c r : Nat) : State.reset.x c r = 0 := by
  unfold State.x
  split
  · rfl
  · rw [State.core_reset]; rfl

/-- The canonical form holds of a memory with nothing listed. -/
@[simp] theorem Memory.wf_nil : Memory.wf [] = true := rfl

/-- Settles O3: the registers, cores and memory by the lemmas on tables with nothing listed; HIF_ID, HIF_STATE and
HIF_IRQ_HOLDOFF from the map. -/
theorem resetLeaves : Obligations.ResetLeaves := by
  unfold Obligations.ResetLeaves
  have hif : State.reset.reg 0 = 0x11 ∧ State.reset.reg 4 = 0 ∧ State.reset.reg 0x28 = 0x64 := by decide
  exact ⟨rfl, rfl, rfl, rfl, rfl, State.bytes_reset, State.reg_reset, fun c r => ⟨State.x_reset c r, rfl⟩, hif⟩

/-- Settles O7: no byte is listed in any of the three memories. -/
theorem resetMemoryCanonical : Obligations.ResetMemoryCanonical := by
  unfold Obligations.ResetMemoryCanonical
  exact ⟨Memory.wf_nil, Memory.wf_nil, Memory.wf_nil⟩

end Sys2Proof.Machine

/-!
PROOFS. Register writes (R9, R446): what a write gives the bits of a register, what the check of an access can answer,
what REGISTER_WRITE does where it waits, where it is refused, where it is ignored and where it is taken.
-/
namespace Sys2Proof.Machine

/-! What a write gives the bits of one register. -/

theorem RegDef.take_ro {d : RegDef} (h : d.acc = .ro) (old v : Word) : d.take old v = old := by
  simp [RegDef.take, h]

theorem RegDef.getLsbD_take_rw {d : RegDef} (h : d.acc = .rw) (old v : Word) {i : Nat} (hi : i < 32) :
    (d.take old v).getLsbD i = if d.mask.testBit i then v.getLsbD i else old.getLsbD i := by
  simp only [RegDef.take, h, BitVec.getLsbD_or, BitVec.getLsbD_and, BitVec.getLsbD_not, BitVec.getLsbD_ofNat, hi]
  cases d.mask.testBit i <;> simp

theorem RegDef.getLsbD_take_w1c {d : RegDef} (h : d.acc = .w1c) (old v : Word) {i : Nat} (hi : i < 32) :
    (d.take old v).getLsbD i = (old.getLsbD i && !(v.getLsbD i && d.mask.testBit i)) := by
  simp only [RegDef.take, h, BitVec.getLsbD_and, BitVec.getLsbD_not, BitVec.getLsbD_ofNat, hi, decide_true, Bool.true_and]

/-- R9: the plain effect of a write on a register that its family lists. -/
theorem State.plainWrite_eq {s : State} {a o : Nat} {f : Fam} {d : RegDef} (hf : famAt a = some (f, o)) (hd : f.def? o = some d)
    (v : Word) : s.plainWrite a v = s.setReg a (d.take (s.reg a) v) := by
  simp [State.plainWrite, hf, hd]

/-! What the check of an access can answer. -/

theorem firstBad_map_ne_void {f : Nat → AccSt} (h : ∀ i, f i ≠ .void) (l : List Nat) : firstBad (l.map f) ≠ .void := by
  induction l with
  | nil => nofun
  | cons i l ih =>
    rw [List.map_cons]
    cases hx : f i with
    | ok => exact ih
    | void => exact absurd hx (h i)
    | addrFault => nofun
    | denied => nofun

theorem State.checkTier_ne_void (s : State) (w : World) (a : Nat) : s.checkTier w a ≠ .void := by
  unfold State.checkTier
  repeat' split
  all_goals decide

/-- R221, R446: the check of an access never answers VOID: only a read of bytes that cannot be corrected does. -/
theorem State.check_ne_void (s : State) (w : World) (a n : Nat) : s.check w a n ≠ .void := by
  unfold State.check
  dsimp only
  split
  · split <;> decide
  · split
    · decide
    case h_2 | h_3 =>
      refine firstBad_map_ne_void (fun i => ?_) _
      split
      · exact State.checkTier_ne_void s w _
      · exact State.checkTier_ne_void s w _
      · decide
    · repeat' split
      all_goals decide

/-! A Grey event and nothing else of the device. -/

/-- R412: a Grey event that is raised is all that happens. -/
theorem State.onlyGrey_raise (s : State) (w : World) (code source : Nat) (detail : List Byte) :
    s.onlyGrey (s.raise w code 1 source detail) :=
  have h := State.evented_raise s w code 1 source detail
  ⟨State.raise_grey .., h.mem, h.cores, h.2⟩

theorem State.onlyGrey_regIgnored (s : State) (w : World) (a : Nat) (v : Word) : s.onlyGrey (s.regIgnored w a v) :=
  State.onlyGrey_raise ..

/-- R446: an access whose check refuses it leaves a Grey event alone. -/
theorem State.onlyGrey_logFail {s : State} {w w' : World} {a a' n : Nat} (src : Nat) (h : s.check w a n ≠ .ok) :
    s.onlyGrey (s.logFail w' src a' (s.check w a n)) := by
  have hv := State.check_ne_void s w a n
  cases hc : s.check w a n with
  | ok => exact absurd hc h
  | void => exact absurd hc hv
  | addrFault => exact State.onlyGrey_raise ..
  | denied => exact State.onlyGrey_raise ..

/-! REGISTER_WRITE in each of its cases. -/

theorem exec_registerWrite (ag : Agent) (a : Nat) (v : Word) (s : State) :
    exec (.registerWrite ag a v) s = execRegisterWrite ag a v s := rfl

/-- R155: while the vector engine that the address reaches is busy, the write has no effect yet. -/
theorem exec_registerWrite_of_busy {s : State} {ag : Agent} {a : Nat} (hm : notMemory a = true) (hb : s.outsideBusy a 4 = true)
    (v : Word) : exec (.registerWrite ag a v) s = .next s := by
  simp [exec_registerWrite, execRegisterWrite, hm, hb]

theorem exec_registerWrite_of_free {s : State} {ag : Agent} {a : Nat} (hm : notMemory a = true) (hb : s.outsideBusy a 4 = false)
    (v : Word) : exec (.registerWrite ag a v) s = .next (s.regWrite ag s.hubSource a v).1 := by
  simp [exec_registerWrite, execRegisterWrite, hm, hb]

theorem State.regWrite_of_ok {s : State} {ag : Agent} {a : Nat} (h : s.agentCheck ag a 4 = .ok) (src : Nat) (v : Word) :
    s.regWrite ag src a v = s.regPut ag src a v := by
  simp [State.regWrite, h]

/-- R446: a write that fails its check leaves a Grey event alone. -/
theorem State.onlyGrey_regWrite_of_refused {s : State} {ag : Agent} {a : Nat} (h : s.agentCheck ag a 4 ≠ .ok) (src : Nat) (v : Word) :
    s.onlyGrey (s.regWrite ag src a v).1 := by
  unfold State.regWrite
  split
  · contradiction
  · exact State.onlyGrey_logFail src h

/-- R9: after the commit a write to a link register that locks is ignored. LNK_CTRL, which is not plain, does not lock. -/
theorem State.regPut_of_locked {s : State} {a o : Nat} {d : RegDef} (hf : famAt a = some (.lnk, o)) (hd : Fam.def? .lnk o = some d)
    (hl : d.acc = .lk) (hc : s.committed = true) (ag : Agent) (src : Nat) (v : Word) :
    (s.regPut ag src a v).1 = s.regIgnored (agentWorld ag) a v := by
  have ho : o ≠ 0x14 := by
    rintro rfl
    obtain rfl : RegDef.mk 0x14 "LNK_CTRL" .rw 0x1 0x0 = d := Option.some.inj hd
    cases hl
  simp [State.regPut, State.lnkPut, State.lockPut, hf, hd, hl, hc, ho]

/-- The families whose registers a write that passes its check gives its plain effect, the core control block among them but
for CORE_CTRL and CORE_WIDE. -/
def plainAt (f : Fam) (o : Nat) : Prop :=
  f ∈ [Fam.swp, .pool, .podPwr, .railIn, .pwr, .podThm, .saf] ∨ (f = .core ∧ o ≠ 8 ∧ o ≠ 0x44)

theorem State.regPut_of_plainAt {s : State} {a o : Nat} {f : Fam} (hf : famAt a = some (f, o)) (hp : plainAt f o) (ag : Agent)
    (src : Nat) (v : Word) : (s.regPut ag src a v).1 = s.plainWrite a v := by
  rcases hp with hp | ⟨rfl, h8, h44⟩
  · simp only [List.mem_cons, List.not_mem_nil, or_false] at hp
    rcases hp with rfl | rfl | rfl | rfl | rfl | rfl | rfl <;> simp only [State.regPut, hf]
  · simp only [State.regPut, State.corePut, hf, if_neg h8, if_neg h44]

/-- R9, R446: REGISTER_WRITE of a register with a plain effect sets that register to what its access code takes. -/
theorem exec_registerWrite_of_plainAt {s : State} {ag : Agent} {a o : Nat} {f : Fam} {d : RegDef} (hm : notMemory a = true)
    (hk : s.agentCheck ag a 4 = .ok) (hf : famAt a = some (f, o)) (hd : f.def? o = some d) (hp : plainAt f o)
    (hb : s.outsideBusy a 4 = false) (v : Word) :
    exec (.registerWrite ag a v) s = .next (s.setReg a (d.take (s.reg a) v)) := by
  rw [exec_registerWrite_of_free hm hb, State.regWrite_of_ok hk, State.regPut_of_plainAt hf hp, State.plainWrite_eq hf hd]

/-- R446, R9: REGISTER_WRITE that fails its check, or names a link register that has locked, leaves a Grey event alone. -/
theorem completes_registerWrite_onlyGrey {s : State} {ag : Agent} {a : Nat} (hm : notMemory a = true) (hb : s.outsideBusy a 4 = false)
    (v : Word) (h : s.agentCheck ag a 4 ≠ .ok
      ∨ ∃ o d, famAt a = some (.lnk, o) ∧ Fam.def? .lnk o = some d ∧ d.acc = .lk ∧ s.committed = true) :
    Completes (.registerWrite ag a v) s fun t => s.onlyGrey t := by
  refine ⟨_, exec_registerWrite_of_free hm hb v, ?_⟩
  by_cases hk : s.agentCheck ag a 4 = .ok
  · obtain ⟨o, d, hf, hd, hl, hc⟩ := h.resolve_left (not_not_intro hk)
    rw [State.regWrite_of_ok hk, State.regPut_of_locked hf hd hl hc]
    exact State.onlyGrey_regIgnored ..
  · exact State.onlyGrey_regWrite_of_refused hk ..

/-- Settles O27: a plain write is one `setReg` of what the access code takes; a refused or locked one is one Grey event; one to
a busy vector engine is no step of the state at all. -/
theorem registerWrites : Obligations.RegisterWrites := by
  unfold Obligations.RegisterWrites
  constructor
  · intro s ag a v f o d hm hk hf hd hp hb
    refine ⟨_, exec_registerWrite_of_plainAt hm hk hf hd hp hb v, rfl, fun b hne => State.reg_setReg_ne _ _ hne.symm, ?_⟩
    rw [State.reg_setReg_same]
    exact ⟨fun h => RegDef.take_ro h .., fun h _ hi => RegDef.getLsbD_take_rw h _ _ hi, fun h _ hi => RegDef.getLsbD_take_w1c h _ _ hi⟩
  · intro s ag a v hm
    exact ⟨fun hb => completes_registerWrite_onlyGrey hm hb v, fun hb => ⟨s, exec_registerWrite_of_busy hm hb v, rfl⟩⟩

end Sys2Proof.Machine

/-!
PROOFS. What every command keeps: the queue, and the canonical form of the memories. One lemma per command whose meaning is
more than one operation on the state; then the case split over all commands.
-/
namespace Sys2Proof.Machine

/-- A command whose meaning is taken where a condition holds. -/
theorem State.Keeps.ofNextIf {s u t : State} {c : Prop} [Decidable c] (h : s.Keeps u)
    (e : (.next (if c then u else s) : Host.Outcome State Fault Refusal) = .next t) : s.Keeps t :=
  State.Keeps.ofNext (.ite h (.refl s)) e

theorem State.Keeps.ofGuardedIf {s u t : State} {b : Bool} {c : Prop} [Decidable c] (h : s.Keeps u)
    (e : guarded b (if c then u else s) = .next t) : s.Keeps t :=
  State.Keeps.ofGuarded (.ite h (.refl s)) e

/-! Descriptors of the shuttles (R244 to R258). -/

theorem State.runDesc_keeps {s u t : State} (h : s.Keeps u) {x d pre retry fail st n k}
    (e : u.runDesc x d pre retry fail = some (t, st, n, k)) : s.Keeps t := by
  have ends : ∀ {p : Ended}, some p = some (t, st, n, k) → s.Keeps p.1 → s.Keeps t := by
    rintro _ ⟨⟩ g
    exact g
  unfold State.runDesc at e
  extract_lets bulk list j bad l j' key at e
  split at e
  · exact ends e h
  split at e
  · cases e
  split at e
  · exact ends e h
  split at e
  · exact ends e (State.stashRelease_keeps h)
  · exact ends e h
  split at e
  · exact ends e h
  split at e
  · exact ends e h
  split at e
  · cases e
  · exact ends e (State.moveDesc_keeps h)

theorem shuRow_keeps {op : Nat} {x : ShuSrc} {retry : Nat} {fail : Option Nat} {s t : State} (e : shuRow op x retry fail s = .next t) :
    s.Keeps t := by
  have h := State.Keeps.refl s
  refine State.Keeps.ofGuarded ?_ e
  split
  · exact h
  · split
    · split
      · exact State.placeAsk_keeps h
      · exact State.endDesc_keeps (State.runDesc_keeps h ‹_›)
    · exact h

/-! Rows of the kernel extension (R118). -/

theorem execSlvTurn_keeps {c : Nat} {s t : State} (e : execSlvTurn c s = .next t) : s.Keeps t := by
  have h := State.Keeps.refl s
  refine .ofGuarded (kernelRow_keeps h fun w => ?_) e
  exact .ite (State.retire_keeps h) (State.wait_keeps h)

theorem execSlvDone_keeps {c : Nat} {s t : State} (e : execSlvDone c s = .next t) : s.Keeps t :=
  have h := State.Keeps.refl s
  .ofGuarded (kernelRow_keeps h fun _ => State.syncThen_keeps h fun _ g => State.retire_keeps (State.markDone_keeps g)) e

theorem execKsync_keeps {c : Nat} {s t : State} (e : execKsync c s = .next t) : s.Keeps t :=
  have h := State.Keeps.refl s
  .ofGuarded (kernelRow_keeps h fun _ => State.syncThen_keeps h fun _ g => State.retire_keeps g) e

theorem execHrdArrive_keeps {c : Nat} {s t : State} (e : execHrdArrive c s = .next t) : s.Keeps t := by
  have h := State.Keeps.refl s
  refine .ofGuarded (kernelRow_keeps h fun w => ?_) e
  exact .ite (State.exception_keeps h) (State.retire_keeps (State.hrdJoin_keeps (State.onCore_keeps h)))

theorem execHrdWait_keeps {c : Nat} {s t : State} (e : execHrdWait c s = .next t) : s.Keeps t := by
  have h := State.Keeps.refl s
  refine .ofGuarded (kernelRow_keeps h fun w => ?_) e
  dsimp only
  split
  · exact State.exception_keeps h
  · split
    · exact State.exception_keeps h
    · exact .ite (State.wait_keeps h) (State.retire_keeps h)

theorem execShwait_keeps {c : Nat} {s t : State} (e : execShwait c s = .next t) : s.Keeps t := by
  have h := State.Keeps.refl s
  refine .ofGuarded (kernelRow_keeps h fun w => ?_) e
  exact .ite (State.retire_keeps h) (State.wait_keeps h)

theorem execSbTexp_keeps {c : Nat} {s t : State} (e : execSbTexp c s = .next t) : s.Keeps t :=
  have h := State.Keeps.refl s
  .ofGuarded (kernelRow_keeps h fun _ => State.withBook_keeps h (State.retire_keeps h)) e

theorem execSbErrs_keeps {c : Nat} {s t : State} (e : execSbErrs c s = .next t) : s.Keeps t :=
  have h := State.Keeps.refl s
  .ofGuarded (kernelRow_keeps h fun _ => State.withBook_keeps h (State.retire_keeps h)) e

theorem execSbRead_keeps {c : Nat} {s t : State} (e : execSbRead c s = .next t) : s.Keeps t := by
  have h := State.Keeps.refl s
  refine .ofGuarded (kernelRow_keeps h fun w => ?_) e
  exact .ite (State.exception_keeps h) (State.withBook_keeps h (State.retire_keeps h))

theorem execSbAmax_keeps {c : Nat} {s t : State} (e : execSbAmax c s = .next t) : s.Keeps t :=
  have h := State.Keeps.refl s
  .ofGuarded (kernelRow_keeps h fun _ => State.withBook_keeps h (State.retire_keeps (State.sbAmax_keeps h))) e

theorem execPodHurdleComplete_keeps {d : Nat} {p : Option Nat} {n : Nat} {s t : State}
    (e : execPodHurdleComplete d p n s = .next t) : s.Keeps t := by
  have h := State.Keeps.refl s
  refine .ofGuarded ?_ e
  dsimp only
  split
  · exact State.onPod_keeps h
  · exact State.Keeps.rest.mpr h

/-! Heats, the sweep, the pool, the twin. -/

theorem execPrefetchFillDone_keeps {i : Nat} {s t : State} (e : execPrefetchFillDone i s = .next t) : s.Keeps t := by
  have h := State.Keeps.refl s
  refine .ofNext ?_ e
  split
  · exact .ite (State.fillEnd_keeps h) h
  · exact h

theorem execFactorPass_keeps {u : Nat} {s t : State} (e : execFactorPass u s = .next t) : s.Keeps t := by
  have h := State.Keeps.refl s
  refine .ofGuarded ?_ e
  split
  · exact .ite (State.factorPass_keeps h) h
  · exact h

theorem execPoolGrant_keeps {cl n : Nat} {pin : Bool} {s t : State} (e : execPoolGrant cl n pin s = .next t) : s.Keeps t := by
  have h := State.Keeps.refl s
  refine .ofGuarded ?_ e
  split
  · exact .ite (State.poolDecide_keeps h) h
  · exact h

theorem execCollectiveEnd_keeps {i : Nat} {s t : State} (e : execCollectiveEnd i s = .next t) : s.Keeps t :=
  have h := State.Keeps.refl s
  .ofNext (.ite h (.ite (.ite (State.permCopy_keeps h) h) (.ite h (.ite (State.landRefused_keeps h)
    (.ite (State.rsCheck_keeps (State.progress_keeps (State.Keeps.rest.mpr (State.collEnd_keeps h))))
      (State.collEnd_keeps h)))))) e

theorem execHeatVoid_keeps {s t : State} (e : execHeatVoid s = .next t) : s.Keeps t := by
  have h := State.Keeps.refl s
  refine .ofNext ?_ e
  split
  · exact .ite (State.heatVoid_keeps h) h
  · exact h

theorem execRollbackDone_keeps {s t : State} (e : execRollbackDone s = .next t) : s.Keeps t :=
  have h := State.Keeps.refl s
  have g := State.Keeps.ite (State.rollbackDone_keeps h) h
  .ofNext (.ite (State.jobStopped_keeps g) g) e

theorem execHeatCommit_keeps {s t : State} (e : execHeatCommit s = .next t) : s.Keeps t := by
  have h := State.Keeps.refl s
  refine .ofNext ?_ e
  split
  · exact State.heatCommit_keeps h
  · exact h

theorem execProgressTimeout_keeps {s t : State} (e : execProgressTimeout s = .next t) : s.Keeps t := by
  have h := State.Keeps.refl s
  refine .ofNext ?_ e
  dsimp only
  split
  · exact h
  · split
    · exact State.jobCrimson_keeps (State.progressOff_keeps h)
    · exact State.ochre_keeps (State.progressOff_keeps h)

theorem execTwinHelloTimeout_keeps {s t : State} (e : execTwinHelloTimeout s = .next t) : s.Keeps t := by
  have h := State.Keeps.refl s
  refine .ofNext ?_ e
  split
  · exact .ite (State.setPairing_keeps (State.onTwin_keeps h)) h
  · exact h

theorem execMail_keeps {p : Nat} {s t : State} (e : execMail p s = .next t) : s.Keeps t := by
  have h := State.Keeps.refl s
  refine .ofGuarded ?_ e
  split
  · exact h
  · exact .ite (State.slotRx_keeps (State.popMsg_keeps h)) h

theorem execMirror_keeps {p : Nat} {s t : State} (e : execMirror p s = .next t) : s.Keeps t := by
  have h := State.Keeps.refl s
  have g : s.Keeps (s.popMsg p 3) := State.popMsg_keeps h
  refine .ofGuarded ?_ e
  split
  · exact h
  · dsimp only
    split
    · exact h
    · split
      · exact State.slotBad_keeps g
      · exact .ite h (.ite (.ite (State.slotBad_keeps g) (State.mirrorApply_keeps g)) (State.count_keeps g))

theorem execJogDigestPass_keeps {i g : Nat} {s t : State} (e : execJogDigestPass i g s = .next t) : s.Keeps t := by
  have h := State.Keeps.refl s
  refine .ofNext ?_ e
  dsimp only
  split
  · exact h
  · split
    · exact State.jobCrimson_keeps h
    · exact State.pullStart_keeps h

theorem execBatonStream_keeps {ok : Bool} {s t : State} (e : execBatonStream ok s = .next t) : s.Keeps t := by
  have h := State.Keeps.refl s
  refine .ofNext ?_ e
  split
  · exact .ite (State.raiseJob_keeps (State.onTwin_keeps h)) (State.onTwin_keeps (State.hostWrite_keeps h))
  · exact h

/-! Ports and messages. -/

theorem execKeepaliveSend_keeps {p : Nat} {s t : State} (e : execKeepaliveSend p s = .next t) : s.Keeps t :=
  .ofGuardedIf (State.pump_keeps (State.onPort_keeps (State.sendFlit_keeps (State.xTime_keeps (.refl s))))) e

theorem execPortTrainStart_keeps {p : Nat} {s t : State} (e : execPortTrainStart p s = .next t) : s.Keeps t :=
  have h := State.Keeps.refl s
  .ofGuarded (.ite (State.setLink_keeps h) (.ite (State.setLink_keeps h) h)) e

theorem execTrainStateTimeout_keeps {p : Nat} {s t : State} (e : execTrainStateTimeout p s = .next t) : s.Keeps t := by
  have h := State.Keeps.refl s
  refine .ofGuarded ?_ e
  dsimp only
  split
  · exact .ite (State.portDown_keeps h) h
  · exact .ite (State.portDown_keeps h) h
  · exact .ite (State.portDown_keeps h) h
  · exact h

theorem execLossOfBlockLock_keeps {p l : Nat} {s t : State} (e : execLossOfBlockLock p l s = .next t) : s.Keeps t := by
  have h := State.Keeps.refl s
  refine .ofGuarded ?_ e
  split
  case h_6 => exact h
  all_goals exact State.portDown_keeps h

theorem execEthFrame_keeps {p : Nat} {f : EthFrame} {s t : State} (e : execEthFrame p f s = .next t) : s.Keeps t := by
  have h := State.Keeps.refl s
  refine .ofGuarded ?_ e
  split
  · exact h
  · dsimp only
    split
    · exact State.raiseBits_keeps (State.count_keeps (State.fec_keeps h))
    · exact .foldl (State.fec_keeps h) fun _ _ g => State.rxAny_keeps g

theorem execMessageForward_keeps {p vc : Nat} {s t : State} (e : execMessageForward p vc s = .next t) : s.Keeps t := by
  have h := State.Keeps.refl s
  refine .ofGuarded ?_ e
  split
  · exact h
  · exact .ite h (.ite (State.dropMsg_keeps (State.popMsg_keeps h)) (State.forwardTo_keeps (State.popMsg_keeps h)))

theorem execWrite_keeps {p : Nat} {s t : State} (e : execWrite p s = .next t) : s.Keeps t := by
  have h := State.Keeps.refl s
  refine msgRow_keeps (fun m => ?_) e
  exact .ite h (State.msgWrite_keeps (State.popMsg_keeps h))

theorem execReadReq_keeps {p : Nat} {s t : State} (e : execReadReq p s = .next t) : s.Keeps t := by
  have h := State.Keeps.refl s
  refine msgRow_keeps (fun m => ?_) e
  exact .ite h (State.msgRead_keeps (State.popMsg_keeps h))

theorem execReadResp_keeps {p : Nat} {s t : State} (e : execReadResp p s = .next t) : s.Keeps t := by
  have h := State.Keeps.refl s
  refine msgRow_keeps (fun m => ?_) e
  exact State.popMsg_keeps h

theorem execAtomicAdd_keeps {p : Nat} {s t : State} (e : execAtomicAdd p s = .next t) : s.Keeps t := by
  have h := State.Keeps.refl s
  refine msgRow_keeps (fun m => ?_) e
  exact .ite h (State.msgAdd_keeps (State.popMsg_keeps h))

theorem execAtomicResp_keeps {p : Nat} {s t : State} (e : execAtomicResp p s = .next t) : s.Keeps t := by
  have h := State.Keeps.refl s
  refine msgRow_keeps (fun m => ?_) e
  exact State.popMsg_keeps h

theorem execWriteAck_keeps {p : Nat} {s t : State} (e : execWriteAck p s = .next t) : s.Keeps t := by
  have h := State.Keeps.refl s
  refine msgRow_keeps (fun m => ?_) e
  exact State.ackRx_keeps (State.popMsg_keeps h)

theorem execCollFrag_keeps {p : Nat} {s t : State} (e : execCollFrag p s = .next t) : s.Keeps t := by
  have h := State.Keeps.refl s
  refine msgRow_keeps (fun m => ?_) e
  exact .ite h (State.fragRx_keeps (State.popMsg_keeps h))

theorem execHurdle_keeps {p : Nat} {s t : State} (e : execHurdle p s = .next t) : s.Keeps t := by
  have h := State.Keeps.refl s
  refine msgRow_keeps (fun m => ?_) e
  exact State.hurdleRx_keeps (State.popMsg_keeps h)

/-! Power, rails, temperature. -/

theorem execPowerSample_keeps {w n c : Nat} {s t : State} (e : execPowerSample w n c s = .next t) : s.Keeps t :=
  have g := State.sampleTake_keeps (State.Keeps.refl s)
  .ofNextIf (.ite g (State.pwrDone_keeps (State.sample_keeps g))) e

theorem execOpSlewDone_keeps {s t : State} (e : execOpSlewDone s = .next t) : s.Keeps t := by
  have h := State.Keeps.refl s
  refine .ofNext ?_ e
  split
  · exact h
  · dsimp only
    split
    · exact State.count_keeps (State.putField_keeps
        (State.forAll_keeps (State.onPwr_keeps h) fun _ _ g => State.setRegN_keeps (State.setRegN_keeps g)))
    · exact State.forAll_keeps (State.onPwr_keeps h) fun _ _ g => State.setRegN_keeps g

theorem execLeavingDone_keeps {s t : State} (e : execLeavingDone s = .next t) : s.Keeps t :=
  have g := State.onPwr_keeps (State.sweepPause_keeps (State.setPst_keeps (State.Keeps.refl s)))
  .ofNextIf (State.pwrDone_keeps (State.twinStep_keeps
    (State.forAll_keeps (State.pwrMove_keeps (State.staggerFrom_keeps g)) fun _ _ k => State.pump_keeps k))) e

theorem execStaggerEnd_keeps {s t : State} (e : execStaggerEnd s = .next t) : s.Keeps t := by
  have h := State.Keeps.refl s
  refine .ofNext ?_ e
  split
  · exact .ite (State.putField_keeps (State.onPwr_keeps h)) h
  · exact h

theorem execPodTurnOn_keeps {p : Nat} {s t : State} (e : execPodTurnOn p s = .next t) : s.Keeps t :=
  have h := State.Keeps.refl s
  have g : s.Keeps _ := State.count_keeps (State.putField_keeps (State.putField_keeps (State.onPwr_keeps h)))
  .ofGuarded (.ite h (.ite (.ite h (State.count_keeps (State.onPwr_keeps h))) (.ite (State.count_keeps g) g))) e

theorem execWakeTokenReturn_keeps {d : Nat} {s t : State} (e : execWakeTokenReturn d s = .next t) : s.Keeps t := by
  have h := State.Keeps.refl s
  refine .ofGuarded ?_ e
  split
  · exact .ite (State.onPwr_keeps h) h
  · exact h

theorem execRailSetpointWindow_keeps {g mv n : Nat} {s t : State} (e : execRailSetpointWindow g mv n s = .next t) : s.Keeps t :=
  have h := State.Keeps.refl s
  have k : s.Keeps _ := State.onRails_keeps (State.minv_keeps (State.freeWord_keeps h))
  .ofGuarded (.ite h (.ite k (State.setRegN_keeps (.ite (State.raiseBits_keeps k) k)))) e

theorem execFastDroopEnd_keeps {n : Nat} {s t : State} (e : execFastDroopEnd n s = .next t) : s.Keeps t := by
  have h := State.Keeps.refl s
  refine .ofGuarded ?_ e
  split
  · exact State.count64_keeps (State.onRails_keeps h)
  · exact h

theorem execDroopFloor_keeps {g n mv : Nat} {s t : State} (e : execDroopFloor g n mv s = .next t) : s.Keeps t :=
  have h := State.Keeps.refl s
  have k : s.Keeps _ := State.raiseBits_keeps (State.sense_keeps (State.minv_keeps h))
  .ofGuarded (.ite h (.ite (State.vcoreFloor_keeps k) (State.safeEnter_keeps (State.droopEvent_keeps k)))) e

theorem execPhaseLost_keeps {g p : Nat} {s t : State} (e : execPhaseLost g p s = .next t) : s.Keeps t :=
  have h := State.Keeps.refl s
  have k : s.Keeps _ := State.putField_keeps (State.raiseBits_keeps (State.onRails_keeps h))
  .ofGuarded (.ite h (.ite (State.safeEnter_keeps (State.raise_keeps k)) (.ite (State.raise_keeps k)
    (State.ceilEvent_keeps (State.forAll_keeps k fun _ _ q => State.elecCeil_keeps (State.putField_keeps q)))))) e

theorem execPodOvercurrent_keeps {p n : Nat} {s t : State} (e : execPodOvercurrent p n s = .next t) : s.Keeps t :=
  .ofGuardedIf (State.goDark_keeps (State.raise_keeps (State.latchSf_keeps (State.raiseBits_keeps (State.setRegN_keeps (.refl s)))))) e

theorem execSliceLost_keeps {p : Nat} {s t : State} (e : execSliceLost p s = .next t) : s.Keeps t :=
  have h := State.Keeps.refl s
  have k : s.Keeps _ := State.elecCeil_keeps (State.putField_keeps
    (State.lowerLimit_keeps (State.raiseBits_keeps (State.putField_keeps (State.onRails_keeps h)))))
  .ofGuarded (.ite h (.ite (State.goDark_keeps (State.raise_keeps k)) (State.ceilEvent_keeps k))) e

theorem execCrackMeasure_keeps {p b d : Nat} {s t : State} (e : execCrackMeasure p b d s = .next t) : s.Keeps t :=
  have h := State.Keeps.refl s
  have k : s.Keeps _ := State.onRails_keeps (State.putField_keeps h)
  .ofGuarded (.ite h (.ite k (State.ceilEvent_keeps (State.raiseBits_keeps
    (State.lowerLimit_keeps (State.elecCeil_keeps (State.putField_keeps k))))))) e

/-- R574: a supply that comes back leaves the state of a reset. -/
theorem State.Keeps.resetWith {s : State} {p : Pins} :
    s.Keeps { State.reset with pending := s.pending, hostMem := s.hostMem, free := s.free, pins := p } :=
  ⟨rfl, fun k => ⟨Memory.wf_nil, Memory.wf_nil, k.2.2⟩⟩

theorem execRailBringUp_keeps {v : Nat} {s t : State} (e : execRailBringUp v s = .next t) : s.Keeps t :=
  .ofGuardedIf (State.putField_keeps (State.railsUp_keeps .resetWith)) e

theorem execPreviousLimitEnd_keeps {p : Nat} {s t : State} (e : execPreviousLimitEnd p s = .next t) : s.Keeps t := by
  have h := State.Keeps.refl s
  refine .ofGuarded ?_ e
  split
  · exact .ite (State.onRails_keeps h) h
  · exact h

theorem execCoolantStale_keeps {s t : State} (e : execCoolantStale s = .next t) : s.Keeps t :=
  have h := State.Keeps.refl s
  .ofNext (.ite h (State.derate_keeps
    (.ite h (State.raise_keeps (State.raiseBits_keeps (State.putField_keeps h)))))) e

theorem execFlowFailN_keeps {l : Bool} {s t : State} (e : execFlowFailN l s = .next t) : s.Keeps t :=
  have h := State.Keeps.refl s
  .ofNext (.ite (State.onThm_keeps h) (.ite (State.coolStop_keeps (State.onThm_keeps h)) (State.onThm_keeps h))) e

/-! The hubs, the host, self-test. -/

theorem execSelftestDone_keeps {r : SelfTest} {s t : State} (e : execSelftestDone r s = .next t) : s.Keeps t := by
  have h := State.Keeps.refl s
  refine .ofGuarded ?_ e
  split
  · exact h
  · have k : ∀ {u : State}, s.Keeps u → s.Keeps ((u.forAll (List.range 384) fun p v => v.podTested r p).retireList r) := fun q =>
      State.retireList_keeps (State.forAll_keeps q fun _ _ g => State.podTested_keeps g)
    dsimp only
    split
    · exact State.devCrimson_keeps (k (State.Keeps.rest.mpr h))
    · exact State.doneOf_keeps (State.setHif_keeps (k (State.Keeps.rest.mpr h)))

theorem execBar0Access_keeps {o n : Nat} {w : Option (List Byte)} {s t : State} (e : execBar0Access o w n s = .next t) : s.Keeps t := by
  have h := State.Keeps.refl s
  refine .ofGuarded ?_ e
  split
  · exact State.unclaimed_keeps h
  · split
    · exact .ite h (State.bar0Write_keeps h)
    · exact .ite h (State.bar0Read_keeps h)

theorem execBar2Access_keeps {o n : Nat} {w : Option (List Byte)} {s t : State} (e : execBar2Access o w n s = .next t) : s.Keeps t := by
  have h := State.Keeps.refl s
  refine .ofGuarded ?_ e
  split
  · exact State.unclaimed_keeps h
  · split
    · split
      · exact h
      · split
        · exact State.lateHome_keeps (State.arrive_keeps h)
        · exact State.hostBad_keeps (State.logFail_keeps h)
    · split
      · exact h
      · split
        · exact State.complete_keeps (State.readSeen_keeps h)
        · exact State.hostBad_keeps (State.refused_keeps (State.eccVoid_keeps h))
        · exact State.hostBad_keeps (State.logFail_keeps h)

theorem execPcieLinkReset_keeps {s t : State} (e : execPcieLinkReset s = .next t) : s.Keeps t :=
  have h := State.Keeps.refl s
  .ofNext (.ite h (State.trainPcie_keeps (State.raiseHub_keeps (State.freeWord_keeps (State.raiseBits_keeps (State.Keeps.rest.mpr h)))))) e

theorem execPerstNRelease_keeps {s t : State} (e : execPerstNRelease s = .next t) : s.Keeps t :=
  have h := State.Keeps.refl s
  have k : s.Keeps _ := State.trainPcie_keeps (State.setHif_keeps (.ite (State.released_keeps h) h))
  .ofNext (.ite (.ite (State.railsUp_keeps k) k) (State.Keeps.rest.mpr h)) e

theorem execDeferredCommandRun_keeps {k : Nat} {x : HostDma} {s t : State} (e : execDeferredCommandRun k x s = .next t) : s.Keeps t := by
  have h := State.Keeps.refl s
  refine .ofNext ?_ e
  split
  · exact h
  · split
    · exact h
    · exact .ite (State.deferRun_keeps h (cmdOf_keeps ‹_›)) h

theorem execHubTakeover_keeps {p : Nat} {s t : State} (e : execHubTakeover p s = .next t) : s.Keeps t :=
  have h := State.Keeps.refl s
  have k : s.Keeps _ := State.lockstep_keeps h
  .ofGuarded (.ite h (.ite (State.takeover_keeps k) (State.safeEnter_keeps (State.putField_keeps k)))) e

theorem execStandbyLost_keeps {p : Nat} {s t : State} (e : execStandbyLost p s = .next t) : s.Keeps t :=
  have h := State.Keeps.refl s
  .ofGuarded (.ite h (State.raise_keeps (State.putField_keeps (State.lockstep_keeps h)))) e

/-! All commands. -/

theorem mailboxRow_keeps {m op : Nat} {x : HostDma} {c : Cmd} {s t : State} (g : c.Keeps)
    (e : guarded (decide (m < 11)) (s.mailbox m x op c) = .next t) : s.Keeps t :=
  .ofGuarded (State.mailbox_keeps (.refl s) g) e

theorem issueRow_keeps {c : Nat} {k : KOp} {s t : State}
    (e : guarded (coreOk c) (kernelRow c (· == k) (fun w s => s.issue c (iArr w) w) s) = .next t) : s.Keeps t :=
  .ofGuarded (kernelRow_keeps (.refl s) fun _ => State.issue_keeps (.refl s)) e

/-- Every command keeps the queue as it is, and the canonical form of the memories. -/
theorem exec_keeps {c : Instr} {s t : State} (e : exec c s = .next t) : s.Keeps t := by
  have h := State.Keeps.refl s
  cases c with
  | hello _ _ => exact mailboxRow_keeps cmdHello_keeps e
  | echo _ _ => exact mailboxRow_keeps cmdEcho_keeps e
  | slLoad _ _ => exact mailboxRow_keeps cmdSlLoad_keeps e
  | slCommit _ _ => exact mailboxRow_keeps cmdSlCommit_keeps e
  | slDigest _ _ => exact mailboxRow_keeps cmdSlDigest_keeps e
  | slRead _ _ => exact mailboxRow_keeps cmdSlRead_keeps e
  | jobLoad _ _ => exact mailboxRow_keeps cmdJobLoad_keeps e
  | heatGo _ _ => exact mailboxRow_keeps cmdHeatGo_keeps e
  | jobStop _ _ => exact mailboxRow_keeps cmdJobStop_keeps e
  | jobUnload _ _ => exact mailboxRow_keeps cmdJobUnload_keeps e
  | jobReplace _ _ => exact mailboxRow_keeps cmdJobReplace_keeps e
  | heatStatus _ _ => exact mailboxRow_keeps cmdHeatStatus_keeps e
  | drillInstall _ _ => exact mailboxRow_keeps cmdDrillInstall_keeps e
  | drillClear _ _ => exact mailboxRow_keeps cmdDrillClear_keeps e
  | drillList _ _ => exact mailboxRow_keeps cmdDrillList_keeps e
  | objAlloc _ _ => exact mailboxRow_keeps cmdObjAlloc_keeps e
  | objFree _ _ => exact mailboxRow_keeps cmdObjFree_keeps e
  | objQuery _ _ => exact mailboxRow_keeps cmdObjQuery_keeps e
  | regionRead _ _ => exact mailboxRow_keeps cmdRegionRead_keeps e
  | pwrBudget _ _ => exact mailboxRow_keeps cmdPwrBudget_keeps e
  | pwrFloor _ _ => exact mailboxRow_keeps cmdPwrFloor_keeps e
  | pwrPark _ _ => exact mailboxRow_keeps cmdPwrPark_keeps e
  | pwrResume _ _ => exact mailboxRow_keeps cmdPwrResume_keeps e
  | pwrCeiling _ _ => exact mailboxRow_keeps cmdPwrCeiling_keeps e
  | pwrStatus _ _ => exact mailboxRow_keeps cmdPwrStatus_keeps e
  | tlmSnapshot _ _ => exact mailboxRow_keeps cmdTlmSnapshot_keeps e
  | tlmHeat _ _ => exact mailboxRow_keeps cmdTlmHeat_keeps e
  | ledgerRead _ _ => exact mailboxRow_keeps cmdLedgerRead_keeps e
  | ledgerLaps _ _ => exact mailboxRow_keeps cmdLedgerLaps_keeps e
  | safeStatus _ _ => exact mailboxRow_keeps cmdSafeStatus_keeps e
  | faultLog _ _ => exact mailboxRow_keeps cmdFaultLog_keeps e
  | evtFilter _ _ => exact mailboxRow_keeps cmdEvtFilter_keeps e
  | coolantReport _ _ => exact mailboxRow_keeps cmdCoolantReport_keeps e
  | trayIdent _ _ => exact mailboxRow_keeps cmdTrayIdent_keeps e
  | twinStatus _ _ => exact mailboxRow_keeps cmdTwinStatus_keeps e
  | twinMap _ _ => exact mailboxRow_keeps cmdTwinMap_keeps e
  | batonHost _ _ => exact mailboxRow_keeps cmdBatonHost_keeps e
  | batonRestore _ _ => exact mailboxRow_keeps cmdBatonRestore_keeps e
  | idKey _ _ => exact mailboxRow_keeps cmdIdKey_keeps e
  | attest _ _ => exact mailboxRow_keeps cmdAttest_keeps e
  | coreMap _ _ => exact mailboxRow_keeps cmdCoreMap_keeps e
  | selftest _ _ => exact mailboxRow_keeps cmdSelftest_keeps e
  | retireRead _ _ => exact mailboxRow_keeps cmdRetireRead_keeps e
  | deferredCommandRun _ _ => exact execDeferredCommandRun_keeps e
  | hubMbxDoorbell _ _ => exact .ofGuarded (State.doorbell_keeps h) e
  | hubMbxRspHead _ _ => exact .ofGuarded (State.rspHead_keeps h) e
  | hubEvtHead _ _ => exact .ofNext (State.evtHead_keeps h) e
  | hubTrayDoneHead _ => exact .ofNext (State.trayHead_keeps h) e
  | registerWrite _ _ _ => exact .ofGuarded (.ite h (State.regWrite_keeps h)) e
  | hubTakeover _ => exact execHubTakeover_keeps e
  | standbyLost _ => exact execStandbyLost_keeps e
  | scalarInstruction _ => exact .ofGuarded (State.scalarStep_keeps h) e
  | acfg _ => exact issueRow_keeps e
  | lds _ => exact issueRow_keeps e
  | stream _ => exact issueRow_keeps e
  | headRelease _ _ _ => exact .ofGuardedIf (State.headRelease_keeps h) e
  | promote _ => exact issueRow_keeps e
  | drain _ => exact issueRow_keeps e
  | qstore _ => exact issueRow_keeps e
  | await _ => exact .ofGuarded (kernelRow_keeps h fun _ => State.awaitExec_keeps h) e
  | repeatTrap _ => exact .ofGuardedIf (State.repeatTrap_keeps h) e
  | vadd _ => exact vRow_keeps e
  | vsub _ => exact vRow_keeps e
  | vmul _ => exact vRow_keeps e
  | vfma _ => exact vRow_keeps e
  | vmax _ => exact vRow_keeps e
  | vmin _ => exact vRow_keeps e
  | vmov _ => exact vRow_keeps e
  | vsel _ => exact vRow_keeps e
  | vabs _ => exact vRow_keeps e
  | vneg _ => exact vRow_keeps e
  | vexp _ => exact vRow_keeps e
  | vlog _ => exact vRow_keeps e
  | vrsqrt _ => exact vRow_keeps e
  | vrcp _ => exact vRow_keeps e
  | vclt _ => exact vRow_keeps e
  | vcle _ => exact vRow_keeps e
  | vceq _ => exact vRow_keeps e
  | mand _ => exact vRow_keeps e
  | mor _ => exact vRow_keeps e
  | mxor _ => exact vRow_keeps e
  | mnot _ => exact vRow_keeps e
  | mset _ => exact vRow_keeps e
  | mtri _ => exact vRow_keeps e
  | mbox _ => exact vRow_keeps e
  | vrsumr _ => exact vRow_keeps e
  | vrmaxr _ => exact vRow_keeps e
  | vrsumc _ => exact vRow_keeps e
  | vrmaxc _ => exact vRow_keeps e
  | vamax _ => exact vRow_keeps e
  | vgetr _ => exact vRow_keeps e
  | vgetc _ => exact vRow_keeps e
  | vputr _ => exact vRow_keeps e
  | vputc _ => exact vRow_keeps e
  | vtrn _ => exact vRow_keeps e
  | vdrop _ => exact vRow_keeps e
  | vrand _ => exact vRow_keeps e
  | shq _ => exact .ofGuarded (kernelRow_keeps h fun _ => State.shqExec_keeps h) e
  | shwait _ => exact execShwait_keeps e
  | slvTake _ => exact .ofGuarded (kernelRow_keeps h fun _ => State.slvTake_keeps h) e
  | slvTurn _ => exact execSlvTurn_keeps e
  | slvDone _ => exact execSlvDone_keeps e
  | hrdArrive _ => exact execHrdArrive_keeps e
  | hrdWait _ => exact execHrdWait_keeps e
  | podHurdleComplete _ _ _ => exact execPodHurdleComplete_keeps e
  | ksync _ => exact execKsync_keeps e
  | sbTexp _ => exact execSbTexp_keeps e
  | sbErrs _ => exact execSbErrs_keeps e
  | sbRead _ => exact execSbRead_keeps e
  | sbAmax _ => exact execSbAmax_keeps e
  | coreRun _ => exact .ofGuardedIf (State.runWrite_keeps h) e
  | coreStop _ => exact .ofGuardedIf (State.stopWrite_keeps h) e
  | corePark _ _ => exact .ofGuarded (State.parkWrite_keeps h) e
  | podSlvTail _ _ => exact .ofGuarded (State.slvTail_keeps h) e
  | edgGateLapclose _ => exact .ofNext (State.lapClose_keeps h) e
  | edgGateFwdclose _ => exact .ofNext (State.fwdClose_keeps h) e
  | edgPfMark _ => exact .ofNext (State.pfMark_keeps h) e
  | prefetchFillDone _ => exact execPrefetchFillDone_keeps e
  | poolGrant _ _ _ => exact execPoolGrant_keeps e
  | gradientPathHomeRead _ => exact .ofNextIf (State.homeRead_keeps h) e
  | amaxReduction _ _ => exact .ofNextIf (State.amaxReduce_keeps h) e
  | sweepPhaseStart => exact .ofNextIf (State.sweepPhase_keeps h) e
  | sweepShardStart _ => exact .ofGuarded (State.shardStart_keeps h) e
  | factorPass _ => exact execFactorPass_keeps e
  | sweepBlock _ => exact .ofGuarded (State.sweepBlock_keeps h) e
  | scaleBookWrite => exact .ofNextIf (State.twinStep_keeps (State.bookWrite_keeps h)) e
  | attemptStart => exact .ofNextIf (State.attemptStart_keeps h) e
  | stashWalk => exact .ofNext (State.stashWalk_keeps h) e
  | heatVoid => exact execHeatVoid_keeps e
  | rollbackDone => exact execRollbackDone_keeps e
  | heatCommit => exact execHeatCommit_keeps e
  | batonStream _ => exact execBatonStream_keeps e
  | progressTimeout => exact execProgressTimeout_keeps e
  | copy _ _ _ => exact shuRow_keeps e
  | gather _ _ _ => exact shuRow_keeps e
  | scatter _ _ _ => exact shuRow_keeps e
  | transpose _ _ _ => exact shuRow_keeps e
  | imm _ _ _ => exact shuRow_keeps e
  | completionRecordWrite _ => exact .ofGuarded (State.recWrite_keeps h) e
  | listPortFetch _ _ => exact .ofGuardedIf (State.lpFetch_keeps h) e
  | podShuLpPush _ _ _ => exact .ofGuarded (State.lpPush_keeps h) e
  | edgBshGo _ _ _ => exact .ofGuarded (State.bshGo_keeps h) e
  | shadowActivate _ _ => exact .ofGuardedIf (State.bshActivate_keeps h) e
  | edgBshStop _ _ => exact .ofGuarded (State.bshStop_keeps h) e
  | cqHead _ _ => exact .ofGuarded (State.cqHead_keeps h) e
  | cqEnable _ _ => exact .ofGuarded (State.cqCtrl_keeps h) e
  | hbmScrub _ _ _ => exact .ofGuarded (.ite h (State.scrubRead_keeps (State.sectorMet_keeps h))) e
  | portTrainStart _ => exact execPortTrainStart_keeps e
  | pmdTrainDone _ => exact .ofGuardedIf (State.setLink_keeps h) e
  | pcsLock _ => exact .ofGuardedIf (State.setLink_keeps (State.Keeps.rest.mpr h)) e
  | trainStateTimeout _ => exact execTrainStateTimeout_keeps e
  | trainFlit _ _ => exact .ofGuarded (State.rxFlit_keeps (State.fec_keeps h) fun _ g => State.rxTrain_keeps g) e
  | dataFlit _ _ => exact .ofGuarded (State.rxFlit_keeps (State.fec_keeps h) fun _ g => State.rxData_keeps g) e
  | nullFlit _ _ => exact .ofGuarded (State.rxFlit_keeps (State.fec_keeps h) fun _ g => State.rxNull_keeps g) e
  | keepalive _ _ => exact .ofGuarded (State.rxFlit_keeps (State.fec_keeps h) fun _ g => State.rxKeep_keeps g) e
  | keepaliveSend _ => exact execKeepaliveSend_keeps e
  | creditFlitSend _ => exact .ofGuardedIf (State.pump_keeps (State.sendCounts_keeps h)) e
  | replayTimeout _ => exact .ofGuardedIf (State.doReplay_keeps h) e
  | silence _ => exact .ofGuardedIf (State.portDown_keeps h) e
  | ethFrame _ _ => exact execEthFrame_keeps e
  | lnkRetrain _ => exact .ofGuarded (State.retrain_keeps h) e
  | lnkHoldDown _ _ => exact .ofGuarded (State.setHold_keeps h) e
  | messageForward _ _ => exact execMessageForward_keeps e
  | write _ => exact execWrite_keeps e
  | readReq _ => exact execReadReq_keeps e
  | readResp _ => exact execReadResp_keeps e
  | atomicAdd _ => exact execAtomicAdd_keeps e
  | atomicResp _ => exact execAtomicResp_keeps e
  | writeAck _ => exact execWriteAck_keeps e
  | collFrag _ => exact execCollFrag_keeps e
  | hurdle _ => exact execHurdle_keeps e
  | mail _ => exact execMail_keeps e
  | mirror _ => exact execMirror_keeps e
  | collectiveTrigger _ => exact .ofNextIf (State.collOpen_keeps h) e
  | collectiveEnd _ => exact execCollectiveEnd_keeps e
  | edgRlyKick _ _ => exact .ofGuarded (State.rlyKick_keeps h) e
  | edgRlyRelease _ _ => exact .ofGuarded (State.rlyKick_keeps h) e
  | twinHelloTimeout => exact execTwinHelloTimeout_keeps e
  | jogDigestPass _ _ => exact execJogDigestPass_keeps e
  | powerSample _ _ _ => exact execPowerSample_keeps e
  | opSlewDone => exact execOpSlewDone_keeps e
  | floorLate => exact .ofNextIf (State.pwrEvent_keeps (State.raiseBits_keeps (State.onPwr_keeps h))) e
  | leavingDone => exact execLeavingDone_keeps e
  | staggerEnd => exact execStaggerEnd_keeps e
  | longSliver _ => exact .ofGuardedIf (State.pwrEvent_keeps (State.raiseBits_keeps (State.onCore_keeps h))) e
  | podGateOff _ => exact .ofGuardedIf (State.putField_keeps h) e
  | wakeTokenReturn _ => exact execWakeTokenReturn_keeps e
  | podTurnOn _ => exact execPodTurnOn_keeps e
  | softStartDone _ => exact .ofGuardedIf (State.putField_keeps h) e
  | wakeHoldN _ => exact .ofNext (State.putField_keeps (State.Keeps.rest.mpr h)) e
  | railSetpointWindow _ _ _ => exact execRailSetpointWindow_keeps e
  | fastDroopStart _ _ _ => exact .ofGuardedIf (State.count_keeps (State.onRails_keeps (State.sense_keeps (State.minv_keeps h)))) e
  | fastDroopEnd _ => exact execFastDroopEnd_keeps e
  | droopFloor _ _ _ => exact execDroopFloor_keeps e
  | phaseLost _ _ => exact execPhaseLost_keeps e
  | railOvercurrent _ _ => exact .ofGuardedIf (State.devCrimson_keeps (State.setRegN_keeps (State.raiseBits_keeps (State.setRegN_keeps h)))) e
  | podOvercurrent _ _ => exact execPodOvercurrent_keeps e
  | sliceLost _ => exact execSliceLost_keeps e
  | podDark _ => exact .ofGuarded (.ite h (State.goDark_keeps (State.raiseBits_keeps h))) e
  | crackMeasure _ _ _ => exact execCrackMeasure_keeps e
  | edgRailMinvReset _ => exact .ofGuarded (State.minvReset_keeps h) e
  | inputUvWarn _ => exact .ofGuardedIf (State.raise_keeps (State.raiseBits_keeps (State.putField_keeps (State.Keeps.rest.mpr h)))) e
  | inputUvRecover _ => exact .ofGuardedIf (State.putField_keeps (State.Keeps.rest.mpr h)) e
  | inputTrip _ => exact .ofGuardedIf (State.powerOff_keeps h) e
  | railBringUp _ => exact execRailBringUp_keeps e
  | sensorReading _ _ _ _ _ => exact .ofGuardedIf (State.reading_keeps h) e
  | thermalPeriod => exact .ofNextIf (State.rateCheck_keeps (State.floorBands_keeps (State.bands_keeps (State.onThm_keeps h)))) e
  | coolantStale => exact execCoolantStale_keeps e
  | flowFailN _ => exact execFlowFailN_keeps e
  | criticalTrip _ => exact .ofGuardedIf (State.powerOff_keeps h) e
  | configCheck => exact .ofNextIf (State.configCheck_keeps h) e
  | pllUnlock => exact .ofNextIf (State.devCrimson_keeps h) e
  | perstNAssert => exact .ofNext .resetWith e
  | perstNRelease => exact execPerstNRelease_keeps e
  | pcieLinkReset => exact execPcieLinkReset_keeps e
  | d3hotEntry => exact .ofNext (State.onHost_keeps h) e
  | bar0Access _ _ _ => exact execBar0Access_keeps e
  | bar2Access _ _ _ => exact execBar2Access_keeps e
  | hostDmaFail _ => exact .ofNext (State.dmaFail_keeps h) e
  | msixHoldoffEnd _ => exact .ofGuardedIf (State.signal_keeps (State.onHost_keeps h)) e
  | bootGo => exact .ofNext (State.bootGo_keeps h) e
  | bootEnrol => exact .ofNext (State.bootGo_keeps h) e
  | selftestDone _ => exact execSelftestDone_keeps e
  | selftestWindowExpiry => exact .ofNextIf (State.onBoot_keeps h) e
  | i3cPrivateWrite _ _ => exact .ofNext (State.i3cWrite_keeps h) e
  | i3cPrivateRead _ _ => exact .ofNext (State.i3cRead_keeps h) e
  | setdasa _ => exact .ofGuarded (State.i3cGive_keeps h) e
  | entdaa _ => exact .ofGuarded (State.i3cGive_keeps h) e
  | rstdaa => exact .ofNextIf (State.onI3c_keeps h) e
  | setmwl _ => exact .ofNextIf (State.onI3c_keeps h) e
  | ibiEnable => exact .ofNextIf (State.ibiFlush_keeps (State.onI3c_keeps h)) e
  | ibiDisable => exact .ofNextIf (State.onI3c_keeps h) e
  | lossOfBlockLock _ _ => exact execLossOfBlockLock_keeps e
  | podSlvCtrl _ _ => exact .ofGuarded (State.plainWrite_keeps h) e
  | returnToD0 => exact .ofNext (State.flushVecs_keeps (State.onHost_keeps h)) e
  | busMasterEnable => exact .ofNext (State.flushVecs_keeps (State.onHost_keeps h)) e
  | bar2Resize _ => exact .ofGuarded (State.setReg64_keeps (State.onHost_keeps h)) e
  | hbmTemperatureReadout _ _ => exact .ofGuardedIf (State.tctlRefresh_keeps (State.onThm_keeps h)) e
  | previousLimitEnd _ => exact execPreviousLimitEnd_keeps e
  | thermTripNClear _ => exact .ofGuardedIf (State.Keeps.rest.mpr h) e
  | syntheticArrayPass _ _ _ => exact .ofGuardedIf (State.onPwr_keeps (State.count64_keeps h)) e

/-- R12 to R20: the meaning of every command is a next state behind the check of its operands. -/
theorem exec_eq_guarded (c : Instr) (s : State) : ∃ t, exec c s = guarded c.wf t := by
  cases c <;> exact ⟨_, rfl⟩

theorem exec_of_wf {c : Instr} (s : State) (h : c.wf = true) : ∃ t, exec c s = .next t := by
  obtain ⟨t, e⟩ := exec_eq_guarded c s
  exact ⟨t, by rw [e, h]; rfl⟩

theorem exec_of_not_wf {c : Instr} (s : State) (h : c.wf = false) : exec c s = .fault .noSuchUnit := by
  obtain ⟨t, e⟩ := exec_eq_guarded c s
  rw [e, h]; rfl

end Sys2Proof.Machine

/-!
PROOFS. Every command completes or names a unit that the device does not have (R12 to R20), and what that makes of the queue.
-/
namespace Sys2Proof.Machine

/-- R380: a step takes the command at the front off the queue, and neither adds nor moves another. -/
theorem step_pending {s t : State} (e : step s = .next t) : t.pending = s.pending.tail := by
  unfold step at e
  split at e
  case h_1 hp => rw [((State.tick_keeps (.refl s)).ofNext e).1, hp]; rfl
  case h_2 c q hp => rw [(exec_keeps e).1, hp]; rfl

theorem step_queueOk {s t : State} (h : s.queueOk) (e : step s = .next t) : t.queueOk := by
  intro c hc
  rw [step_pending e] at hc
  exact h c (List.mem_of_mem_tail hc)

theorem safeStep_of_queueOk {s : State} (h : s.queueOk) : SafeStep s := by
  unfold SafeStep step
  split
  case h_1 => exact ⟨_, rfl⟩
  case h_2 c q hp => exact exec_of_wf _ (h c (hp ▸ List.mem_cons_self))

/-- As many steps as commands wait empty the queue. -/
theorem run_of_queueOk {n : Nat} {s : State} (h : s.queueOk) (hn : s.pending.length = n) :
    ∃ t, Host.Core.run Sys2Proof.core n s = .next t ∧ t.pending = [] := by
  induction n generalizing s with
  | zero => exact ⟨s, rfl, List.length_eq_zero_iff.mp hn⟩
  | succ n ih =>
    obtain ⟨u, e⟩ := safeStep_of_queueOk h
    have hu : u.pending.length = n := by rw [step_pending e, List.length_tail, hn, Nat.add_sub_cancel]
    obtain ⟨t, r, ht⟩ := ih (step_queueOk h e) hu
    refine ⟨t, ?_, ht⟩
    have e' : Sys2Proof.core.step s = .next u := e
    simpa only [Host.Core.run, e'] using r

/-- Settles O4: every command's meaning is one next state behind the check of its operands. -/
theorem stopsExactlyOutsideTheDevice : Obligations.StopsExactlyOutsideTheDevice := by
  unfold Obligations.StopsExactlyOutsideTheDevice
  exact fun _ s => ⟨exec_of_wf s, exec_of_not_wf s⟩

/-- Settles O5, by induction on the number of commands that wait: each step is safe and takes one off. -/
theorem queueRunsToItsEnd : Obligations.QueueRunsToItsEnd := by
  unfold Obligations.QueueRunsToItsEnd
  exact fun s h => ⟨fun t e => ⟨step_pending e, step_queueOk h e⟩, run_of_queueOk h rfl⟩

end Sys2Proof.Machine

/-!
PROOFS. What sending on the ports (R282 to R297) can change: registers of the edge dies, the ports, the wire.
-/
namespace Sys2Proof.Machine

/-- What the state before a fold has, and every step of the fold keeps, the state after it has. -/
theorem State.forAll_induct {P : State → Prop} {s : State} {l : List Nat} {f : Nat → State → State} (h : P s)
    (g : ∀ i t, i ∈ l → P t → P (f i t)) : P (s.forAll l f) := by
  unfold State.forAll
  induction l generalizing s with
  | nil => exact h
  | cons a l ih => exact ih (g a s List.mem_cons_self h) fun i t hi => g i t (List.mem_cons_of_mem _ hi)

/-- A fold of steps that do nothing. -/
theorem State.forAll_eq_self {s : State} {l : List Nat} {f : Nat → State → State} (g : ∀ i, i ∈ l → f i s = s) : s.forAll l f = s :=
  State.forAll_induct (P := (· = s)) rfl fun i t hi h => by rw [h]; exact g i hi

theorem blkBase_le_lnkAt (p : Nat) : blkBase ≤ lnkAt p := by unfold lnkAt blk; omega

/-- `t` is `s` but for the ports, the wire, and registers of the edge, hub and reservoir dies. -/
structure State.Linked (s t : State) : Prop where
  rest : t = { s with regs := t.regs, ports := t.ports, wire := t.wire }
  reg : ∀ a, a < blkBase → t.reg a = s.reg a

theorem State.Linked.refl (s : State) : s.Linked s := ⟨rfl, fun _ _ => rfl⟩

theorem State.Linked.trans {s t u : State} (h : s.Linked t) (g : t.Linked u) : s.Linked u :=
  ⟨by rw [g.rest, h.rest], fun a k => (g.reg a k).trans (h.reg a k)⟩

theorem State.Linked.ite {s t u : State} {c : Prop} [Decidable c] (h : s.Linked t) (g : s.Linked u) : s.Linked (if c then t else u) := by
  split
  · exact h
  · exact g

theorem State.linked_setReg (s : State) {a : Nat} (w : Word) (h : blkBase ≤ a) : s.Linked (s.setReg a w) :=
  ⟨rfl, fun b k => State.reg_setReg_ne _ _ (by omega)⟩

theorem State.linked_setRegN (s : State) {a : Nat} (n : Nat) (h : blkBase ≤ a) : s.Linked (s.setRegN a n) := s.linked_setReg _ h

theorem State.linked_count64 (s : State) {a : Nat} (n : Nat) (h : blkBase ≤ a) : s.Linked (s.count64 a n) :=
  (s.linked_setRegN _ h).trans (State.linked_setRegN _ _ (by omega))

theorem State.linked_onPort (s : State) (p : Nat) (f : Port → Port) : s.Linked (s.onPort p f) := ⟨rfl, fun _ _ => rfl⟩

theorem State.linked_sendFlit (s : State) (p kind vc seq : Nat) (b : List Byte) : s.Linked (s.sendFlit p kind vc seq b) :=
  (s.linked_onPort p _).trans (State.linked_count64 _ _ (Nat.le_add_right_of_le (blkBase_le_lnkAt p)))

theorem State.linked_flush (s : State) (p : Nat) : s.Linked (s.flush p) := ⟨rfl, fun _ _ => rfl⟩

theorem State.linked_linkRefresh (s : State) (p : Nat) : s.Linked (s.linkRefresh p) := by
  have h : ∀ k, blkBase ≤ lnkAt p + k := fun k => Nat.le_add_right_of_le (blkBase_le_lnkAt p)
  exact ((s.linked_setRegN _ (h _)).trans (State.linked_setRegN _ _ (h _))).trans (State.linked_setRegN _ _ (h _))

theorem State.linked_sendTrain (s : State) (p : Nat) : s.Linked (s.sendTrain p) :=
  (s.linked_sendFlit ..).trans (State.linked_flush ..)

theorem State.linked_turnOn (s : State) (p : Nat) (m : Nat × List Byte) : s.Linked (s.turnOn p m) :=
  .ite (s.linked_onPort ..) (.refl s)

theorem State.linked_sendOne (s : State) (p : Nat) (m : Nat × List Byte) : s.Linked (s.sendOne p m) :=
  (((s.linked_onPort ..).trans (State.linked_turnOn ..)).trans (State.linked_sendFlit ..)).trans (State.linked_linkRefresh ..)

theorem State.linked_pumpN (p n : Nat) (s : State) : s.Linked (State.pumpN p n s) := by
  induction n generalizing s with
  | zero => exact .refl s
  | succ n ih =>
    unfold State.pumpN
    split
    · exact .refl s
    · exact (s.linked_sendOne ..).trans (ih _)

theorem State.linked_pump (s : State) (p : Nat) : s.Linked (s.pump p) := (State.linked_pumpN ..).trans (State.linked_flush ..)

theorem State.linked_queueMsg (s : State) (p vc : Nat) (m : List Byte) : s.Linked (s.queueMsg p vc m) :=
  .ite ((s.linked_onPort ..).trans (State.linked_pump ..)) (.refl s)

/-- R354: the broadcast of a void leaves on the ports. -/
theorem State.linked_voidSend (s : State) (j origin heat attempt : Nat) : s.Linked (s.voidSend j origin heat attempt) :=
  State.forAll_induct (P := s.Linked) (.refl s) fun _ t _ h => h.trans (t.linked_queueMsg ..)

end Sys2Proof.Machine

/-!
PROOFS. The T-tick of an empty queue (log 3): each thing that the spec ties to time moves its own part of the state.
-/
namespace Sys2Proof.Machine

/-- R232: an upset changes which sectors hold an error, and draws one free value. -/
theorem State.upset_frame (s : State) : s.upset = { s with free := s.free + 1, soft := s.upset.soft, badEcc := s.upset.badEcc } := by
  unfold State.upset State.strike
  extract_lets t
  split
  · rfl
  · extract_lets there
    repeat' split
    all_goals rfl

theorem State.upset_of_none {s : State} (h : Config.upset s.free = none) : s.upset = { s with free := s.free + 1 } := by
  unfold State.upset; rw [h]

theorem State.slewTick_frame (s : State) : s.slewTick = { s with time := s.slewTick.time } := by
  unfold State.slewTick; extract_lets t; split <;> rfl

/-- R301: with no offset left a tick has 14 X-cycles. -/
theorem State.slewTick_of_settled {s : State} (h : s.time.want = 0) : s.slewTick = { s with time := { s.time with len := 14 } } := by
  unfold State.slewTick; rw [if_pos (Or.inl h)]

/-- R304: a port in training sends; only registers, ports and the wire change. -/
theorem State.linked_trainTick (s : State) : s.Linked s.trainTick :=
  State.forAll_induct (P := s.Linked) (.refl s) fun p t _ h => h.trans (.ite (State.linked_sendTrain t p) (.refl t))

theorem State.trainTick_of_none {s : State} (h : ∀ p, p < 16 → s.linkState p ≠ 3) : s.trainTick = s := by
  refine State.forAll_eq_self fun p hp => if_neg ?_
  simp [h p (List.mem_range.mp hp)]

/-- R582: with no In-Band Interrupt due none is sent. -/
theorem State.ibiFlush_of_none {s : State} (h : s.i3c.due = []) : s.ibiFlush = s := by
  unfold State.ibiFlush; rw [h]; rfl

/-- The state as a tick finds it: the tick counter has risen. -/
def State.nextTick (s : State) : State := { s with now := s.now + 1 }

theorem State.tick_eq (s : State) : s.tick = s.nextTick.upset.slewTick.trainTick.ibiFlush := rfl

/-- Settles O2: the frames of the four parts of a tick, one after the other, and what each part leaves with nothing to do. -/
theorem emptyQueueTicks : Obligations.EmptyQueueTicks := by
  unfold Obligations.EmptyQueueTicks
  intro s hq
  refine ⟨s.tick, by unfold step; rw [hq], ?_⟩
  have upset := s.nextTick.upset_frame
  have slewed := s.nextTick.upset.slewTick_frame
  have trained := s.nextTick.upset.slewTick.linked_trainTick.rest
  have flushed := s.nextTick.upset.slewTick.trainTick.ibiFlush_rest
  have upset0 : Config.upset s.free = none → _ := State.upset_of_none (s := s.nextTick)
  have slewed0 := State.slewTick_of_settled (s := s.nextTick.upset)
  have trained0 := State.trainTick_of_none (s := s.nextTick.upset.slewTick)
  have flushed0 := State.ibiFlush_of_none (s := s.nextTick.upset.slewTick.trainTick)
  rw [State.tick_eq]
  generalize s.nextTick.upset.slewTick.trainTick.ibiFlush = t at *
  generalize s.nextTick.upset.slewTick.trainTick = d at *
  generalize s.nextTick.upset.slewTick = c at *
  generalize s.nextTick.upset = b at *
  have hc : c.regs = s.regs ∧ c.ports = s.ports ∧ c.wire = s.wire ∧ c.i3c = s.i3c := by
    rw [slewed, upset]; exact ⟨rfl, rfl, rfl, rfl⟩
  obtain ⟨regs, ports, wire, i3c⟩ := hc
  refine ⟨?_, fun h => ?_, fun h => ?_, fun h => ?_, fun h => ?_⟩
  · rw [flushed, trained, slewed, upset]; rfl
  · have hb := upset0 h
    rw [flushed, trained, slewed, hb]
    exact ⟨rfl, rfl⟩
  · have hb : b.time = s.time := by rw [upset]; rfl
    rw [flushed, trained, slewed0 (by rw [hb]; exact h), hb]
  · have hd := trained0 fun p hp => by
      unfold State.linkState State.regN
      rw [State.reg_congr regs]
      exact h p hp
    rw [flushed, hd]
    exact ⟨regs, ports, wire⟩
  · have hd : d.i3c = s.i3c := by rw [trained]; exact i3c
    rw [flushed0 (by rw [hd]; exact h), hd]

end Sys2Proof.Machine

/-!
PROOFS. The safe state (R539): the registers that an event leaves, and all that lets the device be as it is but for HIF_STATE.
-/
namespace Sys2Proof.Machine

/-! Registers that an event does not write. -/

@[simp] theorem State.signal_reg (s : State) (v a : Nat) : (s.signal v).reg a = s.reg a := by
  unfold State.signal State.sendVec
  repeat' split
  all_goals rfl

theorem ringPage_ge (w : World) : 0x100000 ≤ ringPage w := by cases w <;> decide

theorem State.ringDrop_reg (s : State) (w : World) {a : Nat} (h : a < 0x100000) : (s.ringDrop w).reg a = s.reg a := by
  have hc : (s.count (ringPage w + 0x48) 1).reg a = s.reg a := State.reg_count_ne _ _ (by have := ringPage_ge w; omega)
  cases w <;> exact hc

theorem State.ringWrite_reg (s : State) (w : World) (e : Event) {a : Nat} (h : a < 0x100000) : (s.ringWrite w e).reg a = s.reg a := by
  unfold State.ringWrite
  rw [State.signal_reg, State.reg_setRegN_ne _ _ (by have := ringPage_ge w; omega)]
  rfl

theorem State.ringPut_reg (s : State) (w : World) (e : Event) {a : Nat} (h : a < 0x100000) : (s.ringPut w e).reg a = s.reg a := by
  unfold State.ringPut
  extract_lets mask
  split
  · rfl
  split
  · exact State.ringWrite_reg _ _ _ h
  split
  · exact State.ringDrop_reg _ _ h
  split
  · rfl
  · exact State.ringDrop_reg _ _ h

theorem State.raise_reg (s : State) (w : World) (code shade src : Nat) (d : List Byte) {a : Nat} (h : a < 0x100000) :
    (s.raise w code shade src d).reg a = s.reg a := by
  unfold State.raise
  extract_lets e
  split
  · rw [State.signal_reg, State.ringPut_reg _ _ _ h, State.ringPut_reg _ _ _ h]; rfl
  · rw [State.ringPut_reg _ _ _ h]; rfl

/-! What lets the device be as it is: device memory, HIF_STATE, and that no attempt runs. -/

structure State.Calm (s t : State) : Prop where
  mem : t.mem = s.mem
  hif : t.reg 4 = s.reg 4
  still : s.heat.running = false → t.heat.running = false

theorem State.Calm.refl (s : State) : s.Calm s := ⟨rfl, rfl, id⟩

theorem State.Calm.trans {s t u : State} (h : s.Calm t) (g : t.Calm u) : s.Calm u :=
  ⟨g.mem.trans h.mem, g.hif.trans h.hif, fun k => g.still (h.still k)⟩

theorem State.Calm.ite {s t u : State} {c : Prop} [Decidable c] (h : s.Calm t) (g : s.Calm u) : s.Calm (if c then t else u) := by
  split
  · exact h
  · exact g

theorem State.Calm.forAll {s : State} {l : List Nat} {f : Nat → State → State} (g : ∀ i (t : State), t.Calm (f i t)) : s.Calm (s.forAll l f) :=
  State.forAll_induct (P := s.Calm) (.refl s) fun i t _ h => h.trans (g i t)

theorem State.Calm.foldl {α : Type} {s : State} {l : List α} {f : State → α → State} (g : ∀ (t : State) a, t.Calm (f t a)) : s.Calm (l.foldl f s) := by
  induction l generalizing s with
  | nil => exact .refl s
  | cons a l ih => exact (g s a).trans ih

theorem State.Calm.safe {s t : State} (h : s.Calm t) : t.safe = s.safe := by
  unfold State.safe State.hif State.regN; rw [h.hif]

theorem State.Linked.calm {s t : State} (h : s.Linked t) : s.Calm t :=
  ⟨by rw [h.rest], h.reg 4 (by decide), fun k => by rw [h.rest]; exact k⟩

theorem State.calm_setReg (s : State) {a : Nat} (w : Word) (h : 4 < a) : s.Calm (s.setReg a w) :=
  ⟨rfl, State.reg_setReg_ne _ _ (by omega), id⟩

theorem State.calm_setRegN (s : State) {a : Nat} (n : Nat) (h : 4 < a) : s.Calm (s.setRegN a n) := s.calm_setReg _ h

theorem State.calm_setReg64 (s : State) {a : Nat} (n : Nat) (h : 4 < a) : s.Calm (s.setReg64 a n) :=
  (s.calm_setRegN _ h).trans (State.calm_setRegN _ _ (by omega))

theorem State.calm_raise (s : State) (w : World) (code shade src : Nat) (d : List Byte) : s.Calm (s.raise w code shade src d) :=
  have h := State.evented_raise s w code shade src d
  ⟨h.mem, State.raise_reg _ _ _ _ _ _ (by decide), fun k => by rw [h.heat]; exact k⟩

/-- Outside an attempt a fault is an event alone (R540). -/
theorem State.calm_ochre (s : State) (w : World) (code shade src : Nat) (d : List Byte) (h : s.heat.running = false) :
    s.Calm (s.ochre w code shade src d) := by
  unfold State.ochre
  rw [if_neg (by rw [h]; decide)]
  exact State.calm_raise ..

theorem State.calm_latchSf (s : State) (n : Nat) : s.Calm (s.latchSf n) := by
  have h : ∀ k, 4 < safAt k + 4 := fun k => by unfold safAt; omega
  exact .ite (.refl s) (.forAll fun _ t => t.calm_setReg _ (h _))

theorem State.calm_onCore (s : State) (c : Nat) (f : Core → Core) : s.Calm (s.onCore c f) := ⟨rfl, rfl, id⟩

theorem four_lt_coreBase (c : Nat) : 4 < coreBase c := by unfold coreBase; omega

theorem State.calm_showUnits (s : State) (c : Nat) : s.Calm (s.showUnits c) := by
  have hc := four_lt_coreBase c
  have arr : ∀ (t : State) a r, t.Calm (t.setArr c a r) := fun t a r =>
    (t.calm_onCore c _).trans (State.calm_setRegN _ _ (by unfold arrAt; omega))
  have vq : ∀ (t : State) l, t.Calm (t.setVq c l) := fun t l =>
    (t.calm_onCore c _).trans (State.calm_setRegN _ _ (by unfold vecAt; omega))
  unfold State.showUnits
  exact ((arr s ..).trans (arr ..)).trans (vq ..)

theorem State.calm_coreHalt (s : State) (c : Nat) : s.Calm (s.coreHalt c) := by
  have state : s.Calm (s.setCoreState c 0) := s.calm_setRegN _ (by have := four_lt_coreBase c; unfold ctlAt; omega)
  unfold State.coreHalt
  exact ((State.Calm.ite state (.refl s)).trans (State.calm_onCore ..)).trans (State.calm_showUnits ..)

theorem State.calm_holdCheck (s : State) : s.Calm s.holdCheck := .ite ⟨rfl, rfl, id⟩ (.refl s)

theorem State.calm_setLink (s : State) (p n : Nat) : s.Calm (s.setLink p n) := by
  have h : 4 < lnkAt p + 8 := by unfold lnkAt; omega
  have state : s.Calm (s.putField (lnkAt p + 8) 2 0 n) := s.calm_setRegN _ h
  unfold State.setLink
  exact (state.trans (State.linked_onPort ..).calm).trans (State.calm_holdCheck _)

/-- R302: a port that goes down outside an attempt. -/
theorem State.calm_portDown (s : State) (p cause : Nat) (h : s.heat.running = false) : s.Calm (s.portDown p cause) := by
  have hp : ∀ k, 4 ≤ k → 4 < lnkAt p + k := fun k _ => by unfold lnkAt; omega
  have unhole : ∀ (q : Nat) (t : State), t.Calm (t.unhole q) := fun q t => by
    unfold State.unhole
    split
    · exact .refl t
    · exact (State.linked_onPort ..).calm
  unfold State.portDown
  extract_lets s1 s2 s3 s4 d
  have h1 : s.Calm s1 := .forAll unhole
  have h2 : s1.Calm s2 := ⟨rfl, rfl, id⟩
  have h3 : s2.Calm s3 := (State.calm_setLink ..).trans (State.calm_setRegN _ _ (hp _ (by decide)))
  have h4 : s3.Calm s4 := ((State.calm_setReg _ _ (hp _ (by decide))).trans (State.calm_setReg _ _ (hp _ (by decide)))).trans
    (State.linked_linkRefresh ..).calm
  have g := ((h1.trans h2).trans h3).trans h4
  exact g.trans (.ite (State.calm_ochre _ _ _ _ _ _ (g.still h)) (State.calm_raise ..))

theorem State.calm_setHold (s : State) (p : Nat) (h : s.heat.running = false) : s.Calm (s.setHold p true) := by
  have hp : 4 < lnkAt p + 0x14 := by unfold lnkAt; omega
  have g : s.Calm (s.raiseBits (lnkAt p + 0x14) 1) := s.calm_setReg _ hp
  unfold State.setHold
  exact .ite (.ite g (.ite (g.trans (State.calm_setLink ..))
    ((g.trans (State.calm_portDown _ _ _ (g.still h))).trans (State.calm_setLink ..)))) (s.calm_setReg _ hp)

theorem State.calm_progressOff (s : State) : s.Calm s.progressOff := s.calm_setReg64 _ (by unfold safAt; omega)

theorem State.calm_ibi (s : State) (b : Nat) : s.Calm (s.ibi b) := by
  obtain ⟨i, h⟩ := s.ibi_rest b
  rw [h]
  exact ⟨rfl, rfl, id⟩

theorem State.calm_cmdDone (s : State) (d : Deferred) (st : Nat) (detail : List Byte) : s.Calm (s.cmdDone d st detail) := by
  have tray : ∀ (t : State) e, t.Calm (t.trayPut e) := fun t e => by
    refine .ite (.trans ?_ (State.calm_ibi _ _)) ?_ <;> exact ⟨rfl, rfl, id⟩
  have refresh : ∀ (m : Nat) (t : State), t.Calm (t.deferRefresh m) := fun m t => t.calm_setRegN _ (by unfold mbxAt; omega)
  unfold State.cmdDone
  extract_lets hub s1 s2 s3
  have h1 : s.Calm s1 := ⟨rfl, rfl, id⟩
  have h2 : s1.Calm s2 := State.calm_raise ..
  have h3 : s2.Calm s3 := .ite (tray ..) (.refl _)
  exact ((h1.trans h2).trans h3).trans (.forAll refresh)

theorem State.calm_abortDeferred (s : State) : s.Calm s.abortDeferred := .foldl fun t _ => t.calm_cmdDone ..

/-- R539: what the units let go of in the safe state; no attempt runs in it. -/
theorem State.calm_safeUnits (s : State) : s.Calm s.safeUnits ∧ s.safeUnits.heat.running = false := by
  unfold State.safeUnits
  extract_lets halted s1 s2 s3 s4
  have h1 : s.Calm s1 := State.Calm.trans (t := s.coresHalt) (.forAll fun c t => t.calm_coreHalt c) ⟨rfl, rfl, id⟩
  have h2 : s1.Calm s2 := .ite (State.linked_voidSend ..).calm (.refl _)
  have h3 : s2.Calm s3 := ⟨rfl, rfl, fun _ => rfl⟩
  have h4 : s3.Calm s4 := State.forAll_induct (P := s3.Calm) (.refl _) fun p t _ k => k.trans (t.calm_setHold p (k.still rfl))
  have pods : ∀ (t : State) l, t.Calm (t.forAll l fun p s => s.putField (podPwrAt p) 1 0 0) := fun t l =>
    .forAll fun p t => t.calm_setRegN _ (by unfold podPwrAt; omega)
  have h5 := (pods s4 ((List.range 384).filter fun p => s4.regN (podPwrAt p) % 4 != 3)).trans (State.calm_progressOff _)
  exact ⟨(((h1.trans h2).trans h3).trans h4).trans h5, h5.still (h4.still rfl)⟩

/-- R539: the device enters the safe state: HIF_STATE 6, no attempt, device memory as it was. -/
theorem State.safeEnter_of_not_safe {s : State} (h : s.safe = false) (cause sf : Nat) :
    (s.safeEnter cause sf).safe = true ∧ (s.safeEnter cause sf).mem = s.mem ∧ (s.safeEnter cause sf).heat.running = false := by
  unfold State.safeEnter
  extract_lets s1 s2 s3
  have h1 : s.Calm s1 := s.calm_latchSf sf
  have h2 : s1.Calm s2 := .forAll fun k t => t.calm_setRegN _ (by unfold safAt; omega)
  have h6 : (s2.setHif 6).safe = true := by
    unfold State.safe State.hif State.setHif
    rw [State.regN_setRegN_same]; rfl
  have hu := State.calm_safeUnits ((s2.setHif 6).raiseHub 0x0600 3 (leBytes 4 cause))
  have h3 : (s2.setHif 6).Calm s3 := (State.calm_raise ..).trans hu.1
  have h4 : s3.Calm (s3.abortDeferred.ibi 2) := (State.calm_abortDeferred _).trans (State.calm_ibi ..)
  rw [if_neg (by rw [h1.safe, h]; decide)]
  exact ⟨by rw [(h3.trans h4).safe, h6], (h3.trans h4).mem.trans (h1.trans h2).mem, h4.still hu.2⟩

theorem State.devCrimson_of_not_safe {s : State} (h : s.safe = false) (code sf src : Nat) (w : World) (d : List Byte) :
    (s.devCrimson code sf src w d).safe = true ∧ (s.devCrimson code sf src w d).mem = s.mem
      ∧ (s.devCrimson code sf src w d).heat.running = false := by
  have hr := State.calm_raise s w code 3 src d
  obtain ⟨a, b, c⟩ := State.safeEnter_of_not_safe (hr.safe.trans h) code sf
  exact ⟨a, b.trans hr.mem, c⟩

end Sys2Proof.Machine

/-!
PROOFS. The roles of the hubs (R542, R543), the check of the configuration (R537), the release of PERST_N (R375).
-/
namespace Sys2Proof.Machine

/-! The roles of the hubs. -/

theorem safAt_ge (k : Nat) : 0x10B000 ≤ safAt k := by unfold safAt blk blkBase; omega

theorem safAt_ne {j k : Nat} (h : j ≠ k) : safAt j ≠ safAt k := by unfold safAt blk; omega

/-- A register of a safety monitor beside its role. -/
theorem safAt_add_ne (j k : Nat) {m : Nat} (h0 : 0 < m) (h : m < 2 ^ 24) : safAt j + m ≠ safAt k := by unfold safAt blk; omega

theorem State.actHub_cases (s : State) : s.actHub = 0 ∨ s.actHub = 1 := by
  unfold State.actHub; split
  · exact .inr rfl
  · exact .inl rfl

theorem State.role_congr {s t : State} {k : Nat} (h : t.reg (safAt k) = s.reg (safAt k)) : t.role k = s.role k := by
  unfold State.role State.regN; rw [h]

theorem putBits_role (x v : Nat) : putBits x 1 0 v % 4 = v % 4 := by
  have hb : bits x 1 0 = x % 4 := by simp [bits]
  simp only [putBits, hb, Nat.shiftLeft_zero]
  omega

theorem State.role_putField_same (s : State) (k v : Nat) : (s.putField (safAt k) 1 0 v).role k = v % 4 := by
  unfold State.role State.putField
  rw [State.regN_setRegN_same, Nat.mod_mod_of_dvd _ (by decide), putBits_role]

theorem State.role_setReg_ne (s : State) {a k : Nat} (w : Word) (h : a ≠ safAt k) : (s.setReg a w).role k = s.role k :=
  State.role_congr (State.reg_setReg_ne _ _ h)

theorem State.role_putField_ne (s : State) {j k : Nat} (h : j ≠ k) (v : Nat) : (s.putField (safAt j) 1 0 v).role k = s.role k :=
  s.role_setReg_ne _ (safAt_ne h)

theorem State.role_setReg64 (s : State) {a k : Nat} (n : Nat) (h : a ≠ safAt k) (h4 : a + 4 ≠ safAt k) : (s.setReg64 a n).role k = s.role k := by
  unfold State.setReg64 State.setRegN
  rw [State.role_setReg_ne _ _ h4, State.role_setReg_ne _ _ h]

theorem State.role_latchSf (s : State) (n k : Nat) : (s.latchSf n).role k = s.role k := by
  unfold State.latchSf
  split
  · rfl
  · refine State.forAll_induct (P := fun t => t.role k = s.role k) rfl fun j t _ h => ?_
    exact (t.role_setReg_ne _ (safAt_add_ne j k (by decide) (by decide))).trans h

theorem State.latchSf_rest (s : State) (n : Nat) : (s.latchSf n).mem = s.mem ∧ (s.latchSf n).heat = s.heat := by
  unfold State.latchSf
  split
  · exact ⟨rfl, rfl⟩
  · exact State.forAll_induct (P := fun t => t.mem = s.mem ∧ t.heat = s.heat) ⟨rfl, rfl⟩ fun _ _ _ h => h

theorem State.role_evented {s t : State} (h : s.Evented t) (k : Nat) : t.role k = s.role k := State.role_congr (h.2 _ (safAt_ge k))

/-- R542: a mismatch counts and shows its pair; the roles stay. -/
theorem State.role_lockstep (s : State) (h : Nat) {pair : Nat} (hp : pair < 2) (k : Nat) : (s.lockstep h pair).role k = s.role k := by
  unfold State.lockstep
  rw [State.role_evented (State.evented_raise ..)]
  have hc : (s.count (safAt h + 0x28) 1).role k = s.role k := s.role_setReg_ne _ (safAt_add_ne h k (by decide) (by decide))
  rw [← hc]
  generalize s.count (safAt h + 0x28) 1 = t
  show (t.setReg (safAt h) (t.reg (safAt h) ||| BitVec.ofNat 32 (2 ^ (2 + pair)))).role k = t.role k
  by_cases hk : h = k
  · subst hk
    have hm : 2 ^ (2 + pair) % 2 ^ 32 % 4 = 0 := by
      obtain rfl | rfl : pair = 0 ∨ pair = 1 := by omega
      all_goals decide
    have h4 : ∀ x y : Nat, (x ||| y) % 4 = x % 4 ||| y % 4 := fun x y => Nat.or_mod_two_pow (n := 2)
    unfold State.role State.regN
    rw [State.reg_setReg_same, BitVec.toNat_or, BitVec.toNat_ofNat, h4, hm, Nat.or_zero]
  · exact t.role_setReg_ne _ (safAt_ne hk)

theorem State.lockstep_mem (s : State) (h pair : Nat) : (s.lockstep h pair).mem = s.mem := (State.evented_raise ..).mem

theorem State.lockstep_heat (s : State) (h pair : Nat) : (s.lockstep h pair).heat = s.heat := (State.evented_raise ..).heat

/-- R542: the roles change hands; the progress timer moves, SF6 is latched, a Grey event goes out. -/
theorem State.takeover_eq (s : State) (a : Nat) : ∃ d, s.takeover a =
    (((((s.putField (safAt a) 1 0 2).putField (safAt (1 - a)) 1 0 1).setReg64 (safAt a + 0x20) 0).setReg64 (safAt (1 - a) + 0x20)
      (s.reg64 (safAt a + 0x20))).latchSf 6).raiseHub 0x0003 1 d := ⟨_, rfl⟩

theorem State.takeover_rest (s : State) (a : Nat) : (s.takeover a).mem = s.mem ∧ (s.takeover a).heat = s.heat := by
  obtain ⟨d, h⟩ := s.takeover_eq a
  rw [h, State.raiseHub]
  constructor
  · rw [(State.evented_raise ..).mem, (State.latchSf_rest ..).1]; simp
  · rw [(State.evented_raise ..).heat, (State.latchSf_rest ..).2]; simp

/-- R542: the hub `a` is lost, and the other one is active. -/
theorem State.takeover_roles (s : State) (a : Nat) : (s.takeover a).role a = 2 ∧ (s.takeover a).role (1 - a) = 1 := by
  have hne : 1 - a ≠ a := by omega
  have low : ∀ j k, safAt j + 0x20 ≠ safAt k := fun j k => safAt_add_ne j k (by decide) (by decide)
  have high : ∀ j k, safAt j + 0x20 + 4 ≠ safAt k := fun j k => by rw [Nat.add_assoc]; exact safAt_add_ne j k (by decide) (by decide)
  have roles : ∀ k, (s.takeover a).role k = ((s.putField (safAt a) 1 0 2).putField (safAt (1 - a)) 1 0 1).role k := fun k => by
    obtain ⟨d, h⟩ := s.takeover_eq a
    rw [h, State.raiseHub, State.role_evented (State.evented_raise ..), State.role_latchSf,
      State.role_setReg64 _ _ (low _ _) (high _ _), State.role_setReg64 _ _ (low _ _) (high _ _)]
  rw [roles, roles, State.role_putField_ne _ hne, State.role_putField_same, State.role_putField_same]
  exact ⟨rfl, rfl⟩

/-! The check of the configuration. -/

theorem lkValues_fst (img : List Byte) (ts : Tlvs) (p : Nat) : (lkValues img ts p).map (·.1) =
    [lnkAt p + 0, lnkAt p + 4, lnkAt p + 0x1C, lnkAt p + 0x20, lnkAt p + 0x24, lnkAt p + 0x28, lnkAt p + 0x2C, lnkAt p + 0x30,
      lnkAt p + 0x34] := by
  simp [lkValues]

/-- R9: the registers that lock are in the first 56 bytes of the ports' own. -/
theorem lkValues_at {img : List Byte} {ts : Tlvs} {q : Nat × Nat} (h : q ∈ (List.range 16).flatMap (lkValues img ts)) :
    ∃ p k, q.1 = lnkAt p + k ∧ k < 0x38 := by
  obtain ⟨p, -, hq⟩ := List.mem_flatMap.mp h
  have hm : q.1 ∈ (lkValues img ts p).map (·.1) := List.mem_map_of_mem hq
  rw [lkValues_fst] at hm
  simp only [List.mem_cons, List.not_mem_nil, or_false] at hm
  rcases hm with h | h | h | h | h | h | h | h | h
  all_goals exact ⟨p, _, h, by decide⟩

/-- R537: the registers that lock are those of the ports, which the stamps of the check are not. -/
theorem State.lkWrong_none_congr {s t : State} (h : ∀ p k, k < 0x38 → t.reg (lnkAt p + k) = s.reg (lnkAt p + k)) {img : List Byte}
    (hs : s.lkWrong img = none) : t.lkWrong img = none := by
  unfold State.lkWrong at hs ⊢
  split
  · rfl
  · rename_i ts e
    rw [e] at hs
    simp only [Option.map_eq_none_iff, List.find?_eq_none] at hs ⊢
    intro q hq
    obtain ⟨p, k, hk, hlt⟩ := lkValues_at hq
    have hr : t.regN q.1 = s.regN q.1 := by rw [hk]; unfold State.regN; rw [h p k hlt]
    rw [hr]
    exact hs q hq

/-- R537: the stamp and the count of a check. -/
def State.checkStamped (s : State) : State :=
  (s.setReg64 (safAt s.actHub + 0x10) s.now.toNat).count (safAt s.actHub + 0x18) 1

theorem State.checkStamped_regs (s : State) : s.checkStamped.reg64 (safAt s.actHub + 0x10) = s.now.toNat
    ∧ s.checkStamped.reg (safAt s.actHub + 0x18) = s.reg (safAt s.actHub + 0x18) + 1 := by
  unfold State.checkStamped
  constructor
  · have h : ∀ b : State, (b.count (safAt s.actHub + 0x18) 1).reg64 (safAt s.actHub + 0x10) = b.reg64 (safAt s.actHub + 0x10) := fun b => by
      unfold State.reg64 State.regN
      rw [State.reg_count_ne _ _ (by omega), State.reg_count_ne _ _ (by omega)]
    rw [h, State.reg64_setReg64_same _ _ _ s.now.isLt]
  · rw [State.reg_count_same, State.reg_setReg64_ne _ _ (by omega) (by omega)]
    rfl

theorem State.checkStamped_lnk (s : State) (p k : Nat) (h : k < 0x38) : s.checkStamped.reg (lnkAt p + k) = s.reg (lnkAt p + k) := by
  have hne : ∀ m, m < 0x20 → safAt s.actHub + m ≠ lnkAt p + k := fun m hm => by
    unfold safAt lnkAt blk edgeBlk
    omega
  unfold State.checkStamped
  rw [State.reg_count_ne _ _ (hne _ (by decide)), State.reg_setReg64_ne _ _ (hne _ (by decide)) (hne 0x14 (by decide))]

theorem State.calm_checkStamped (s : State) : s.Calm s.checkStamped :=
  (s.calm_setReg64 _ (by unfold safAt; omega)).trans (State.calm_setReg _ _ (by unfold safAt; omega))

/-- R537: two good copies, and the registers that lock as they say: the check is stamped. -/
theorem State.configCheck_of_good {s : State} (ha : sha512 s.boot.imageA = s.digest) (hb : sha512 s.boot.imageB = s.digest)
    (hl : s.lkWrong s.boot.imageA = none) : s.configCheck = s.checkStamped := by
  have hl' : s.checkStamped.lkWrong s.boot.imageA = none := State.lkWrong_none_congr s.checkStamped_lnk hl
  unfold State.checkStamped at hl' ⊢
  unfold State.configCheck
  simp [ha, hb, hl']

/-- R537: two bad copies. -/
theorem State.configCheck_of_bad {s : State} (ha : sha512 s.boot.imageA ≠ s.digest) (hb : sha512 s.boot.imageB ≠ s.digest) :
    s.configCheck = s.checkStamped.devCrimson 0x0626 7 s.checkStamped.hubSource .sable (leBytes 8 0) := by
  unfold State.checkStamped State.configCheck
  simp [ha, hb]

/-! The release of PERST_N (R375). -/

theorem State.railsUp_rest (s : State) : s.railsUp.mem = s.mem ∧ s.railsUp.cores = s.cores ∧ s.railsUp.pins = s.pins
    ∧ s.railsUp.hif = s.hif := by
  have h : ∀ g, 4 < railAt g := fun g => by unfold railAt; omega
  refine State.forAll_induct (P := fun t => t.mem = s.mem ∧ t.cores = s.cores ∧ t.pins = s.pins ∧ t.hif = s.hif) ⟨rfl, rfl, rfl, rfl⟩
    fun g t _ ih => ?_
  obtain ⟨hm, hc, hp, hh⟩ := ih
  refine ⟨hm, hc, hp, Eq.trans ?_ hh⟩
  unfold State.hif
  rw [State.regN_setRegN_ne _ _ (by have := h g; omega), State.regN_setRegN_ne _ _ (by have := h g; omega)]
  rfl

theorem State.trainPcie_rest (s : State) : s.trainPcie.mem = s.mem ∧ s.trainPcie.cores = s.cores ∧ s.trainPcie.pins = s.pins
    ∧ s.trainPcie.hif = s.hif := by
  refine ⟨rfl, rfl, rfl, ?_⟩
  unfold State.hif State.trainPcie
  rw [State.regN_setRegN_ne _ _ (by decide)]
  rfl

theorem State.hif_setHif (s : State) (n : Nat) : (s.setHif n).hif = n % 8 := by
  unfold State.hif State.setHif
  rw [State.regN_setRegN_same, Nat.mod_mod_of_dvd _ (by decide)]

/-- R375: with PERST_N released the boot ROM comes up (HIF_STATE 1); memory and cores are as the assertion left them. -/
theorem completes_perstNRelease {s : State} (hp : s.pins.powered = true) (ht : s.pins.tripped = false) (hr : s.pins.perst = true) :
    Completes .perstNRelease s fun t => t.pins.perst = false ∧ t.hif = 1 ∧ t.mem = s.mem ∧ t.cores = s.cores := by
  obtain ⟨tm, tc, tp, th⟩ := (s.released.setHif 1).trainPcie_rest
  obtain ⟨rm, rc, rp, rh⟩ := (s.released.setHif 1).trainPcie.railsUp_rest
  have e : exec .perstNRelease s = .next (if (s.released.setHif 1).trainPcie.regN (railAt 0 + 8) = 0 then
      (s.released.setHif 1).trainPcie.railsUp else (s.released.setHif 1).trainPcie) := by
    simp only [exec, execPerstNRelease, hp, ht, hr, Bool.not_false, Bool.true_or, Bool.and_self, if_true]
  have h1 : (s.released.setHif 1).trainPcie.hif = 1 := th.trans (State.hif_setHif ..)
  refine ⟨_, e, ?_⟩
  split
  · rw [rm, rc, rp, rh, tm, tc, tp, h1]; exact ⟨rfl, rfl, rfl, rfl⟩
  · rw [tm, tc, tp, h1]; exact ⟨rfl, rfl, rfl, rfl⟩

/-! The commands. -/

/-- R542: a mismatch in the active hub while the other stands by. -/
theorem completes_hubTakeover {s : State} {pair : Nat} (hw : pair < 2) (hp : s.pins.powered = true) (ha : s.role s.actHub = 1)
    (hb : s.role (1 - s.actHub) = 0) : Completes (.hubTakeover pair) s fun t =>
      t.role s.actHub = 2 ∧ t.role (1 - s.actHub) = 1 ∧ t.mem = s.mem ∧ t.heat = s.heat := by
  have hl : (s.lockstep s.actHub pair).role (1 - s.actHub) = 0 := (State.role_lockstep _ _ hw _).trans hb
  have e : exec (.hubTakeover pair) s = .next ((s.lockstep s.actHub pair).takeover s.actHub) := by
    simp [exec, execHubTakeover, guarded, hw, hp, ha, hl]
  obtain ⟨lost, active⟩ := (s.lockstep s.actHub pair).takeover_roles s.actHub
  obtain ⟨mem, heat⟩ := (s.lockstep s.actHub pair).takeover_rest s.actHub
  exact ⟨_, e, lost, active, mem.trans (State.lockstep_mem ..), heat.trans (State.lockstep_heat ..)⟩

/-- R543: a mismatch in the hub that stands by. -/
theorem completes_standbyLost {s : State} {pair : Nat} (hw : pair < 2) (hp : s.pins.powered = true) (ha : s.role s.actHub = 1)
    (hb : s.role (1 - s.actHub) = 0) : Completes (.standbyLost pair) s fun t =>
      t.role (1 - s.actHub) = 2 ∧ t.role s.actHub = 1 ∧ t.mem = s.mem ∧ t.heat = s.heat := by
  have hne : 1 - s.actHub ≠ s.actHub := by omega
  have e : exec (.standbyLost pair) s = .next (((s.lockstep (1 - s.actHub) pair).putField (safAt (1 - s.actHub)) 1 0 2).raise .sable
      0x0624 1 (blkSource (1 - s.actHub)) (leBytes 4 (pair * 2))) := by
    simp [exec, execStandbyLost, guarded, hw, hp, hb]
  refine ⟨_, e, ?_, ?_, ?_, ?_⟩
  · rw [State.role_evented (State.evented_raise ..), State.role_putField_same]
  · rw [State.role_evented (State.evented_raise ..), State.role_putField_ne _ hne, State.role_lockstep _ _ hw, ha]
  · rw [(State.evented_raise ..).mem, State.putField_mem, State.lockstep_mem]
  · rw [(State.evented_raise ..).heat, State.putField_heat, State.lockstep_heat]

theorem exec_configCheck_of_due {s : State} (hc : s.committed = true) (hs : s.safe = false) (hn : s.now.toNat % 1000000 = 0)
    (hd : s.reg64 (safAt s.actHub + 0x10) ≠ s.now.toNat) : exec .configCheck s = .next s.configCheck := by
  simp [exec, execConfigCheck, hc, hs, hn, hd]

/-- R538: an unlocked clock. -/
theorem completes_pllUnlock {s : State} (hp : s.pins.powered = true) (hr : s.pins.perst = false) (hs : s.safe = false) :
    Completes .pllUnlock s fun t => t.safe = true ∧ t.heat.running = false ∧ t.mem = s.mem := by
  obtain ⟨safe, mem, still⟩ := State.devCrimson_of_not_safe hs 0x0628 0 s.hubSource .ivory []
  refine ⟨s.devCrimson 0x0628 0 s.hubSource .ivory [], ?_, safe, still, mem⟩
  simp [exec, execPllUnlock, hp, hr]

/-- Settles O53: each clause by the lemma on what its command does. -/
theorem hubsAndConfig : Obligations.HubsAndConfig := by
  unfold Obligations.HubsAndConfig
  refine ⟨fun s pair hw hp => ⟨completes_hubTakeover hw hp, completes_standbyLost hw hp⟩, fun s => ⟨fun hc hs hn hd => ⟨?_, ?_⟩,
    completes_pllUnlock, completes_perstNRelease⟩⟩
  · intro ha hb hl
    refine ⟨_, exec_configCheck_of_due hc hs hn hd, ?_⟩
    rw [State.configCheck_of_good ha hb hl]
    exact ⟨s.checkStamped_regs.1, s.checkStamped_regs.2, rfl⟩
  · intro ha hb
    refine ⟨_, exec_configCheck_of_due hc hs hn hd, ?_⟩
    rw [State.configCheck_of_bad ha hb]
    obtain ⟨safe, mem, -⟩ := State.devCrimson_of_not_safe (s.calm_checkStamped.safe.trans hs) 0x0626 7 s.checkStamped.hubSource .sable
      (leBytes 8 0)
    exact ⟨safe, mem.trans s.calm_checkStamped.mem⟩

end Sys2Proof.Machine

/-!
PROOFS. The start of an attempt (R35): what its later parts leave of what its first parts set.
-/
namespace Sys2Proof.Machine

/-! Folds whose steps each establish a fact of their own. -/

theorem State.forAll_each {Q : State → Prop} {P : Nat → State → Prop} {s : State} {l : List Nat} {f : Nat → State → State} (hs : Q s)
    (inv : ∀ i t, Q t → Q (f i t)) (sets : ∀ i t, Q t → P i (f i t)) (keeps : ∀ i j t, Q t → P i t → P i (f j t)) :
    ∀ i ∈ l, P i (s.forAll l f) := by
  intro i hi
  induction l generalizing s with
  | nil => cases hi
  | cons a l ih =>
    rcases List.mem_cons.mp hi with rfl | hi
    · exact (State.forAll_induct (P := fun t => Q t ∧ P i t) (l := l) ⟨inv i s hs, sets i s hs⟩
        fun j t _ h => ⟨inv j t h.1, keeps i j t h.1 h.2⟩).2
    · exact ih (inv a s hs) hi

/-! Registers of the cores. -/

/-- R106, R153: an address in the block of registers that ends a core's window. -/
def inCoreBlock (a : Nat) : Prop := 0x10B000 ≤ a ∧ 0xF0000 ≤ a % 0x100000

theorem coreBase_mod (c : Nat) : coreBase c % 0x100000 = 0 ∧ 0x10B000 ≤ coreBase c := by
  unfold coreBase podBase dieBase
  omega

theorem inCoreBlock_ctlAt (c : Nat) {k : Nat} (h : k < 0x1000) : inCoreBlock (ctlAt c + k) := by
  have := coreBase_mod c
  unfold inCoreBlock ctlAt
  omega

theorem blk_mod (b : Nat) : blk b % 0x100000 = 0 := by unfold blk blkBase; omega

/-! What leaves the marks of a started attempt. -/

/-- `k` is the record of the heat `h` but for its stop, its hold and its faults. -/
abbrev Heat.Like (h k : Heat) : Prop :=
  k = { h with
    left := k.left, endless := k.endless, stopping := k.stopping, stopNow := k.stopNow, parkAsked := k.parkAsked
    held := k.held, voids := k.voids }

/-- `t` has of `s` the heat but for its stop, its hold and its faults; the gates, the sweep, the hurdles' entries, the pods and
the core map; of the pool all but the entries; and the registers of the cores. -/
structure State.Begun (s t : State) : Prop where
  heat : s.heat.Like t.heat
  gates : t.gates = s.gates
  sweep : t.sweep = s.sweep
  hrds : t.relay.hrds = s.relay.hrds
  pods : t.pods = s.pods
  coreMap : t.coreMap = s.coreMap
  pool : t.pool = { s.pool with ents := t.pool.ents, nextId := t.pool.nextId }
  reg : ∀ a, inCoreBlock a → t.reg a = s.reg a

theorem State.Begun.refl (s : State) : s.Begun s := ⟨rfl, rfl, rfl, rfl, rfl, rfl, rfl, fun _ _ => rfl⟩

theorem State.Begun.trans {s t u : State} (h : s.Begun t) (g : t.Begun u) : s.Begun u :=
  ⟨by rw [g.heat, h.heat], g.gates.trans h.gates, g.sweep.trans h.sweep, g.hrds.trans h.hrds, g.pods.trans h.pods,
    g.coreMap.trans h.coreMap, by rw [g.pool, h.pool], fun a k => (g.reg a k).trans (h.reg a k)⟩

theorem State.Begun.ite {s t u : State} {c : Prop} [Decidable c] (h : s.Begun t) (g : s.Begun u) : s.Begun (if c then t else u) := by
  split
  · exact h
  · exact g

theorem State.Begun.forAll {s : State} {l : List Nat} {f : Nat → State → State} (g : ∀ i ∈ l, ∀ t : State, t.Begun (f i t)) :
    s.Begun (s.forAll l f) :=
  State.forAll_induct (P := s.Begun) (.refl s) fun i t hi h => h.trans (g i hi t)

theorem State.Evented.begun {s t : State} (h : s.Evented t) : s.Begun t := by
  refine ⟨?_, ?_, ?_, ?_, ?_, ?_, ?_, fun a k => h.2 a k.1⟩ <;> rw [h.1]

theorem State.begun_setReg (s : State) {a : Nat} (w : Word) (h : a % 0x100000 < 0xF0000) : s.Begun (s.setReg a w) :=
  ⟨rfl, rfl, rfl, rfl, rfl, rfl, rfl, fun b k => State.reg_setReg_ne _ _ (by have := k.2; rintro rfl; omega)⟩

theorem State.begun_setRegN (s : State) {a : Nat} (n : Nat) (h : a % 0x100000 < 0xF0000) : s.Begun (s.setRegN a n) :=
  s.begun_setReg _ h

/-! The pool. -/

theorem cliAt_mod {c : Nat} (h : c < 4) {k : Nat} (hk : k < 0x20) : (cliAt c + k) % 0x100000 < 0xF0000 := by
  have := blk_mod 0x20
  unfold cliAt poolAt
  omega

theorem State.begun_poolRefresh (s : State) : s.Begun s.poolRefresh := by
  have pool : ∀ k, k < 0x100 → (poolAt + k) % 0x100000 < 0xF0000 := fun k hk => by
    have := blk_mod 0x20
    unfold poolAt
    omega
  unfold State.poolRefresh
  refine ((s.begun_setRegN _ (pool 0 (by decide))).trans (State.begun_setRegN _ _ (pool 4 (by decide)))).trans (.forAll fun c hc t => ?_)
  have hc := List.mem_range.mp hc
  exact ((t.begun_setRegN _ (cliAt_mod hc (k := 0) (by decide))).trans (State.begun_setRegN _ _ (cliAt_mod hc (by decide)))).trans
    (State.begun_setRegN _ _ (cliAt_mod hc (by decide)))

theorem State.begun_fillRefresh (s : State) : s.Begun s.fillRefresh := by
  refine .forAll fun e he t => .ite (t.begun_setRegN _ ?_) (.refl t)
  have := blk_mod (edgeBlk e)
  unfold bshAt
  omega

/-- Entries that come and go in the pool. -/
theorem State.begun_ents (s : State) (l : List PoolEnt) (n : Nat) : s.Begun { s with pool := { s.pool with ents := l, nextId := n } } :=
  ⟨rfl, rfl, rfl, rfl, rfl, rfl, rfl, fun _ _ => rfl⟩

theorem State.begun_poolDrop (s : State) (keep : PoolEnt → Bool) : s.Begun (s.poolDrop keep) :=
  (s.begun_ents _ _).trans (State.begun_poolRefresh _)

theorem State.begun_poolPut (s : State) (ev : List Nat) (e : PoolEnt) : s.Begun (s.poolPut ev e) := by
  unfold State.poolPut
  exact (((s.begun_setReg _ (cliAt_mod (c := 0) (by decide) (by decide))).trans (State.begun_ents _ _ _)).trans
    (State.begun_poolRefresh _)).trans (State.begun_fillRefresh _)

theorem State.begun_scratchPin (s : State) (tag : Nat) (us : List Nat) : s.Begun (s.scratchPin tag us) := by
  unfold State.scratchPin
  extract_lets held us'
  split
  · exact .refl s
  · split
    · exact s.begun_setReg _ (cliAt_mod (c := 3) (by decide) (by decide))
    · exact s.begun_poolPut ..

theorem State.begun_arrive (s : State) (a : Nat) (bs : List Byte) : s.Begun (s.arrive a bs) := by
  have discard : s.Begun (s.discardFills a bs.length) :=
    .ite (((s.begun_ents _ _).trans (State.begun_poolRefresh _)).trans (State.begun_fillRefresh _)) (.refl s)
  exact discard.trans ⟨rfl, rfl, rfl, rfl, rfl, rfl, rfl, fun _ _ => rfl⟩

/-! The parts of the start. -/

theorem State.begun_colls (s : State) (l : Tab Coll) : s.Begun { s with relay := { s.relay with colls := l } } :=
  ⟨rfl, rfl, rfl, rfl, rfl, rfl, rfl, fun _ _ => rfl⟩

theorem State.begun_relayVoid (s : State) : s.Begun s.relayVoid := by
  unfold State.relayVoid
  extract_lets s1 rel s2
  have h1 : s.Begun s1 := s.begun_poolDrop _
  have h2 : s1.Begun s2 := s1.begun_colls _
  refine (h1.trans h2).trans (.forAll fun e he t => t.begun_setRegN _ ?_)
  have := blk_mod (edgeBlk e)
  have := List.mem_range.mp he
  unfold rlyAt
  omega

theorem State.begun_homesClear (s : State) : s.Begun s.homesClear := .forAll fun _ _ t => t.begun_arrive ..

theorem State.begun_bookLoad (s : State) : s.Begun s.bookLoad := ⟨rfl, rfl, rfl, rfl, rfl, rfl, rfl, fun _ _ => rfl⟩

theorem State.begun_ledgerOpen (s : State) : s.Begun s.ledgerOpen := ⟨rfl, rfl, rfl, rfl, rfl, rfl, rfl, fun _ _ => rfl⟩

theorem State.begun_ringShow (s : State) : s.Begun s.ringShow := by
  refine .forAll fun u hu t => t.begun_setRegN _ ?_
  have := blk_mod (edgeBlk (u / 4))
  unfold swpAt
  omega

theorem State.begun_progress (s : State) : s.Begun s.progress := by
  have h : ∀ k, k < 0x100 → (safAt s.actHub + k) % 0x100000 < 0xF0000 := fun k hk => by
    have := blk_mod s.actHub
    unfold safAt
    omega
  exact .ite ((s.begun_setRegN _ (h 0x20 (by decide))).trans (State.begun_setRegN _ _ (h 0x24 (by decide)))) (.refl s)

theorem State.begun_jobCrimson (s : State) (code src : Nat) (d : List Byte) : s.Begun (s.jobCrimson code src d) := by
  unfold State.jobCrimson
  extract_lets s1
  have h1 : s.Begun s1 := (s.evented_raise ..).begun
  clear_value s1
  exact h1.trans ⟨rfl, rfl, rfl, rfl, rfl, rfl, rfl, fun _ _ => rfl⟩

theorem State.begun_stashWalk (s : State) : s.Begun s.stashWalk := by
  unfold State.stashWalk
  extract_lets due stash st0 st first src s1 s2
  have h1 : s.Begun s1 := ⟨rfl, rfl, rfl, rfl, rfl, rfl, rfl, fun _ _ => rfl⟩
  clear_value s1 first
  have h2 : s1.Begun s2 := by
    unfold s2
    clear s2
    cases first with
    | some lap => exact .ite (.refl s1) (s1.evented_raise ..).begun
    | none => exact .refl s1
  clear_value s2
  exact .ite (.refl s) ((h1.trans h2).trans (.ite (s2.begun_jobCrimson _ _ _) (.refl s2)))

theorem State.begun_portsCheck (s : State) : s.Begun s.portsCheck := by
  unfold State.portsCheck
  split
  · exact State.begun_jobCrimson ..
  · exact ⟨rfl, rfl, rfl, rfl, rfl, rfl, rfl, fun _ _ => rfl⟩

/-! What an attempt starts from. -/

theorem Tab.get?_mapV {α : Type} (t : Tab α) (f : α → α) (k : Nat) : Tab.get? (Tab.mapV t f) k = (Tab.get? t k).map f := by
  simp only [Tab.get?, Tab.mapV, List.find?_map, Option.map_map]
  rfl

/-- What `f` leaves of every value it leaves of an entry, whether the table has it or not. -/
theorem Tab.get_mapV {α β : Type} (t : Tab α) (f : α → α) (k : Nat) (d : α) (g : α → β) (h : ∀ x, g (f x) = g x) :
    g (Tab.get (Tab.mapV t f) k d) = g (Tab.get t k d) := by
  unfold Tab.get
  rw [Tab.get?_mapV]
  cases Tab.get? t k with
  | none => rfl
  | some x => exact h x

/-- R35: the record of the heat as the attempt starts. -/
def State.startedHeat (s : State) : Heat :=
  { s.heat with
    running := true, ochres := 0, unrec := 0, startTick := s.now, finish := none, held := false
    fwdDone := false, bwdDone := false, rsDone := false, sweepBegun := false, sweepDone := false, digestDone := false
    fwdPlanned := s.queuedSlivers false, fwdRepeated := 0, bwdPlanned := s.queuedSlivers true, bwdRepeated := 0
    fwdN8 := false, bwdN8 := false, levelFwd := s.heat.wideFwd, levelBwd := s.heat.wideBwd
    stormFwd := false, stormBwd := false }

/-- The twin, the sweep, the stash and the pool's marks cleared for an attempt. -/
def State.marksGone (s : State) : State :=
  { s.twinVoid with
    sweep := {}, stash := {}
    pool := { s.twinVoid.pool with issued := [], mark0 := none, mark1 := none, lastMark := 0, reqs := [] } }

/-- The heat's record and the clearing with which an attempt begins. -/
def State.attemptCleared (s : State) : State := { s with heat := s.startedHeat }.relayVoid.gatesReset.hurdlesReset.marksGone

/-- The ledger of the heat opened at its first attempt, and the homes and cursors pinned. -/
def State.attemptPinned (s : State) : State :=
  let s := if s.heat.attempt = 0 then s.ledgerOpen else s
  (s.scratchPin 1 s.homeUnits).scratchPin 0 s.cursorUnits

theorem State.attemptStart_eq (s : State) :
    s.attemptStart = s.attemptCleared.attemptPinned.coreLevels.homesClear.bookLoad.ringShow.progress.stashWalk.portsCheck := rfl

/-- What an attempt of `s` has set in `t`. -/
structure State.Opened (s t : State) : Prop where
  heat : s.startedHeat.Like t.heat
  gates : t.gates = {}
  sweep : t.sweep = {}
  epoch : ∀ e, (t.hrd e).epoch = 0
  pool : t.pool = { t.pool with issued := [], mark0 := none, mark1 := none, lastMark := 0, reqs := [] }
  cores : t.allCores = s.allCores

/-- The enabled cores go by the core map and by the pods that are dark or retired. -/
theorem State.allCores_congr {s t : State} (map : t.coreMap = s.coreMap) (dark : ∀ p, (t.pod p).dark = (s.pod p).dark)
    (retired : ∀ p, (t.pod p).retired = (s.pod p).retired) : t.allCores = s.allCores := by
  have h : t.podCores = s.podCores := by
    funext p
    unfold State.podCores State.podDark State.mapDark State.enCount
    rw [map, dark, retired]
  unfold State.allCores
  rw [h]

theorem State.Opened.begun {s t u : State} (h : s.Opened t) (g : t.Begun u) : s.Opened u where
  heat := by rw [g.heat, h.heat]
  gates := g.gates.trans h.gates
  sweep := g.sweep.trans h.sweep
  epoch e := by
    have := h.epoch e
    unfold State.hrd at this ⊢
    rwa [g.hrds]
  pool := by rw [g.pool, h.pool]
  cores := by
    refine (State.allCores_congr g.coreMap ?_ ?_).trans h.cores <;>
    · intro p
      unfold State.pod
      rw [g.pods]

/-- R349: a hurdle entry before its first round. -/
def Hrd.fresh (h : Hrd) : Hrd := { h with epoch := 0, count := 0, arrive := none, sent := 0, got := [], origins := [] }

/-- A pod at whose hurdles no core has arrived. -/
def Pod.fresh (p : Pod) : Pod := { p with hurdles := p.hurdles.mapV fun h => { h with arrived := [] } }

/-- `t` has of `s` all but the registers. -/
def State.Registered (s t : State) : Prop := ∃ r, t = { s with regs := r }

theorem State.Registered.trans {s t u : State} (h : s.Registered t) (g : t.Registered u) : s.Registered u := by
  obtain ⟨r, rfl⟩ := h
  obtain ⟨q, rfl⟩ := g
  exact ⟨q, rfl⟩

theorem State.registered_setRegN (s : State) (a n : Nat) : s.Registered (s.setRegN a n) := ⟨_, rfl⟩

theorem State.registered_setReg64 (s : State) (a n : Nat) : s.Registered (s.setReg64 a n) :=
  (s.registered_setRegN a _).trans (State.registered_setRegN _ (a + 4) _)

theorem State.registered_setReg (s : State) (a : Nat) (w : Word) : s.Registered (s.setReg a w) := ⟨_, rfl⟩

theorem State.registered_gateRefresh (s : State) : s.Registered s.gateRefresh :=
  (s.registered_setRegN _ _).trans (State.registered_setRegN _ _ _)

theorem State.registered_gatesReset (s : State) : { s with gates := {} }.Registered s.gatesReset :=
  ((State.registered_setRegN _ _ _).trans (State.registered_setReg _ _ _)).trans (State.registered_gateRefresh _)

theorem State.gatesReset_rest (s : State) :
    s.gatesReset.heat = s.heat ∧ s.gatesReset.gates = {} ∧ s.gatesReset.coreMap = s.coreMap ∧ s.gatesReset.pods = s.pods := by
  obtain ⟨r, h⟩ := s.registered_gatesReset
  rw [h]
  exact ⟨rfl, rfl, rfl, rfl⟩

theorem State.registered_hrdRefresh (s : State) : s.Registered s.hrdRefresh := by
  unfold State.hrdRefresh
  extract_lets b h st
  exact ((((s.registered_setRegN _ _).trans (State.registered_setReg64 _ _ _)).trans (State.registered_setReg64 _ _ _)).trans
    (State.registered_setReg64 _ _ _)).trans (State.registered_setRegN _ _ _)

/-- No round at the hurdles of the nodes, no arrival at those of the dies and pods. -/
def State.hurdlesFresh (s : State) : State :=
  { s with
    relay := { s.relay with hrds := s.relay.hrds.mapV Hrd.fresh }
    dieHurdles := s.dieHurdles.mapV fun h => { h with arrived := [] }
    pods := s.pods.mapV Pod.fresh
    cores := s.cores.mapV fun k => { k with arrived := [] } }

theorem State.registered_hurdlesReset (s : State) : s.hurdlesFresh.Registered s.hurdlesReset :=
  s.hurdlesFresh.registered_hrdRefresh

theorem State.hrds_hurdlesReset (s : State) : s.hurdlesReset.relay.hrds = s.relay.hrds.mapV Hrd.fresh := by
  obtain ⟨r, h⟩ := s.registered_hurdlesReset
  rw [h]
  rfl

theorem State.pods_hurdlesReset (s : State) : s.hurdlesReset.pods = s.pods.mapV Pod.fresh := by
  obtain ⟨r, h⟩ := s.registered_hurdlesReset
  rw [h]
  rfl

theorem State.hurdlesReset_rest (s : State) :
    s.hurdlesReset.heat = s.heat ∧ s.hurdlesReset.gates = s.gates ∧ s.hurdlesReset.coreMap = s.coreMap := by
  obtain ⟨r, h⟩ := s.registered_hurdlesReset
  rw [h]
  exact ⟨rfl, rfl, rfl⟩

theorem State.epoch_hurdlesReset (s : State) (e : Nat) : (s.hurdlesReset.hrd e).epoch = 0 := by
  unfold State.hrd Tab.get
  rw [State.hrds_hurdlesReset, Tab.get?_mapV]
  cases Tab.get? s.relay.hrds e with
  | none => rfl
  | some h => rfl

theorem State.dark_hurdlesReset (s : State) (p : Nat) : (s.hurdlesReset.pod p).dark = (s.pod p).dark := by
  unfold State.pod
  rw [State.pods_hurdlesReset]
  exact Tab.get_mapV s.pods Pod.fresh p {} Pod.dark fun _ => rfl

theorem State.retired_hurdlesReset (s : State) (p : Nat) : (s.hurdlesReset.pod p).retired = (s.pod p).retired := by
  unfold State.pod
  rw [State.pods_hurdlesReset]
  exact Tab.get_mapV s.pods Pod.fresh p {} Pod.retired fun _ => rfl

theorem State.Opened.marksGone {s v : State} (heat : s.startedHeat.Like v.heat) (gates : v.gates = {})
    (epoch : ∀ e, (v.hrd e).epoch = 0) (cores : v.allCores = s.allCores) : s.Opened v.marksGone :=
  ⟨heat, gates, rfl, epoch, rfl, (State.allCores_congr rfl (fun _ => rfl) fun _ => rfl).trans cores⟩

theorem State.Begun.hurdlesReset {s r : State} (h : { s with heat := s.startedHeat }.Begun r) :
    s.Opened r.gatesReset.hurdlesReset.marksGone := by
  obtain ⟨heat, gates, map, pods⟩ := r.gatesReset_rest
  generalize r.gatesReset = g at heat gates map pods ⊢
  obtain ⟨heat', gates', map'⟩ := g.hurdlesReset_rest
  refine .marksGone ?_ (gates'.trans gates) g.epoch_hurdlesReset
    (State.allCores_congr (map'.trans (map.trans h.coreMap)) (fun p => ?_) fun p => ?_)
  · rw [heat', heat]
    exact h.heat
  · rw [g.dark_hurdlesReset, State.pod, pods, h.pods]
    rfl
  · rw [g.retired_hurdlesReset, State.pod, pods, h.pods]
    rfl

theorem State.opened_attemptCleared (s : State) : s.Opened s.attemptCleared := (State.begun_relayVoid _).hurdlesReset

theorem State.begun_attemptPinned (s : State) : s.Begun s.attemptPinned := by
  unfold State.attemptPinned
  extract_lets s1
  have h1 : s.Begun s1 := .ite s.begun_ledgerOpen (.refl s)
  clear_value s1
  exact (h1.trans (s1.begun_scratchPin _ _)).trans (State.begun_scratchPin _ _ _)

/-! The registers of the levels. -/

theorem State.coreLevels_eq (s : State) : s.coreLevels = { s with regs := s.coreLevels.regs } :=
  State.forAll_induct (P := fun t => t = { s with regs := t.regs }) rfl fun c t _ h => by rw [h]; rfl

theorem ctlAt_add_ne (b c : Nat) : ctlAt b + 0x44 ≠ ctlAt c + 0x1C := by
  have := coreBase_mod b
  have := coreBase_mod c
  unfold ctlAt
  omega

/-- R35: CORE_HEAT of every enabled core is the heat's number. -/
theorem State.coreHeat_coreLevels (s : State) : ∀ c ∈ s.allCores, s.coreLevels.regN (ctlAt c + 0x1C) = s.heat.num % 2 ^ 32 := by
  refine State.forAll_each (Q := fun t => t.heat = s.heat) (P := fun c t => t.regN (ctlAt c + 0x1C) = s.heat.num % 2 ^ 32) rfl
    (fun _ _ h => h) (fun c t h => ?_) fun c d t h set => ?_
  · rw [State.regN_setRegN_ne _ _ (ctlAt_add_ne c c), State.regN_setRegN_same, h]
  · rw [State.regN_setRegN_ne _ _ (ctlAt_add_ne d c)]
    by_cases same : ctlAt d + 0x1C = ctlAt c + 0x1C
    · rw [same, State.regN_setRegN_same, h]
    · rw [State.regN_setRegN_ne _ _ same, set]

theorem State.Opened.coreLevels {s t : State} (h : s.Opened t) : s.Opened t.coreLevels := by
  rw [t.coreLevels_eq]
  exact ⟨h.heat, h.gates, h.sweep, h.epoch, h.pool, h.cores⟩

/-! The start as a whole. -/

/-- What follows the levels leaves what the attempt has set. -/
theorem State.begun_attemptReady (s : State) : s.Begun s.homesClear.bookLoad.ringShow.progress.stashWalk.portsCheck :=
  (((((State.begun_homesClear s).trans (State.begun_bookLoad _)).trans (State.begun_ringShow _)).trans (State.begun_progress _)).trans
    (State.begun_stashWalk _)).trans (State.begun_portsCheck _)

/-- The state in which the levels go to the cores. -/
theorem State.opened_attemptPinned (s : State) : s.Opened s.attemptCleared.attemptPinned :=
  s.opened_attemptCleared.begun (State.begun_attemptPinned _)

theorem State.opened_attemptStart (s : State) : s.Opened s.attemptStart := by
  rw [State.attemptStart_eq]
  exact s.opened_attemptPinned.coreLevels.begun (State.begun_attemptReady _)

theorem State.coreHeat_attemptStart (s : State) {c : Nat} (h : c ∈ s.allCores) :
    s.attemptStart.regN (ctlAt c + 0x1C) = s.heat.num % 2 ^ 32 := by
  have opened := s.opened_attemptPinned
  rw [State.attemptStart_eq]
  generalize s.attemptCleared.attemptPinned = t at opened ⊢
  have num : t.heat.num = s.heat.num := by rw [opened.heat]; rfl
  have kept := t.coreLevels.begun_attemptReady.reg _ (inCoreBlock_ctlAt c (by decide : 0x1C < 0x1000))
  rw [← opened.cores] at h
  unfold State.regN
  rw [kept, ← num]
  exact t.coreHeat_coreLevels c h

/-- Settles O33: the parts of the start that come after the clearing leave its marks (`State.Begun`), and no part after the
levels writes into a core's window. -/
theorem attemptsStart : Obligations.AttemptsStart := by
  refine fun s => ⟨fun due => ?_, fun due => ?_⟩
  · refine ⟨s, ?_, rfl⟩
    show Host.Outcome.next (if s.attemptDue then s.attemptStart else s) = _
    rw [due]
    rfl
  · refine ⟨s.attemptStart, ?_, ?_⟩
    · show Host.Outcome.next (if s.attemptDue then s.attemptStart else s) = _
      rw [due]
      rfl
    · obtain ⟨heat, gates, sweep, epoch, pool, -⟩ := s.opened_attemptStart
      have levels : ∀ c ∈ s.allCores, s.attemptStart.regN (ctlAt c + 0x1C) = s.heat.num % 2 ^ 32 := fun _ => s.coreHeat_attemptStart
      generalize s.attemptStart = t at heat gates sweep epoch pool levels ⊢
      rw [heat, gates, sweep, pool]
      exact ⟨rfl, rfl, rfl, rfl, rfl, rfl, rfl, rfl, rfl, rfl, rfl, rfl, rfl, fun _ => rfl, rfl, rfl, rfl, rfl, rfl, rfl, rfl, levels, epoch⟩

end Sys2Proof.Machine

/-!
PROOFS. Two statements about heats that fail, each at a state that the model runs to an outcome against it.
-/
namespace Sys2Proof.Machine

/-- The state that a command leaves; the one before it where the command stops. -/
def stateAfter (c : Instr) (s : State) : State :=
  match exec c s with
  | .next t => t
  | .fault _ => s
  | .refused _ => s

theorem stateAfter_eq {c : Instr} {s t : State} (e : exec c s = .next t) : stateAfter c s = t := by
  rw [stateAfter, e]

/-! A commit that parks the device. -/

/-- A heat that commits at tick 0, and whose job a Crimson fault stamped at that tick has stopped and asked to park (R541): the
fault does not precede the commit (R37). -/
def commitThenPark : State :=
  { heat := { running := true, active := true, finish := some 0, stopping := true, stopNow := true, parkAsked := true
              voids := [{ tick := 0, source := 0x8000, code := 0x070C }] } }

theorem commitThenPark_commitDue : commitThenPark.commitDue = some 0 := by decide

theorem commitThenPark_sweep : (stateAfter .heatCommit commitThenPark).sweep ≠ {} := by decide +kernel

/-- Refutes O35: the commit clears the sweep, but the job stops with it and parks the device, whose pause of the sweep (R203)
notes the STATE of every unit in the sweep that is said to be clear. -/
theorem not_heatsEnd : ¬ Obligations.HeatsEnd := by
  unfold Obligations.HeatsEnd
  rintro ⟨commits, -⟩
  obtain ⟨t, e, -, -, -, -, -, -, sweep, -⟩ := commits commitThenPark 0 commitThenPark_commitDue
  exact commitThenPark_sweep (by rw [stateAfter_eq e, sweep])

/-! A rollback whose cursor records lie over the shard table. -/

/-- A job descriptor with one shard, at 0x1000, whose cursor record (R201) lies at 0x1010: inside the shard's entry. -/
def overlaidDesc : List Byte :=
  List.replicate 0x64 0 ++ leBytes 4 1 ++ leBytes 8 0x1000 ++ List.replicate 0x10 0 ++ leBytes 8 0x1010 ++ List.replicate 0x78 0

/-- The third rollback of a heat in which the sector at address 5, of no shard, could not be read. -/
def overlaidRollback : State :=
  { job := { loaded := true, desc := overlaidDesc }, heat := { rolling := true, active := true, attempt := 2 }
    twin := { lostAt := [5] } }

theorem overlaidRollback_lostIdx : overlaidRollback.lostIdx = [] := by decide +kernel

/-- The cursor record that the rollback resets makes the address one of the shard: its state is lost, and no partner has it. -/
theorem overlaidRollback_crimson : (stateAfter .rollbackDone overlaidRollback).evt.crimson = 2 := by decide +kernel

/-- Refutes O34: which state is lost is looked up after the reset of the cursor records (R201, R237). Where one of them lies over
the shard table, state is lost that was not before, and its Crimson fault adds to the one of the third void. -/
theorem not_heatsRollBack : ¬ Obligations.HeatsRollBack := by
  unfold Obligations.HeatsRollBack
  rintro ⟨-, done⟩
  obtain ⟨-, -, third, -⟩ := done overlaidRollback
  obtain ⟨t, e, -, -, crimson⟩ := third rfl rfl rfl rfl (by decide) overlaidRollback_lostIdx
  rw [← stateAfter_eq e, overlaidRollback_crimson] at crimson
  exact absurd crimson (by decide)

end Sys2Proof.Machine
